-- ==== Sys2Proof/Config.lean ====
section
/-! DEFINITION. What an implementation of the CX-960 fixes and the values the manual leaves open: constants with no body,
so that a claim about them holds whatever they are. -/

namespace Sys2Proof

/-- SYS_ID1.VARIANT as fused at manufacture (Table 00-1, R3): 0 lidded, 1 bare cold plate. Log: 15 (DESIGN CHOICE). -/
opaque Config.variant : BitVec 1

/-- The 64-bit device serial fused at manufacture (R587). Log: 15 (DESIGN CHOICE). -/
opaque Config.serial : BitVec 64

/-- The SHA-384 digest of a byte string (R80, Table 20-3), a standard function that the manual names and does not restate.
Log: 16 (DESIGN CHOICE). -/
opaque Config.sha384 : List (BitVec 8) → BitVec 384

/-- Whether an ECDSA P-384 signature (first argument: key, then digest, then the 96 signature bytes) verifies (R80, R102, R570, R580).
Log: 16 (DESIGN CHOICE). -/
opaque Config.ecdsaVerifies : Nat → BitVec 384 → List (BitVec 8) → Bool

/-- Hyonnov's public key in slot 0, fixed at manufacture (R101). Log: 15 (DESIGN CHOICE). -/
opaque Config.vendorKey : Nat

/-- What the loader prefers for a Yarn among the edges, gates and ways that R57 and R58 leave it: from a draw, the Yarn's entry and
the edge or gate. Log: 35 (DESIGN CHOICE). -/
opaque Config.routeUse : Nat → Nat → Nat → Bool

/-- A 32-bit value that the manual leaves undefined, drawn afresh by a counter of the state. Log: 13 (DESIGN CHOICE). -/
opaque Config.freeWord : Nat → BitVec 32

/-- The result bits of a transcendental instruction (opcode, argument), which Table 08-5 bounds and leaves open within the
bound (R262). Log: 74 (DESIGN CHOICE). -/
opaque Config.transc : Nat → BitVec 32 → BitVec 32

/-- The spare extents that the Ryusen controller takes from each fast-tier channel for the retirement of a channel (first
argument; second: extents each channel hosts), a choice that R337 bounds and leaves free. Log: 85 (DESIGN CHOICE). -/
opaque Config.spareAssign : Nat → List Nat → List Nat

/-- The payload of a Kaluf message or control flit of a type, from the fields it carries and its data: a layout that the
manual does not give for the types of Table 13-3 (Table 14-5 gives that of REMOTE_ACC and PARAM). Log: 95 (DESIGN CHOICE). -/
opaque Config.msgBody : Nat → List Nat → List (BitVec 8) → List (BitVec 8)

/-- A byte that the manual calls undefined: draw and index. Log: 13 (DESIGN CHOICE). -/
opaque Config.freeByte : Nat → Nat → BitVec 8

/-- The Desk address at which a Yarn word arriving at a Spindle's input port is placed (physical index, port, words placed
before), within the Room's KIND-1 allocations: an address that the manual does not give. Log: 31 (DESIGN CHOICE). -/
opaque Config.yarnPlace : Nat → Nat → Nat → Nat

/-- What decoding a stored sample gives under the standard that its codec names (Table 15-2), standards that the manual names and
does not restate: whether the signature is known and the features lie in the accepted subset; the bytes of the headers and the
work cycles until they are checked; width and height; the rows of each component plane and the bytes of a native row; for
audio the rate, the bits of a sample (0 for IEEE float) and the samples of each channel (FP32 codes for float); the output
bytes of an image or a video clip in the layout asked for, with damage concealed as Table 15-7 says; the work cycles in all; the
first damage as its byte offset and unit, and whether it is that the source ends early; and AV1 film grain. -/
structure Decoded where
  known : Bool
  supported : Bool
  headBytes : Nat
  headWork : Nat
  width : Nat
  height : Nat
  planeRows : List Nat
  rowBytes : Nat
  rate : Nat
  bits : Nat
  channels : List (List Int)
  image : List (BitVec 8)
  work : Nat
  damage : Option (Nat × Nat)
  short : Bool
  grain : Bool
  deriving DecidableEq, Repr, Inhabited

/-- Decoding of a sample: kind (0 image, 1 video, 2 audio, 3 text), the parameter bytes of its entry, and its source bytes.
Log: 111 (DESIGN CHOICE). -/
opaque Config.decode : Nat → List (BitVec 8) → List (BitVec 8) → Decoded

/-- A mel weight w[m][k] as an FP32 code (R459): a fixed order of the functions of Table 08-5 that the manual does not give. Arguments:
N_MEL, F_LO, F_HI, RATE, the window, m and k. Log: 116 (DEDUCED). -/
opaque Config.melWeight : Nat → BitVec 32 → BitVec 32 → Nat → Nat → Nat → Nat → BitVec 32

/-- A weight of the bicubic filter as an FP32 code (tap, fraction): the manual gives the cubic and not the order in which it is evaluated.
Log: 118 (DESIGN CHOICE). -/
opaque Config.cubicWeight : Nat → BitVec 32 → BitVec 32

/-- What the SPI NOR flash held at manufacture, by offset (Table 20-4): the manual does not give it. -/
opaque Config.factoryFlash : Nat → BitVec 8

/-- The digest over which a management command's signature is taken (R580): of its bytes, the device serial and KEY_CTR, joined in
a way that the manual does not give. Log: 155 (DESIGN CHOICE). -/
opaque Config.keyDigest : List (BitVec 8) → BitVec 64 → Nat → BitVec 384

/-- Hyonnov's JEDEC manufacturer identity in IDCODE (R582). Log: 15 (DESIGN CHOICE). -/
opaque Config.jedecId : BitVec 11

/-! The video encoders (R496): what they emit is a fixed function of the open parameters, the frames and hints, and the order
of the frame commands, and the manual does not restate the standards. A stream's inputs so far are summed up in a number. -/

/-- The inputs so far, with further parameters and source bytes. -/
opaque Config.encNext : Nat → List Nat → List (BitVec 8) → Nat

/-- Bits of a part of a frame: the inputs so far, the part (0 a block coded normally, 1 a block skipped, 2 a chunk's header,
3 the frame-level units, 4 the end of the frame), its index and the QP. -/
opaque Config.encBits : Nat → Nat → Nat → Nat → Nat

/-- A byte of a chunk: the inputs so far, the chunk and the byte. -/
opaque Config.encByte : Nat → Nat → Nat → BitVec 8

/-- A statistics entry (Table 17-4): the inputs so far and the 16 × 16 block. -/
opaque Config.encStat : Nat → Nat → BitVec 64

/-- F_min of a stream from its ENC_OPEN words 2 to 10 (R498): the bits of a key frame made of forced skips. -/
opaque Config.encFmin : List Nat → Nat

/-- Whether a block row reads a sector of the reference buffers: the inputs so far, the row and the sector's offset. -/
opaque Config.encReads : Nat → Nat → Nat → Bool

/-- The bytes that coding a block row reads and writes in the reference buffers and the context, which the manual does not state:
the inputs so far and the row. -/
opaque Config.encTraffic : Nat → Nat → Nat

/-- The reference buffer (0 to 2) into which a frame is reconstructed. -/
opaque Config.encBuffer : Nat → Nat

end Sys2Proof
end

