-- ==== Sys2Proof/Machine/Bits.lean ====
section
/-! DEFINITION. Bit fields, two's complement, little-endian bytes (R6) and the two CRCs the manual names, over natural
numbers. -/

namespace Sys2Proof.Machine

/-- Bits `[lo + w - 1 : lo]` of `v`. -/
def bitsOf (v lo w : Nat) : Nat := v / 2 ^ lo % 2 ^ w

/-- Bit `k` of `v`. -/
def bitAt (v k : Nat) : Bool := v / 2 ^ k % 2 == 1

/-- `v` with bits `[lo + w - 1 : lo]` replaced by the low `w` bits of `x`. -/
def setBits (v lo w x : Nat) : Nat :=
  v / 2 ^ (lo + w) * 2 ^ (lo + w) + x % 2 ^ w * 2 ^ lo + v % 2 ^ lo

/-- A Bool as a bit. -/
def bit (b : Bool) : Nat := if b then 1 else 0

/-- The low `w` bits of `v` read as two's complement. -/
def toSigned (w v : Nat) : Int :=
  let u := v % 2 ^ w
  if u < 2 ^ (w - 1) then (u : Int) else (u : Int) - (2 ^ w : Nat)

/-- Two's complement of width `w`. -/
def ofSigned (w : Nat) (i : Int) : Nat := (i % ((2 ^ w : Nat) : Int)).toNat

/-- Bytes, least significant first (R6), as one number. -/
def ofLe : List (BitVec 8) → Nat
  | [] => 0
  | b :: t => b.toNat + 256 * ofLe t

/-- The `n` bytes of `v`, least significant first (R6). -/
def toLe : Nat → Nat → List (BitVec 8)
  | 0, _ => []
  | n + 1, v => BitVec.ofNat 8 v :: toLe n (v / 256)

/-- Number of one bits among the low `n` bits. -/
def popcount : Nat → Nat → Nat
  | 0, _ => 0
  | n + 1, v => v % 2 + popcount n (v / 2)

/-- The least `c` with `c * b ≥ a`. -/
def ceilDiv (a b : Nat) : Nat := (a + b - 1) / b

/-- One bit step of a reflected CRC with polynomial `poly`. -/
def crcBit (poly c : Nat) : Nat := if c % 2 == 1 then (c / 2) ^^^ poly else c / 2

/-- Eight bit steps of a reflected CRC. -/
def crcByte (poly c : Nat) (b : BitVec 8) : Nat :=
  let c := c ^^^ b.toNat
  let c := crcBit poly (crcBit poly (crcBit poly (crcBit poly c)))
  crcBit poly (crcBit poly (crcBit poly (crcBit poly c)))

/-- CRC-32, IEEE 802.3 polynomial (R78, R84, Table 18-10). -/
def crc32 (bs : List (BitVec 8)) : Nat := (bs.foldl (crcByte 0xEDB88320) 0xFFFFFFFF) ^^^ 0xFFFFFFFF

/-- One bit step of a CRC of width `w`, most significant bit first. -/
def crcMsbBit (w poly c : Nat) : Nat :=
  if c / 2 ^ (w - 1) % 2 == 1 then (c * 2 % 2 ^ w) ^^^ poly else c * 2 % 2 ^ w

/-- Repeat a CRC bit step. -/
def crcMsbBits (w poly : Nat) : Nat → Nat → Nat
  | 0, c => c
  | n + 1, c => crcMsbBits w poly n (crcMsbBit w poly c)

/-- A CRC of width `w`, most significant bit first, over bytes, from initial value `init`. -/
def crcMsb (w poly init : Nat) (bs : List (BitVec 8)) : Nat :=
  bs.foldl (fun c b => crcMsbBits w poly 8 (c ^^^ b.toNat * 2 ^ (w - 8))) init

/-- The first element of a list that meets a test, with its index. -/
def findIdx? {α : Type} (p : α → Bool) : List α → Nat → Option (Nat × α)
  | [], _ => none
  | a :: t, n => if p a then some (n, a) else findIdx? p t (n + 1)

/-- The element at an index, or a default. -/
def nth {α : Type} (d : α) : List α → Nat → α
  | [], _ => d
  | a :: _, 0 => a
  | _ :: t, n + 1 => nth d t n

/-- Replace the element at an index. -/
def setNth {α : Type} (v : α) : List α → Nat → List α
  | [], _ => []
  | _ :: t, 0 => v :: t
  | a :: t, n + 1 => a :: setNth v t n

/-- Minimum of a list of numbers, with a value for the empty list. -/
def minList (d : Nat) : List Nat → Nat
  | [] => d
  | a :: t => t.foldl min a

end Sys2Proof.Machine
end

