-- ==== Sys2Proof/Machine/Operands.lean ====
section
/-! DEFINITION. Element formats, their values, and every conversion and exact arithmetic the engines round from (Number
formats and training numerics). A finite value is a sign and a dyadic magnitude `m × 2^e`. -/

namespace Sys2Proof.Machine

/-- A value of a floating-point or integer element: NaN, an infinity, or ± m × 2^e. -/
inductive FVal where
  | nan
  | inf (neg : Bool)
  | num (neg : Bool) (m : Nat) (e : Int)
  deriving DecidableEq, Repr

/-- What a conversion counted (R177): saturations and NaNs written. -/
structure Tally where
  sat : Nat
  nan : Nat
  deriving DecidableEq, Repr

/-- Nothing counted. -/
def Tally.none : Tally := ⟨0, 0⟩

/-- Counts add. -/
def Tally.plus (a b : Tally) : Tally := ⟨a.sat + b.sat, a.nan + b.nan⟩

/-- The fields of a floating-point format (Table 05-2): exponent bits, mantissa bits, bias, code of MAXF, code of infinity
or one past the last code where it has none. -/
structure Fmt where
  ebits : Nat
  mbits : Nat
  bias : Int
  maxf : Nat
  inf : Option Nat
  nan : Nat
  deriving DecidableEq, Repr

/-- The floating-point formats of Tables 05-1, 05-2 and 05-5. -/
def fmtOf (f : Nat) : Option Fmt :=
  match f with
  | 0 => some ⟨8, 23, 127, 0x7F7FFFFF, some 0x7F800000, 0x7FC00000⟩
  | 1 => some ⟨5, 10, 15, 0x7BFF, some 0x7C00, 0x7E00⟩
  | 2 => some ⟨8, 7, 127, 0x7F7F, some 0x7F80, 0x7FC0⟩
  | 3 => some ⟨4, 3, 7, 0x7E, none, 0x7F⟩
  | 4 => some ⟨5, 2, 15, 0x7B, some 0x7C, 0x7E⟩
  | 5 => some ⟨3, 2, 3, 0x1F, none, 0x20⟩
  | 6 => some ⟨2, 1, 1, 0x7, none, 0x8⟩
  | _ => none

/-- Width of an element in bits (Table 05-1); 32 for the code 0x8 of INT32. -/
def fmtWidth (f : Nat) : Nat :=
  match f with
  | 0 => 32
  | 1 => 16
  | 2 => 16
  | 3 => 8
  | 4 => 8
  | 5 => 6
  | 6 => 4
  | 7 => 8
  | _ => 32

/-- Block-scaled formats (Table 05-1). -/
def blockScaled (f : Nat) : Bool := decide (3 ≤ f) && decide (f ≤ 7)

/-- The value of the magnitude part of a code of a floating-point format (R162, R164). -/
def Fmt.mag (x : Fmt) (c : Nat) : Nat × Int :=
  let m := c % 2 ^ x.mbits
  let e := c / 2 ^ x.mbits % 2 ^ x.ebits
  if e = 0 then (m, 1 - x.bias - x.mbits) else (2 ^ x.mbits + m, (e : Int) - x.bias - x.mbits)

/-- MAXF of a format as a magnitude (Table 05-2; 127 for INT8, R163). -/
def maxfOf (f : Nat) : Nat × Int :=
  match fmtOf f with
  | some x => x.mag x.maxf
  | none => if f = 7 then (127, 0) else (0x7FFFFFFF, 0)

/-- The value of an integer. -/
def FVal.ofInt (i : Int) : FVal := .num (decide (i < 0)) i.natAbs 0

/-- The value of an element code as written: infinities and NaNs included (R162). -/
def elemRaw (f c : Nat) : FVal :=
  match fmtOf f with
  | none => if f = 7 then FVal.ofInt (toSigned 8 c) else FVal.ofInt (toSigned 32 c)
  | some x =>
    let neg := bitAt c (x.ebits + x.mbits)
    let a := c % 2 ^ (x.ebits + x.mbits)
    match x.inf with
    | some i => if a = i then .inf neg else if i < a then .nan else .num neg (x.mag a).1 (x.mag a).2
    | none => if x.maxf < a then .nan else .num neg (x.mag a).1 (x.mag a).2

/-- An element as an operation reads it (Table 05-4): an infinity of FP16, BF16 or FP8 E5M2 reads as ±MAXF of its own
format and counts as a saturation. -/
def elem (f c : Nat) : FVal × Tally :=
  match elemRaw f c with
  | .inf neg => if f = 0 then (.inf neg, .none) else (.num neg (maxfOf f).1 (maxfOf f).2, ⟨1, 0⟩)
  | v => (v, .none)

/-- `m × 2^k` rounded to an integer, to nearest with ties to even (R169). -/
def rneShift (m : Nat) (k : Int) : Nat :=
  if 0 ≤ k then m * 2 ^ k.toNat
  else
    let d := 2 ^ (-k).toNat
    let q := m / d
    let r := m % d
    if 2 * r > d ∨ (2 * r = d ∧ q % 2 = 1) then q + 1 else q

/-- The magnitude code of `m × 2^e` rounded to nearest even, without limit (R169): the codes of a format rise with its
values, so the code is the count of steps from zero. -/
def Fmt.code (x : Fmt) (m : Nat) (e : Int) : Nat :=
  if m = 0 then 0 else
  let low := 1 - x.bias - x.mbits
  let q := max low ((Nat.log2 m : Int) + e - x.mbits)
  (q - low).toNat * 2 ^ x.mbits + rneShift m (e - q)

/-- A code with a sign bit on top. -/
def Fmt.signed (x : Fmt) (neg : Bool) (c : Nat) : Nat := c + bit neg * 2 ^ (x.ebits + x.mbits)

/-- An integer rounded to nearest even and limited to ± `lim`; the flag says that it was limited. -/
def roundInt (lim : Nat) (neg : Bool) (m : Nat) (e : Int) : Int × Bool :=
  let q := rneShift m e
  let limited := decide (lim < q)
  let q := min q lim
  (if neg then -(q : Int) else q, limited)

/-- Convert a value to a format with scale 1 (R169 to R171, R174, R175, R617): the code and what it counted. In the code
0x8 the result is an INT32, and in 0x7 an INT8. An FP32 infinity stays one in FP32 and becomes ±MAXF elsewhere. -/
def conv (f : Nat) (v : FVal) : Nat × Tally :=
  match fmtOf f with
  | none =>
    let w := if f = 7 then 8 else 32
    let lim : Nat := if f = 7 then 127 else 0x7FFFFFFF
    match v with
    | .nan => (if f = 7 then 0 else 0x80000000, ⟨0, 1⟩)
    | .inf neg => (ofSigned w (if neg then -(lim : Int) else lim), ⟨1, 0⟩)
    | .num neg m e => let p := roundInt lim neg m e; (ofSigned w p.1, ⟨bit p.2, 0⟩)
  | some x =>
    match v with
    | .nan => (x.nan, ⟨0, 1⟩)
    | .inf neg => if f = 0 then (x.signed neg 0x7F800000, .none) else (x.signed neg x.maxf, ⟨1, 0⟩)
    | .num neg m e =>
      let c := x.code m e
      if x.maxf < c then (x.signed neg x.maxf, ⟨1, 0⟩) else (x.signed neg c, .none)

/-! ## Exact arithmetic -/

/-- Two magnitudes brought to one exponent. -/
def align (m1 : Nat) (e1 : Int) (m2 : Nat) (e2 : Int) : Nat × Nat × Int :=
  let e := min e1 e2
  (m1 * 2 ^ (e1 - e).toNat, m2 * 2 ^ (e2 - e).toNat, e)

/-- A sign applied to a magnitude. -/
def signedMag (neg : Bool) (m : Nat) : Int := if neg then -(m : Int) else m

/-- Exact sum; an exact zero sum is +0 unless both are −0 (IEEE 754, R175). -/
def FVal.add (a b : FVal) : FVal :=
  match a, b with
  | .nan, _ => .nan
  | _, .nan => .nan
  | .inf s, .inf t => if s = t then .inf s else .nan
  | .inf s, _ => .inf s
  | _, .inf t => .inf t
  | .num s m e, .num t n f =>
    let p := align m e n f
    let i := signedMag s p.1 + signedMag t p.2.1
    if i = 0 then .num (s && t) 0 0 else .num (decide (i < 0)) i.natAbs p.2.2

/-- Exact product. -/
def FVal.mul (a b : FVal) : FVal :=
  match a, b with
  | .nan, _ => .nan
  | _, .nan => .nan
  | .inf s, .inf t => .inf (s != t)
  | .inf s, .num t n _ => if n = 0 then .nan else .inf (s != t)
  | .num s m _, .inf t => if m = 0 then .nan else .inf (s != t)
  | .num s m e, .num t n f => .num (s != t) (m * n) (e + f)

/-- Negation, exact. -/
def FVal.neg (a : FVal) : FVal :=
  match a with
  | .nan => .nan
  | .inf s => .inf (!s)
  | .num s m e => .num (!s) m e

/-- Magnitude, exact. -/
def FVal.abs (a : FVal) : FVal :=
  match a with
  | .nan => .nan
  | .inf _ => .inf false
  | .num _ m e => .num false m e

/-- Scale by a power of two, exact. -/
def FVal.scale (a : FVal) (k : Int) : FVal :=
  match a with
  | .num s m e => .num s m (e + k)
  | v => v

/-- The value is zero. -/
def FVal.isZero (a : FVal) : Bool :=
  match a with
  | .num _ 0 _ => true
  | _ => false

/-- `a < b` by value; false with a NaN (R247). -/
def FVal.lt (a b : FVal) : Bool :=
  match a, b with
  | .nan, _ => false
  | _, .nan => false
  | .inf s, .inf t => s && !t
  | .inf s, _ => s
  | _, .inf t => !t
  | .num s m e, .num t n f =>
    let p := align m e n f
    decide (signedMag s p.1 < signedMag t p.2.1)

/-- `a = b` by value; false with a NaN (R247). -/
def FVal.eq (a b : FVal) : Bool :=
  match a, b with
  | .nan, _ => false
  | _, .nan => false
  | a, b => !a.lt b && !b.lt a

/-- `a < b` with −0 below +0 (R246). -/
def FVal.ltZ (a b : FVal) : Bool :=
  a.lt b || (a.isZero && b.isZero && (match a, b with | .num s _ _, .num t _ _ => s && !t | _, _ => false))

/-- MIN and MAX (R246): the canonical NaN with a NaN; of equal values the first. -/
def FVal.min (a b : FVal) : FVal :=
  match a, b with
  | .nan, _ => .nan
  | _, .nan => .nan
  | a, b => if b.ltZ a then b else a

def FVal.max (a b : FVal) : FVal :=
  match a, b with
  | .nan, _ => .nan
  | _, .nan => .nan
  | a, b => if a.ltZ b then b else a

/-- Correctly rounded quotient to FP32: the exact quotient with a sticky bit below 60 further bits. -/
def FVal.div (a b : FVal) : FVal :=
  match a, b with
  | .nan, _ => .nan
  | _, .nan => .nan
  | .inf _, .inf _ => .nan
  | .inf s, .num t _ _ => .inf (s != t)
  | .num s _ _, .inf t => .num (s != t) 0 0
  | .num s m e, .num t n f =>
    if n = 0 then (if m = 0 then .nan else .inf (s != t))
    else
      let k := 60 + Nat.log2 n
      let p := m * 2 ^ k
      .num (s != t) (2 * (p / n) + bit (decide (p % n ≠ 0))) (e - f - k - 1)

/-- Integer square root by bits, highest bit below `2^fuel`. -/
def isqrt (n : Nat) : Nat → Nat → Nat
  | 0, r => r
  | k + 1, r => if (r + 2 ^ k) * (r + 2 ^ k) ≤ n then isqrt n k (r + 2 ^ k) else isqrt n k r

/-- Square root with a sticky bit, exact where the root is. -/
def FVal.sqrt (a : FVal) : FVal :=
  match a with
  | .nan => .nan
  | .inf s => if s then .nan else .inf false
  | .num s m e =>
    if m = 0 then .num s 0 0 else if s then .nan else
      let odd := (e % 2).toNat
      let n := m * 2 ^ (128 + odd)
      let r := isqrt n 160 0
      .num false (2 * r + bit (decide (r * r < n))) ((e - odd) / 2 - 64 - 1)

/-- A finite sum of products, and the running round of an accumulator. -/
def FVal.fma (a b c : FVal) : FVal := (a.mul b).add c

/-! ## Lanes -/

/-- Formats of the lane types of Table 08-2: FP32, BF16, FP16, INT32. -/
def laneFmt (lanes : Nat) : Nat :=
  match lanes with
  | 0 => 0
  | 1 => 2
  | 2 => 1
  | _ => 8

/-- Bytes of a lane. -/
def laneBytes (lanes : Nat) : Nat := if lanes = 1 ∨ lanes = 2 then 2 else 4

/-- Lanes of a line (R245). -/
def lineLanes (lanes : Nat) : Nat := if lanes = 1 ∨ lanes = 2 then 512 else 256

/-! ## Blocks and the E8M0 scale -/

/-- `m1 × 2^e1 ≤ m2 × 2^e2`. -/
def magLe (m1 : Nat) (e1 : Int) (m2 : Nat) (e2 : Int) : Bool :=
  let p := align m1 e1 m2 e2
  decide (p.1 ≤ p.2.1)

/-- emin of R186: the smallest `e` with `a ≤ maxf × 2^e`, for `a > 0`. -/
def emin (a : Nat × Int) (mx : Nat × Int) : Int :=
  let e0 := (Nat.log2 a.1 : Int) + a.2 - ((Nat.log2 mx.1 : Int) + mx.2)
  if magLe a.1 a.2 mx.1 (mx.2 + e0) then e0 else e0 + 1

/-- Limit a scale code to 0 to 254. -/
def clampScale (c : Int) : Nat := if c < 0 then 0 else if 254 < c then 254 else c.toNat

/-- The largest finite magnitude of a list of values. -/
def maxMag (vs : List FVal) : Nat × Int :=
  vs.foldl (fun acc v =>
    match v with
    | .num _ m e => if magLe m e acc.1 acc.2 then acc else (m, e)
    | _ => acc) (0, 0)

/-- The BLOCK_MAX scale code (R173). -/
def blockMax (f : Nat) (vs : List FVal) : Nat :=
  let a := maxMag vs
  if a.1 = 0 then 0x7F else clampScale (127 + emin a (maxfOf f))

/-- A scaled element as it is read (R166): every element of a block with scale 0xFF is NaN. -/
def scaled (c : Nat) (v : FVal) : FVal := if c = 0xFF then .nan else v.scale ((c : Int) - 127)

/-- The overflow binade count of R184: the smallest `m ≥ 1` with `abs v ≤ MAXF × 2^(e + m)`, at most 255. -/
def ovfCount (f c : Nat) (v : FVal) : Nat :=
  match v with
  | .num _ m e => if m = 0 then 0 else min 255 (Int.toNat (max 1 (emin (m, e) (maxfOf f) - ((c : Int) - 127))))
  | .inf _ => 255
  | .nan => 0

/-- A block converted: element codes, scale byte, what it counted, and the largest magnitude written and the largest
overflow count that a scale group gathers (R185). -/
structure Block where
  codes : List Nat
  scale : Nat
  tally : Tally
  amax : Nat × Int
  ovf : Nat
  deriving DecidableEq, Repr

/-- Convert 32 values to a block-scaled format with scale code `c` (R171, Table 05-5). Log: 73 (DEDUCED). -/
def convWith (f c : Nat) (vs : List FVal) : Block :=
  let hasNan := vs.any fun v => v == .nan
  if hasNan && decide (5 ≤ f) then ⟨vs.map fun _ => 0, 0xFF, ⟨0, 1⟩, (0, 0), 0⟩
  else
    let rs := vs.map fun v => conv f (v.scale (127 - (c : Int)))
    let tally := rs.foldl (fun t r => t.plus r.2) Tally.none
    let written := rs.map fun r => (elemRaw f r.1).scale ((c : Int) - 127)
    let ovf := (vs.zip rs).foldl (fun o p => if p.2.2.sat = 0 then o else max o (ovfCount f c p.1)) 0
    ⟨rs.map fun r => r.1, c, tally, maxMag written, ovf⟩

/-- Convert 32 values, with the scale of the block's own contents (R173). -/
def convBlockMax (f : Nat) (vs : List FVal) : Block := convWith f (blockMax f vs) vs

/-- Pack element codes of width `w` into bytes, element 0 in the lowest bits (R6, R167). -/
def packCodes (w : Nat) (cs : List Nat) : List (BitVec 8) :=
  toLe (ceilDiv (w * cs.length) 8) (cs.foldr (fun c acc => c % 2 ^ w + 2 ^ w * acc) 0)

/-- Element `i` of width `w` of a packed number. -/
def unpack (w v i : Nat) : Nat := bitsOf v (w * i) w

/-- Groups of `n` elements. -/
def chunks {α : Type} (n : Nat) : Nat → List α → List (List α)
  | 0, _ => []
  | k + 1, l => l.take n :: chunks n k (l.drop n)

end Sys2Proof.Machine
end

