-- ==== Sys2Proof/Word.lean ====
section
/-! DEFINITION. The word types of the CX-960: a register is one 32-bit word (R8), memory is addressed in bytes (R6, R7). -/

namespace Sys2Proof

/-- The contents of one 32-bit register (R8). -/
abbrev Word := BitVec 32

/-- One byte of memory. -/
abbrev Byte := BitVec 8

end Sys2Proof
end

