-- ==== Sys2Proof/Machine/Parts.lean ====
section
/-! DEFINITION. The parts of the state that no register holds: what the manual's engines keep between their steps. Each
is plain data. -/

namespace Sys2Proof.Machine

/-- What the register window keeps for one PCIe function between its accesses (R9, R10): function 0 is the physical
function, 1 + r is virtual function r. -/
structure FnState where
  /-- offset of a high word and the half that the next read of it returns -/
  snapshot : Option (Nat × Nat)
  /-- offset of a low word and the value held for it -/
  held : Option (Nat × Nat)
  deriving DecidableEq, Repr

/-- A function with no snapshot and no held low word. -/
def FnState.init : FnState := ⟨none, none⟩

/-- An open loop of a microsequence (R254): the slot after its LOOP, its iterations and its index. -/
structure LoopSt where
  start : Nat
  count : Nat
  index : Nat
  deriving DecidableEq, Repr

/-- What a run keeps with an accumulator set besides its sums (R207, R218, Table 06-6), and what the Monitor keeps with a
run in FP16 (R189, R219): the FP32 reference of each cell, the exact sum of its product magnitudes, the cells that have
saturated; and, in every mode, the rows sampled. -/
structure AccSet where
  sat : Bool
  adds : Nat
  mode : Nat
  scaleA : List Nat
  scaleB : List Nat
  ref : List Nat
  mag : List (Nat × Int)
  sats : List Nat
  rows : List Nat
  deriving DecidableEq, Repr

/-- No run. -/
def AccSet.init : AccSet := ⟨false, 0, 0, [], [], [], [], [], []⟩

/-- What a Spindle keeps of a scale group between its first conversion in a Round and its Lesson's end (R185): the scale
it read, and what it gathered (AMAX as an FP32 code). -/
structure GroupUse where
  group : Nat
  round : Nat
  scale : Nat
  sat : Nat
  amax : Nat
  ovf : Nat
  deriving DecidableEq, Repr

/-- A tile that has been issued (R201, R226): its words, its number within the command, the set it accumulates in, and
the saturations met in its adds. -/
structure Tile where
  words : List Nat
  num : Nat
  set : Nat
  deriving DecidableEq, Repr

/-- A write to Desk words while a tile was in the array (R256): the address, the bytes that stood there and which of their words were
poisoned, and the steps that the tile in the array and the one accepted behind it had read before the write. -/
structure Overwrite where
  addr : Nat
  old : List (BitVec 8)
  bad : List Nat
  fed : Nat
  fed2 : Nat
  deriving DecidableEq, Repr

/-- What stops a Spindle (R257): nothing, the next checkpoint, or the end of the instruction in progress. -/
inductive StopReq where
  | none
  | checkpoint
  | next
  deriving DecidableEq, Repr

/-- The engine state of one Spindle that no register shows. -/
structure SpindleSt where
  /-- open loops, outermost first -/
  loops : List LoopSt
  stopReq : StopReq
  /-- POINT at which the Spindle stopped -/
  point : Nat
  /-- tiles completed in the RUN command (R188), and tiles issued -/
  tileSeq : Nat
  issued : Nat
  acc0 : AccSet
  acc1 : AccSet
  /-- the tile in the array, the one accepted while it finishes (R256), and the tile whose set drains -/
  arr : Option Tile
  arr2 : Option Tile
  drn : Option Tile
  /-- writes to the Desk since the array accepted its oldest tile, oldest first (R256) -/
  rewrites : List Overwrite
  /-- a Lesson has ended, and what the Spindle's drain still gathers is merged at its end (R185) -/
  mergeDue : Bool
  /-- slot of the TILE whose panel the expander has written -/
  expanded : Option Nat
  /-- Yarn words of the YSEND in progress that wait for credits: output port, word and marker -/
  yout : List (Nat × Nat × Nat)
  /-- the same for a drain to Yarns, none before its conversion -/
  drainq : Option (List (Nat × Nat × Nat))
  /-- running maximum and index of each row of an argmax run (R242) -/
  argmax : List (Option FVal × Nat)
  groups : List GroupUse
  /-- scale group whose system-wide values an instruction waits for, and the deadline (R187) -/
  scaleWait : Option (Nat × Nat)
  deriving DecidableEq, Repr

/-- An idle Spindle. -/
def SpindleSt.init : SpindleSt where
  loops := []
  stopReq := .none
  point := 0
  tileSeq := 0
  issued := 0
  acc0 := AccSet.init
  acc1 := AccSet.init
  arr := none
  arr2 := none
  drn := none
  rewrites := []
  mergeDue := false
  expanded := none
  yout := []
  drainq := none
  argmax := []
  groups := []
  scaleWait := none

/-- The sequencer state of one Spindle, kept with a command that leaves without a save record (R145). -/
structure Parked where
  logical : Nat
  vx : Nat
  mx : Nat
  spindle : SpindleSt
  deriving DecidableEq, Repr

/-- Blocks that a Reel has not written at a pre-emption because their slot was closed (R310): the logical Spindle, the stream, the
unit and row of the next of them, and the units released. -/
structure HeldStream where
  logical : Nat
  stream : Nat
  unit : Nat
  row : Nat
  passed : Nat
  deriving DecidableEq, Repr

/-- What is kept of a saved command's Spindle beside its record: the logical Spindle, whether it had reached its END (R252), and the
sets with what the Monitor keeps of their runs (R189, R219). -/
structure KeptRun where
  logical : Nat
  ended : Bool
  acc0 : AccSet
  acc1 : AccSet
  deriving DecidableEq, Repr

/-- Where a fetched command stands. -/
inductive CmdPhase where
  /-- fetched and checked, not started -/
  | waiting
  /-- started, running on its engine -/
  | started
  /-- a RUN command saved in a slot -/
  | saved
  /-- a SEM_ACQUIRE waiting for its semaphore -/
  | semWait
  /-- a WAIT_TIME or PARAM_WAIT waiting for its instant or bytes -/
  | timeWait
  deriving DecidableEq, Repr

/-- One command packet that the device has fetched and not completed (R129, R130). -/
structure Cmd where
  id : Nat
  queue : Nat
  index : Nat
  room : Nat
  level : Nat
  words : List Nat
  phase : CmdPhase
  /-- save slot, its variant, whether saved at a variant change (R281), and S_SAVE of its record -/
  slot : Nat
  variant : Nat
  byPhase : Bool
  sSave : Nat
  /-- TIME_NOW of the deadline of a wait; 0 for none -/
  deadline : Nat
  /-- the waiter has already raised the holder once (R154) -/
  raised : Bool
  /-- Spindle state of a command that left with nothing live and no slot (R145) -/
  parked : List Parked
  /-- Skein blocks that its Reels held at the pre-emption (R310) -/
  heldBlocks : List HeldStream
  /-- what the device keeps of a saved command's Spindles beside their records -/
  kept : List KeptRun
  deriving DecidableEq, Repr

/-- One Lesson entry of a TIMETABLE section (R96). -/
structure Lesson where
  start : Nat
  len : Nat
  variant : Nat
  hostSel : Bool
  ceiling : Nat
  profile : Nat
  kind : Nat
  deriving DecidableEq, Repr

/-- The steps of a switch (Table 04-6). -/
inductive SwitchPhase where
  | stopping
  | saving
  | restoring
  /-- the incoming command is restored and waits for the plane switch (R121) -/
  | restored
  deriving DecidableEq, Repr

/-- A switch of a Room from one RUN command to another (R148). -/
structure Switch where
  phase : SwitchPhase
  outgoing : Option Nat
  incoming : Option Nat
  slot : Nat
  point : Nat
  sSave : Nat
  sRestore : Nat
  byPhase : Bool
  deriving DecidableEq, Repr

/-- A Yarn as the loader laid it (R55 to R58, R93): its entry of the image, the tracks and bond gates that it uses, and the directed
base-tile boundaries that it crosses. A bank of a Room's switch boxes is the list of the Yarns that it connects. -/
structure Laid where
  entry : Nat
  uses : List Nat
  cross : List Nat
  deriving DecidableEq, Repr

/-- The engine state of one Room that no register shows. -/
structure RoomSt where
  imgAddr : Nat
  imgSize : Nat
  /-- the key slots as they were when its load was accepted (R583) -/
  imgKeys : Nat
  nVariants : Nat
  initVariant : Nat
  benches : List Nat
  queues : List Nat
  lessons : List Lesson
  /-- profiles: fast-tier and capacity-tier share of each -/
  profiles : List (Nat × Nat)
  /-- claims in 0.1 % units -/
  ftClaim : Nat
  ctClaim : Nat
  /-- the Yarns of each variant as laid -/
  lays : List (List Laid)
  /-- the active and the standby bank of the switch boxes (R93) -/
  bankA : List Laid
  bankS : List Laid
  /-- cross-die Yarns reserved on each of the eight directed boundaries -/
  xd : List Nat
  sMax : Nat
  /-- the Room's Lessons stand in the Timetable -/
  entered : Bool
  /-- the Lesson that covers the present -/
  cur : Option Nat
  /-- the Lesson in force when the switch in progress began, once a boundary has fallen during it (Table 04-7) -/
  before : Option (Option Nat)
  /-- the present work or reshard Lesson has begun, and no command has been chosen or resumed in it (R281) -/
  fresh : Bool
  /-- variant latched for a HOST_SEL Lesson (R114) -/
  latched : Option Nat
  preload : Option Nat
  /-- code with which a preload failed, 0 for none (R117) -/
  preloadFail : Nat
  /-- the variant whose preload failed -/
  failVar : Nat
  /-- bytes of its image that the loader's present step or a preload has still to read (R119, R322) -/
  reads : Nat
  /-- variant a boundary switch is waiting to bring in (R113, R116) -/
  switchTo : Option Nat
  /-- the delay of the present boundary's switch has been counted (R116) -/
  lateDone : Bool
  /-- a hold that waits for the Room's stop: 0 none, else its cause, 1 (R125) or 2 (R523) -/
  holdReq : Nat
  /-- an unload that waits for the Room's stop -/
  unloadReq : Bool
  suspended : Bool
  switch : Option Switch
  /-- a boundary or a release has made the present Lesson due to be entered anew -/
  due : Bool
  /-- code of an armed trap, 0 for none (R178, R191) -/
  trap : Nat
  /-- bound disagreements of the present Round (R191) -/
  monRound : Nat
  /-- the Monitor's sampling as its last RUN command found it, k of 1 in 2^k; 0 for none (Table 05-15) -/
  monRate : Nat
  /-- RUN command chosen to start next -/
  next : Option Nat
  /-- DETAIL of a RUN command that has signalled its completion and waits for its writes (R362) -/
  ending : Option Nat
  /-- last queue served at each level -/
  rr : List Nat
  deriving DecidableEq, Repr

/-- A Room that holds nothing. -/
def RoomSt.init : RoomSt where
  imgAddr := 0
  imgSize := 0
  imgKeys := 0
  nVariants := 0
  initVariant := 0
  benches := []
  queues := []
  lessons := []
  profiles := []
  ftClaim := 0
  ctClaim := 0
  lays := []
  bankA := []
  bankS := []
  xd := [0, 0, 0, 0, 0, 0, 0, 0]
  sMax := 0
  entered := false
  cur := none
  before := none
  fresh := false
  latched := none
  preload := none
  preloadFail := 0
  failVar := 0
  reads := 0
  switchTo := none
  lateDone := false
  holdReq := 0
  unloadReq := false
  suspended := false
  switch := none
  due := false
  trap := 0
  monRound := 0
  monRate := 0
  next := none
  ending := none
  rr := [0, 0, 0, 0]

/-- The kinds of operation of which the device runs one at a time (R104). -/
inductive LoadKind where
  | load
  | unload
  | substitution
  deriving DecidableEq, Repr

/-- The operation in progress (R104): for a load its next step of Table 03-5, for a substitution the Spindle retired. -/
structure LoadOp where
  kind : LoadKind
  room : Nat
  step : Nat
  cancel : Bool
  spindle : Nat
  deriving DecidableEq, Repr

/-- A semaphore raise in force (R154). -/
structure Raise where
  sem : Nat
  queue : Nat
  level : Nat
  waiter : Nat
  room : Nat
  /-- TIME_NOW one Round after the raise -/
  limit : Nat
  /-- the first admitted work Lesson after the raise has begun -/
  begun : Bool
  deriving DecidableEq, Repr

/-- A Note packet: the header fields of Table 02-6 and its payload. -/
structure NotePacket where
  typ : Nat
  prio : Nat
  room : Nat
  len : Nat
  fence : Bool
  tag : Nat
  dst : Nat
  src : Nat
  addr : Nat
  op : Nat
  payload : List (BitVec 8)
  deriving DecidableEq, Repr

/-- A Note request that has not been answered (R70), with the stream, unit, and offset in the unit it serves, where a Reel
issued it. -/
structure NoteReq where
  src : Nat
  tag : Nat
  time : Nat
  stream : Option Nat
  unit : Nat
  off : Nat
  len : Nat
  addr : Nat
  write : Bool
  /-- its answer is discarded: the Reel or the command that sent it has gone on (R366, R382) -/
  stale : Bool
  deriving DecidableEq, Repr

/-- One 64-byte word in a Yarn receive buffer. -/
structure YarnWord where
  data : Nat
  marker : Nat
  /-- its 32-bit words that are poisoned, by number (R61) -/
  bad : List Nat
  deriving DecidableEq, Repr

/-- A unit that strikes, retirements and the Report card name (Table 18-1). -/
inductive Part where
  | spindle (i : Nat)
  | ftChannel (ch : Nat)
  | ctChannel (ch : Nat)
  | lane (port l : Nat)
  | adder (a : Nat)
  | engine (k : Nat)
  deriving DecidableEq, Repr

/-- A retirement that waits for its substitution (R49, R521, R523). -/
structure Retirement where
  spindle : Nat
  /-- preventive: the state moves and nothing is aborted -/
  preventive : Bool
  /-- the Room has stopped and its state has been copied -/
  copied : Bool
  deriving DecidableEq, Repr

/-- What the device sends out through a port, a bus or a pin. The list of them is kept newest first.
Log: 5 (DESIGN CHOICE); 67 (DESIGN CHOICE). -/
inductive OutEv where
  /-- an MSI-X message of a PCIe function -/
  | msix (fn vec : Nat)
  /-- data returned to a read of a PCIe function -/
  | readData (fn value : Nat)
  /-- a PCIe completion with unsupported-request status -/
  | unsupported (fn : Nat)
  /-- a PCIe completion with configuration-retry status -/
  | retryStatus (fn : Nat)
  /-- a configuration request completed normally -/
  | configDone (fn : Nat)
  /-- the Device Readiness Status message (Table 20-2) -/
  | readiness
  /-- a posted write of a function to host memory -/
  | hostWrite (fn addr : Nat) (bytes : List (BitVec 8))
  /-- a read of a function from host memory -/
  | hostRead (fn addr len : Nat)
  /-- a Note packet: header words and payload -/
  | note (w0 w1 w2 w3 : Nat) (payload : List (BitVec 8))
  /-- a Yarn word leaving an output port -/
  | yarn (spindle port data marker : Nat)
  /-- a credit returned to an output port -/
  | yarnCredit (spindle port : Nat)
  /-- a Kaluf flit as its 256 bytes -/
  | flit (port : Nat) (bytes : List (BitVec 8))
  /-- a link control message (NAK, lane retirement, retraining, wake) with its operand -/
  | linkCtl (port kind arg : Nat)
  /-- a Kaluf message: destination device, type, class, the fields it carries and its data -/
  | msg (dev typ cls : Nat) (fields : List Nat) (data : List (BitVec 8))
  /-- a memory request issued to a channel -/
  | memReq (write : Bool) (addr len : Nat)
  /-- a response on the management port -/
  | mgmt (bytes : List (BitVec 8))
  /-- an output pin reached a level, or carried a pulse -/
  | pin (name : String) (level : Nat)
  /-- an answer to a JTAG instruction -/
  | jtag (instr value : Nat)
  deriving DecidableEq, Repr

/-- MSI-X (R578, R594): the vectors that the host has unmasked, the functions whose function mask is clear, and the
messages held pending, each named by 2,048 × function + vector. -/
structure IrqSt where
  openVecs : List Nat
  openFns : List Nat
  held : List Nat
  deriving DecidableEq, Repr

/-- Every vector masked, nothing pending. Log: 29 (PRESUMED). -/
def IrqSt.init : IrqSt := ⟨[], [], []⟩

/-- Queues, Rooms, semaphores and the loader. -/
structure QueSt where
  nextId : Nat
  /-- fetched commands, oldest first -/
  cmds : List Cmd
  /-- Rooms by number; an unlisted Room holds nothing -/
  rooms : List (Nat × RoomSt)
  op : Option LoadOp
  raises : List Raise
  /-- last queue fetched from at each level -/
  rrFetch : List Nat
  deriving DecidableEq, Repr

/-- Nothing fetched, no Room loaded. -/
def QueSt.init : QueSt := ⟨0, [], [], none, [], [0, 0, 0, 0]⟩

/-- The Timetable's Bell machinery (R141, R143). -/
structure BellSt where
  /-- window half-width in force for the next boundary -/
  win : Nat
  /-- the Timetable has had its first boundary -/
  started : Bool
  /-- instant at which the next boundary falls, once a Bell or a missed window has placed it -/
  place : Option Nat
  /-- the instant of the next boundary where a Bell after N, in free-run, has placed it -/
  late : Option Nat
  /-- in free-run, the window of the last boundary is still open after it -/
  trail : Bool
  /-- the unloaded Rooms whose entries leave the Timetable at the next boundary (R111): how many, and whether they had entered it -/
  leaving : List (Nat × Bool)
  deriving DecidableEq, Repr

/-- No window in force. -/
def BellSt.init : BellSt := ⟨0, false, none, none, false, []⟩

/-- Note requests outstanding and Yarns. -/
structure NetSt where
  notes : List NoteReq
  /-- packets on the Note path, oldest first -/
  flight : List NotePacket
  /-- words in flight to an input port, oldest first, by 4 × physical index + input port -/
  wires : List (Nat × List YarnWord)
  /-- receive buffers, by 4 × physical index + input port -/
  bufs : List (Nat × List YarnWord)
  /-- credits left towards each input port, by 4 × physical index + input port; an unlisted port grants 256 -/
  credits : List (Nat × Nat)
  /-- unconsumed tile-end markers, by 4 × physical index + input port -/
  marks : List (Nat × Nat)
  /-- words that have left each receive buffer for the Desk -/
  placed : List (Nat × Nat)
  deriving DecidableEq, Repr

/-- Nothing in flight. -/
def NetSt.init : NetSt := ⟨[], [], [], [], [], [], []⟩

/-- What falls due during a restart of the Ryusen controller (R528). -/
inductive Deferred where
  /-- a FLT_LOG record with the instant of its detection -/
  | record (kind cls action : Nat) (room : Option Nat) (strikes unit sub addr code time : Nat)
  /-- the retirement of a Spindle -/
  | retire (spindle : Nat) (preventive : Bool) (kind code : Nat)
  /-- the retirement of an engine -/
  | engine (k : Nat)
  /-- the retirement of an adder -/
  | adder (a : Nat)
  /-- the retirement of a port's lane -/
  | lane (port lane : Nat)
  deriving DecidableEq, Repr

/-- Strikes, retirements and the parts of the flash and fuse arrays that faults and ageing keep. -/
structure FltSt where
  /-- strikes with their instants (R520) -/
  strikes : List (Part × Nat)
  /-- the one-time-programmable retirement array (R531) -/
  otp : List Part
  /-- substitutions that wait (R49, R104) -/
  queue : List Retirement
  /-- Spindle storage words (Desk window addresses) that wait for their in-place test (R519) -/
  suspects : List Nat
  /-- instants at which words of a Spindle were corrected within the last second, since the last strike for them (R520) -/
  ceNow : List (Nat × List Nat)
  /-- Term number, minutes of powered time, and those at which the Term began (R534) -/
  term : Nat
  poweredMin : Nat
  termStart : Nat
  /-- channels that the Term end in progress has still to scan (R536) -/
  scanLeft : List Nat
  /-- transient and permanent counts by KIND (Table 18-10) -/
  faults : List (Nat × (Nat × Nat))
  /-- last eye width by channel, least SNR by lane, junction maximum and leakage by die -/
  eyes : List (Nat × Nat)
  snr : List (Nat × Nat)
  tjMax : List (Nat × Nat)
  leak : List (Nat × Nat)
  /-- TIME_NOW of the last watchdog restart, and whether one is in progress (R528) -/
  wdogLast : Option Nat
  wdogBusy : Bool
  /-- retirements and log records that fell due during a watchdog restart, oldest first (R528) -/
  deferred : List Deferred
  /-- the offsets that a re-plan wants and has not reached, by 5 × die + FCLK step (R535) -/
  voffWant : List (Nat × Int)
  /-- Spindles whose substitution has failed, to be replaced once their Room is unloaded (R50) -/
  failed : List Nat
  deriving DecidableEq, Repr

/-- A device fresh from the factory: nothing retired, no Report card. Log: 7 (DEDUCED). Log: 159 (DESIGN CHOICE). -/
def FltSt.init : FltSt := ⟨[], [], [], [], [], 1, 0, 0, [], [], [], [], [], [], none, false, [], [], []⟩

/-- The management port's alert causes (Table 20-7) and which may assert ALERT_N (R581). -/
structure MgmtSt where
  causes : Nat
  unmasked : Nat
  /-- KEY_CTR of R580 -/
  keyCtr : Nat
  /-- public keys of slots 1 to 3 -/
  keys : List (Nat × Nat)
  /-- FW_SVN_MIN -/
  svnMin : Nat
  /-- states of key slots 1 to 3 as provisioned: 0 EMPTY, 1 ACTIVE, 2 REVOKED (R101, R580) -/
  slots : List (Nat × Nat)
  /-- bytes of the SPI NOR flash that differ from what it held at manufacture (Table 20-4) -/
  flash : List (Nat × BitVec 8)
  deriving DecidableEq, Repr

/-- All causes unmasked and clear (R581). -/
def MgmtSt.init : MgmtSt := ⟨0, 0xFF, 0, [], 0, [], []⟩

/-- Where the device stands between power-off and READY (Tables 20-1, 20-2): held in reset; the boot ROM reading firmware slot
A or B; no slot accepted; firmware running, with the stages done so far; READY reached; no slot accepted and the wait over. -/
inductive BootStage where
  | held
  | rom (slot : Nat)
  | noFirmware
  | firmware (done : List Nat)
  | ready
  | failed
  deriving DecidableEq, Repr

/-- Power and boot (R567 to R571, R575, R582): the auxiliary domain, conversion and PWR_GOOD; RESET_N released; the address
strapped on ADDR_SEL; the boot stage; NumVFs of the SR-IOV capability; the retirements that start-up applies (R531), once read;
the JTAG instruction in force (0 BYPASS, 1 IDCODE, 2 SAMPLE/PRELOAD, 3 EXTEST, 4 EXTEST_PULSE, 5 EXTEST_TRAIN). -/
structure BootSt where
  aux : Bool
  conv : Bool
  good : Bool
  released : Bool
  addrSel : Nat
  stage : BootStage
  numVfs : Nat
  retired : List Part
  tap : Nat
  deriving DecidableEq, Repr

/-- Right after reset release with power in order (Table 20-2, tr). Log: 7 (DEDUCED); 157 (PRESUMED). -/
def BootSt.init : BootSt := ⟨true, true, true, true, 0, .rom 0, 0, [], 1⟩

/-- Power, cooling and Recess beyond their registers: which rule of R548 and R555 stepped down last (1 and 2); headroom checks in
a row; a supply ramp for a step up in progress (R544); a die has reached 105 °C and not all are back at 103 °C (R555); the
conditions of Table 19-4 that cap power; LOAD_ADV's pre-ramp as rise, start and target (R552); the profile of natural draw
of the last Round by bin, what the present Round gathers, its Round and epoch (R550); the loop's integral (FP32 code, R556);
temperatures as FP32 codes (R613); edges of the flow inputs with their instants (R612); the flow mismatch, inlet and
outlet faults in force; and a wake event that waits for Recess (R563). Log: 142 (DEDUCED). -/
structure PwrSt where
  downBy : Nat
  calm : Nat
  ramp : Bool
  hot : Bool
  causes : List Nat
  adv : Option (Nat × Nat × Nat)
  profile : List (Nat × Nat)
  bins : List (Nat × (Nat × Nat))
  round : Nat
  epoch : Nat
  integ : Nat
  temps : List Nat
  edges : List (Nat × Nat)
  mismatch : Bool
  inletFault : Bool
  outletFault : Bool
  wakeWait : Bool
  deriving DecidableEq, Repr

/-- No profile, no condition in force. Log: 159 (DESIGN CHOICE). -/
def PwrSt.init : PwrSt := ⟨0, 0, false, false, [], none, [], [], 0, 0, 0, [0, 0, 0, 0], [], false, false, false, false⟩

/-- What the ageing sensors read (Table 18-9): minutes of powered time so far; of each Spindle the least slack in 0.25 ps and the
sensitivity in 0.1 ps per step; leakage by die; SNR margin by lane. Log: 4 (DESIGN CHOICE). -/
structure AgeSample where
  minutes : Nat
  spx : List (Nat × Nat × Nat)
  leak : List (Nat × Nat)
  snr : List (Nat × Nat)
  deriving DecidableEq, Repr

/-- What a Term end measures (R534 to R536): by FCLK step and Spindle the least slack in 0.25 ps and the sensitivity in 0.1 ps per
step; the Spindles that fail their self-test; the lanes whose SNR margin stayed below the floor. Log: 4 (DESIGN CHOICE). -/
structure TermSample where
  plan : List (Nat × Nat × Nat × Nat)
  fails : List Nat
  lanes : List Nat
  deriving DecidableEq, Repr

/-- What a boot stage finds (Table 20-2): memory channels that fail their training; of each port that trained badly, the lanes
that failed; units that fail their self-test. Log: 4 (DESIGN CHOICE). -/
structure BootSample where
  channels : List Nat
  lanes : List (Nat × Nat)
  fails : List Part
  deriving DecidableEq, Repr

/-- What a draw interval measures (R551), in W: the mean of the last 10 µs, the natural draw, and the fill that is available;
and the device's estimate of its fill in that mean. Log: 4 (DESIGN CHOICE). -/
structure DrawSample where
  mean : Nat
  natural : Nat
  fill : Nat
  filled : Nat
  deriving DecidableEq, Repr

/-- Who made a memory request: a Reel under one of its tags, a DMA channel, or another engine. -/
inductive Owner where
  | reel (i tag : Nat)
  | dma (ch : Nat)
  | other
  deriving DecidableEq, Repr

/-- Where a memory request stands: waiting for tokens (R322), in its channel's hold queue or returned from a full one
(R332), a write behind earlier requests of its Room at the channel (R324), in flight, or ended with its code (0 when it was
performed). -/
inductive ReqPhase where
  | tokens
  | held
  | retry
  | queued
  | flight
  | ended (code : Nat)
  deriving DecidableEq, Repr

/-- A memory request; `room` is none for the physical function's own channels. -/
structure MemReq where
  id : Nat
  owner : Owner
  room : Option Nat
  write : Bool
  addr : Nat
  len : Nat
  data : List (BitVec 8)
  /-- the poisoned ranges of its data: first byte and length (R328) -/
  bad : List (Nat × Nat)
  phase : ReqPhase
  /-- the place in the order of arrival at the channels (R324), 0 before it -/
  arr : Nat
  deriving DecidableEq, Repr

/-- A migration in progress (R338): the channel that retires, the extents that it needs copied, and those of them not yet
copied, in the order of the copy, each with the channel that it moves to. An extent is named by 65,536 × channel + extent. -/
structure Migration where
  chan : Nat
  need : Nat
  todo : List (Nat × Nat)
  deriving DecidableEq, Repr

/-- The work that pays for its memory traffic bit by bit (R322): a sample or an entry of a command, a packing unit, a frame of a
stream, a tokenizer table, the write-back of a DMA channel, a contribution or a parameter chunk by its source and number, a pass of a
Room's UPDATE command. -/
inductive Payer where
  | sample (cmd entry : Nat)
  | entry (cmd entry : Nat)
  | pack (unit : Nat)
  | frame (cmd : Nat)
  | table (slot : Nat)
  | dma (ch : Nat)
  | add (src id : Nat)
  | param (src id : Nat)
  | pass (room : Nat)
  deriving DecidableEq, Repr

/-- What a piece of work has still to pay before its transfers have issued: bytes of its Room's balance in each tier (R322). -/
structure Due where
  payer : Payer
  room : Nat
  ft : Nat
  ct : Nat
  deriving DecidableEq, Repr

/-- The memory tiers beyond their registers and contents. -/
structure MemSt where
  /-- regulator balances in tenths of a byte, by 2 × Room + tier (R321) -/
  bal : List (Nat × Int)
  nextReq : Nat
  reqs : List MemReq
  /-- requests that have arrived at channels so far (R324) -/
  arrivals : Nat
  /-- ranges of extents (first, end) that read as poison where no sector write has come since (R333, R335, R340) -/
  bad : List (Nat × Nat)
  /-- sectors of those extents written whole since -/
  cleaned : List Nat
  /-- extents that have moved to another channel, and that channel (R338) -/
  redir : List (Nat × Nat)
  mig : Option Migration
  /-- sectors written whole during the migration in progress: both places hold them (R338) -/
  both : List Nat
  /-- DEAD channels (R333, R342) -/
  dead : List Nat
  /-- retrainings with their start (R334) -/
  trains : List (Nat × Nat)
  /-- channels that need a retraining (R331) -/
  trainWait : List Nat
  /-- state that a retraining channel returns to -/
  prior : List (Nat × Nat)
  /-- corrected words by channel since its last retraining was due: instant and count (R331) -/
  ceNow : List (Nat × List (Nat × Nat))
  /-- retirements that wait for a migration to end (R338) -/
  retireQ : List Nat
  /-- what work in progress has still to pay (R322) -/
  dues : List Due
  /-- the DMA channel that a mover served last, by level (R373) -/
  movers : List Nat
  deriving DecidableEq, Repr

/-- Every channel in service, no request. -/
def MemSt.init : MemSt where
  bal := []
  nextReq := 0
  reqs := []
  arrivals := 0
  bad := []
  cleaned := []
  redir := []
  mig := none
  both := []
  dead := []
  trains := []
  trainWait := []
  prior := []
  ceNow := []
  retireQ := []
  dues := []
  movers := [0, 0, 0, 0]

/-- A DMA channel between its steps: the descriptor it works on, its row and offset within the row, the status so far, the
device read and the device write that wait, what its staging buffer keeps of a host read while other channels have the movers
(R373), and the DMA_START command it serves with the descriptors completed under it. -/
structure DmaSt where
  desc : Option (List (BitVec 8))
  row : Nat
  off : Nat
  status : Nat
  read : Option Nat
  hostWait : Bool
  stage : Option (List (BitVec 8))
  write : Option Nat
  cmd : Option Nat
  done : Nat
  deriving DecidableEq, Repr

/-- An idle channel. -/
def DmaSt.init : DmaSt := ⟨none, 0, 0, 0, none, false, none, none, none, 0⟩

/-- How a host access that the device made ended: with data, with a PCIe error, or poisoned.
Log: 4 (DESIGN CHOICE); 92 (DEDUCED). -/
inductive HostEnd where
  | ok
  | bus
  | poison
  deriving DecidableEq, Repr

/-- A Skein table slot (R300): its 128 bytes, and the address latched by a load in progress. -/
structure SlotSt where
  table : List (BitVec 8)
  addr : Nat
  deriving DecidableEq, Repr

/-- An empty slot. -/
def SlotSt.init : SlotSt := ⟨[], 0⟩

/-- How a Reel's request reaches its target: a memory request, or a message to another device. -/
inductive TagVia where
  | mem (req : Nat)
  | remote (id : Nat)
  deriving DecidableEq, Repr

/-- A tag that a Reel holds (R348, R369): `off` is the offset of its bytes within the unit's buffer, within its block's stored
bytes for a Skein stream, whose block is `row`, or within a gather's index list, whose reads `index` marks. -/
structure ReelTag where
  tag : Nat
  write : Bool
  gen : Nat
  stream : Nat
  unit : Nat
  row : Nat
  off : Nat
  len : Nat
  addr : Nat
  index : Bool
  via : TagVia
  deriving DecidableEq, Repr

/-- A Skein block in a Reel (R304, R305): whether it is written, the row it is, its address, the slot it references, its stored size (0 until the
header has been checked), the bytes requested so far, the stored bytes that have come or are to be written by offset, and
their poisoned ranges (R306). A block that is read may reference no slot (R301). -/
structure SkBlock where
  write : Bool
  stream : Nat
  row : Nat
  addr : Nat
  slot : Option Nat
  size : Nat
  asked : Nat
  pieces : List (Nat × List (BitVec 8))
  bad : List (Nat × Nat)
  deriving DecidableEq, Repr

/-- One stream of a Reel (R354, R359): whether it brings data in; the next unit, row and byte to be issued; bytes that have
arrived, or writes acknowledged, by unit; the units waited on by the microsequence; the unit below which every unit counts as
acknowledged (R370); the units whose release has passed to the Reel (R361); the bytes of the index list that have come and are
not used up, by offset, and the offset of the next to be asked for (R357); where the row before ended (R364); the pieces of
units in panel form; and where a Substitute's probe of its present unit stands (R423): 0 not sent, 1 sent, 2 needed. -/
structure StreamSt where
  read : Bool
  unit : Nat
  row : Nat
  off : Nat
  got : List (Nat × Nat)
  waited : Nat
  floor : Nat
  passed : Nat
  index : List (Nat × BitVec 8)
  idxNext : Nat
  lastEnd : Option Nat
  pieces : List (Nat × Nat × List (BitVec 8))
  probe : Nat
  deriving DecidableEq, Repr

/-- A stream with empty buffers that starts at a unit (R362, R370). -/
def StreamSt.start (read : Bool) (u : Nat) : StreamSt := ⟨read, u, 0, 0, [], u, u, u, [], 0, none, [], 0⟩

/-- A Reel: its streams, the tags held, the turns left to each class (R350), the releases that wait for earlier tiles
(stream, unit and number of tiles issued before, R361), and the blocks in its decoder and encoder. -/
structure ReelSt where
  streams : List StreamSt
  tags : List ReelTag
  turns : List Nat
  pend : List (Nat × Nat × Nat)
  blocks : List SkBlock
  deriving DecidableEq, Repr

/-- An idle Reel. -/
def ReelSt.init : ReelSt := ⟨[], [], [0, 0, 0], [], []⟩

/-- A Kaluf flit: the fields of Table 13-2 that its sender fixes, and its payload; `via` is the port whose receive buffer it
leaves when it is forwarded, `ask` the number of the remote message that it ends (R399). -/
structure Flit where
  typ : Nat
  cls : Nat
  vl : Nat
  last : Bool
  seq : Nat
  dst : Nat
  poison : Bool
  src : Nat
  hops : Nat
  body : List (BitVec 8)
  via : Option Nat
  ask : Option Nat
  deriving DecidableEq, Repr

/-- A flit that the replay buffer keeps (R389): its SEQ, and the 256 bytes that were sent. -/
structure KeptFlit where
  seq : Nat
  bytes : List (BitVec 8)
  deriving DecidableEq, Repr

/-- A Kaluf port beyond its registers: sequence numbers (R389), the replay buffer and the flits that wait, oldest first;
credits used at the far end and owed to it, keyed 2 × class + lane, 8 for the control reserve (R392); the place in the
round-robin (R391); the SEQ last NAKed with its run, the instant of the last acknowledgment (R390); losses of lock by lane
(R393); the lane being retired, and the lanes to retire when a retraining ends. -/
structure PortSt where
  txSeq : Nat
  rxSeq : Nat
  nakSent : Bool
  replay : List KeptFlit
  waitq : List Flit
  used : List (Nat × Nat)
  owed : List (Nat × Nat)
  turn : Nat
  nakSeq : Option Nat
  nakRun : Nat
  ackTime : Nat
  losses : List (Nat × Nat)
  retiring : Option Nat
  failing : List Nat
  deriving DecidableEq, Repr

/-- A port that has carried nothing. -/
def PortSt.init : PortSt := ⟨0, 0, false, [], [], [], [], 0, none, 0, 0, [], none, []⟩

/-- Who waits for the answer to a remote message: a Reel under one of its tags, or an UPDATE command's broadcast (R442). -/
inductive RemoteOwner where
  | reel (i tag : Nat)
  | update (room : Nat)
  deriving DecidableEq, Repr

/-- A remote message that has not been answered (R399), with the instant at which its last flit was sent; none while it waits at its
port. -/
structure Remote where
  id : Nat
  owner : RemoteOwner
  dev : Nat
  time : Option Nat
  deriving DecidableEq, Repr

/-- A sample that an engine holds, or that waits in the straggler queue of its kind (R448, R465): its command and entry, the
engine that holds it, whether it was deferred, and the first damage once concealed (offset and unit). -/
structure Sample where
  cmd : Nat
  entry : Nat
  engine : Option Nat
  deferred : Bool
  concealed : Option (Nat × Nat)
  deriving DecidableEq, Repr

/-- How an entry of a decode list or a PREP list ended: whether it is usable (R466, R485), and its work cycles. -/
structure EntryEnd where
  entry : Nat
  usable : Bool
  work : Nat
  deriving DecidableEq, Repr

/-- A running decode command: its kind (0 image, 1 video, 2 audio, 3 text), its budget base, the next entry to be started,
and the entries that have ended. -/
structure DecJob where
  cmd : Nat
  kind : Nat
  base : Nat
  next : Nat
  ended : List EntryEnd
  deriving DecidableEq, Repr

/-- A running PREP command: its candidates in order, the next of them, and those that have ended. -/
structure PrepJob where
  cmd : Nat
  cands : List Nat
  next : Nat
  ended : List EntryEnd
  deriving DecidableEq, Repr

/-- A geometry unit with the entry it holds: its command and entry, whether it is live, and its age in µs when taken. -/
structure GeoUnit where
  unit : Nat
  cmd : Nat
  entry : Nat
  live : Bool
  age : Nat
  deriving DecidableEq, Repr

/-- How a PACK entry ended (Table 16-6): STATUS, FLAGS, row, offset, tokens placed. -/
structure PackEnd where
  status : Nat
  flags : Nat
  a : Nat
  b : Nat
  c : Nat
  deriving DecidableEq, Repr

/-- A packing unit with its command: how each entry ended, the tokens used by row, and the samples placed. -/
structure PackJob where
  unit : Nat
  cmd : Nat
  ends : List PackEnd
  used : List Nat
  placed : Nat
  deriving DecidableEq, Repr

/-- The media dies' decoders, tokenizers, geometry and packing units: their commands and samples, the command served last by
engine kind and level, and the tables latched by slot. -/
structure MedSt where
  jobs : List DecJob
  samples : List Sample
  rr : List (Nat × Nat)
  tokAddr : List (Nat × Nat)
  preps : List PrepJob
  geo : List GeoUnit
  packs : List PackJob
  deriving DecidableEq, Repr

/-- No command, no sample. -/
def MedSt.init : MedSt := ⟨[], [], [], [], [], [], []⟩

/-- Where a frame in an encoder stands: at a block-row boundary, waiting for its next row (R503); within a row; a chunk to be
written (R501), or waiting for ring space (R502), and whether that chunk is the frame's filler (R511). -/
inductive EncPhase where
  | rows
  | coding
  | chunk (filler : Bool)
  | ring (filler : Bool)
  deriving DecidableEq, Repr

/-- An open stream (R497): its Room, context address and ENC_OPEN ARGS; the privileged window it is bound to; what coding has
made of its inputs so far, as one number whose meaning `Config` leaves open; frames so far, frames since the last key frame,
and whether the next is a key frame; the occupancy A (FP32 code), QP_LAST and b of the last frame; bytes emitted.
Log: 124 (DESIGN CHOICE). -/
structure EncStream where
  room : Nat
  ctx : Nat
  words : List Nat
  window : Option Nat
  hist : Nat
  frames : Nat
  sinceKey : Nat
  needKey : Bool
  occ : Nat
  lastQp : Nat
  lastBits : Nat
  written : Nat
  deriving DecidableEq, Repr

/-- A frame of a stream (R499): its command, stream, engine, and whether it has been taken; then what coding has reached: block
rows done, bits used in the frame, in the chunk in progress and in the chunks emitted, the first forced skip met, forced skips,
filler bytes, QP now and at the start, T and whether QP_MAX was reached, chunks emitted, bytes of the chunk that waits, and
the instant since when it waits. -/
structure EncFrame where
  cmd : Nat
  room : Nat
  ctx : Nat
  engine : Option Nat
  begun : Bool
  key : Bool
  hist : Nat
  row : Nat
  bits : Nat
  chunkBits : Nat
  emitted : Nat
  forced : Bool
  skips : Nat
  filler : Nat
  qp : Nat
  qpFirst : Nat
  target : FVal
  capped : Bool
  chunks : Nat
  phase : EncPhase
  since : Nat
  deriving DecidableEq, Repr

/-- The video encoders: open streams and queued frames, oldest first. -/
structure VcSt where
  streams : List EncStream
  frames : List EncFrame
  deriving DecidableEq, Repr

/-- No stream open. -/
def VcSt.init : VcSt := ⟨[], []⟩

/-- One entry of a Roll-call record (R410): a fingerprint's bytes 0 to 39, a count of devices and the lowest among them. -/
structure RcEntry where
  fp : List (BitVec 8)
  n : Nat
  low : Nat
  deriving DecidableEq, Repr

/-- A Roll-call record (R410). -/
structure RcRecord where
  entries : List RcEntry
  beyond : Bool
  absent : Nat
  absentLow : Nat
  deriving DecidableEq, Repr

/-- A Roll-call verdict (R411): 1 AGREE or 2 FENCE, the DIFF bits, OVER, the dissenter where there is one, and the reference's
lowest device and the two counts. -/
structure Verdict where
  verdict : Nat
  diff : Nat
  beyond : Bool
  dissent : Option Nat
  refLow : Nat
  refN : Nat
  disN : Nat
  deriving DecidableEq, Repr

/-- Roll call of a Room: the two bases once latched (R407), the step in collection with its record, the ports whose
children have reported and whether the record has gone up, records for the next step that have come early by port, the verdict
of each step (0 none), and the start of the Round of each step. -/
structure RcSt where
  bases : Option (Nat × Nat)
  step : Nat
  record : RcRecord
  reported : List Nat
  sent : Bool
  early : List (Nat × RcRecord)
  verdicts : List (Nat × Nat)
  rounds : List (Nat × Nat)
  deriving DecidableEq, Repr

/-- A record of nothing; of no absent device the lowest is the highest ID. -/
def RcRecord.empty : RcRecord := ⟨[], false, 0, 0x7FFF⟩

/-- No Roll call. -/
def RcSt.init : RcSt := ⟨none, 0, RcRecord.empty, [], true, [], [], []⟩

/-- The time machinery (R400 to R403): the fraction of TIME_NOW in units of 2.5 × 10^-9 ns, the rate correction in parts
per 10^9, the offset still to be slewed in the same units, the target of the next PPS edge, edges missed in a row, good
measurements in a row, exchanges lost in a row, and whether an exchange awaits its answer. -/
structure TimeSt where
  frac : Nat
  rate : Int
  slew : Int
  target : Option Nat
  missed : Nat
  good : Nat
  lost : Nat
  asked : Bool
  deriving DecidableEq, Repr

/-- No correction. -/
def TimeSt.init : TimeSt := ⟨0, 0, 0, none, 0, 0, 0, false⟩

/-- One entry of a tally record (Table 14-10): NSQ, LOST, AMAX as an FP32 code, OVF_M. -/
structure TallyEntry where
  nsq : Nat
  lost : Nat
  amax : Nat
  ovf : Nat
  deriving DecidableEq, Repr

/-- A tally record (Table 14-10): FLAGS, N_DEV and one entry per update group. -/
structure TallyRec where
  flags : Nat
  nDev : Nat
  entries : List TallyEntry
  deriving DecidableEq, Repr

/-- Where an UPDATE command stands (Table 14-12): it waits for the verdict, for contributions, for the end of pass 1, for
the tally result, for the end of pass 2, or for the answers to its messages. -/
inductive UpdStage where
  | verdict
  | collect
  | pass1
  | tally
  | pass2
  | params
  deriving DecidableEq, Repr

/-- What pass 2 takes of an update group as it begins (R436, R438): the scale code of the step, the carrier's F, and LR, WD and
GMUL as FP32 codes. -/
structure GroupCoef where
  scale : Nat
  f : Nat
  lr : Nat
  wd : Nat
  gmul : Nat
  deriving DecidableEq, Repr

/-- A running UPDATE command: its step, its own tally flags, the clip factor and the groups' coefficients once latched at step
8, the PARAM messages that have not been answered, and the lowest failing code so far. -/
structure UpdSt where
  cmd : Nat
  step : Nat
  stage : UpdStage
  flags : Nat
  cf : Nat
  coefs : List GroupCoef
  waits : List Nat
  code : Nat
  deriving DecidableEq, Repr

/-- Reduction in a Room (R425, R434): by parity, the step for which a bank is open and the step for which it was closed; the
tally in collection with its step, the ports whose children's records have come, whether this device's own record is in it
and whether it has gone up; the running UPDATE; and the outcome of each step that will bring no parameters. -/
structure RedSt where
  opened : List (Nat × Option Nat)
  closed : List (Nat × Option Nat)
  tallyStep : Option Nat
  tally : TallyRec
  children : List Nat
  own : Bool
  sent : Bool
  upd : Option UpdSt
  outcomes : List (Nat × Nat)
  deriving DecidableEq, Repr

/-- No bank open, no step under way. -/
def RedSt.init : RedSt := ⟨[], [], none, ⟨0, 0, []⟩, [], false, false, none, []⟩

/-- The Kaluf Link beyond its registers: ports, unanswered remote messages, the port that each message in transit takes
(R396), the BELL_SEQ sent and accepted (R405, R406), and timed Bells that wait for their instants. -/
structure KlSt where
  ports : List (Nat × PortSt)
  remotes : List Remote
  nextRemote : Nat
  paths : List (Nat × Nat)
  bellTx : Nat
  bellRx : Option Nat
  bells : List Nat
  /-- the boundary for which the master has sent its Bell -/
  bellSent : Option Nat
  time : TimeSt
  rc : List (Nat × RcSt)
  deriving DecidableEq, Repr

/-- The last flit of a remote message has been sent, or lost before it was (R398, R399). -/
def KlSt.sent (x : KlSt) (id now : Nat) : KlSt :=
  { x with remotes := x.remotes.map fun q => if q.id = id then { q with time := some now } else q }

/-- Nothing sent. -/
def KlSt.init : KlSt := ⟨[], [], 0, [], 0, none, [], none, TimeSt.init, []⟩

end Sys2Proof.Machine
end

