-- ==== Sys2Proof/Syntax.lean ====
section
/-! DEFINITION. The commands of the block: one constructor per row of the opcode table, with what the command carries
from outside (an address, a value, a packet, what a sensor read). `fn` names a PCIe function, 0 the physical function and
1 + r virtual function r; `r` a Room; `i` a Spindle's physical index; `id` a fetched command. -/

namespace Sys2Proof

open Sys2Proof.Machine (Part HostEnd NotePacket RcRecord Verdict AgeSample TermSample BootSample DrawSample)

/-- What the code check of a received or read word found. -/
inductive WordError where
  | clean
  | single
  | double
  deriving DecidableEq, Repr

/-- One constructor per row of the opcode table. -/
inductive Instr where
  /-- REGISTER_WRITE (R11): A host write to a register field with no row of its own takes effect according to its access type. -/
  | registerWrite (fn off val : Nat)
  /-- NARROW_ACCESS (R8): A narrower or unaligned register access completes with unsupported-request status and changes nothing. -/
  | narrowAccess (fn off : Nat) (write : Bool)
  /-- RC_READ (R11): A read of an RC field returns its value and then clears it. -/
  | rcRead (fn off : Nat)
  /-- LOW_WORD_READ (R9): A read of the low word of a 64-bit value snapshots all 64 bits for the reading function. -/
  | lowWordRead (fn off : Nat)
  /-- DESK_WINDOW_READ (R74): A host read through the Desk window is served at the lowest bank priority, atomic per 32-bit word. -/
  | deskWindowRead (addr : Nat) (err : WordError)
  /-- DESK_WINDOW_WRITE (R74): A host write through the Desk window is served only to an unbound Spindle or a held Room, and is otherwise discarded and counted. -/
  | deskWindowWrite (addr : Nat) (bytes : List (BitVec 8))
  /-- YARN_WORD_ARRIVE (R52): A Yarn word reaches an input port and is checked, corrected or poisoned. `ce` and `ue`
  number its 32-bit words with a single-bit and a double-bit error. -/
  | yarnWordArrive (i port : Nat) (ce ue : List Nat)
  /-- YARN_CREDIT_RETURN (R53): A credit returns to the output port when a word leaves the receive buffer.
  `ce` and `ue` number the 32-bit words with an error as the word is read from the buffer. -/
  | yarnCreditReturn (i port : Nat) (ce ue : List Nat)
  /-- NOTE_INJECT (R64): An endpoint injects a Note request, or refuses one that breaks the address rules. -/
  | noteInject (i : Nat) (p : NotePacket)
  /-- WRITE (R68): A Note WRITE packet arrives at its destination, which performs it or answers NACK. -/
  | noteWrite (k : Nat) (bad : Bool)
  /-- READ (R68): A Note READ packet arrives and is answered with READ_RESP or NACK. -/
  | noteRead (k : Nat) (bad : Bool)
  /-- ATOMIC (R157): A Note ATOMIC packet performs its fetch-add, swap or compare-and-swap atomically. -/
  | noteAtomic (k : Nat) (bad : Bool)
  /-- SIGNAL (R132): A Note SIGNAL to a service endpoint completes a RUN command or releases a semaphore. -/
  | noteSignal (k : Nat) (bad : Bool)
  /-- ACK (R70): An ACK response arrives and frees its TAG. -/
  | noteAck (k : Nat)
  /-- READ_RESP (R70): A Note READ_RESP arrives with the requested bytes and frees its TAG. -/
  | readResp (k : Nat)
  /-- ATOMIC_RESP (R70): An ATOMIC_RESP arrives with the old value and frees its TAG. -/
  | atomicResp (k : Nat)
  /-- NACK (R365): A NACK arrives and ends the request with 0x0340 plus the reason. -/
  | noteNack (k : Nat)
  /-- NOTE_TIMEOUT (R70): A Note request that is unanswered 10 µs after injection completes with the timeout status. -/
  | noteTimeout (i tag : Nat)
  /-- LOAD (R103): CFG_LOAD with OP LOAD starts loading an image into a Room, or is refused at once. -/
  | cfgLoad (fn r : Nat)
  /-- LOAD_STEP_DONE (R105): A timed step of a load ends and the next step starts. -/
  | loadStepDone
  /-- CANCEL (R106): CFG_LOAD with OP CANCEL requests that a load in progress stop. -/
  | cfgCancel (fn r : Nat)
  /-- CANCEL_POINT (R106): A cancelled load reaches its next cancel point and ends with 0x0161. -/
  | cancelPoint
  /-- UNLOAD_DRAIN (R110): CFG_LOAD with OP UNLOAD_DRAIN lets the current Lesson finish and starts no further Lesson. -/
  | unloadDrain (fn r : Nat)
  /-- UNLOAD_ABORT (R110): CFG_LOAD with OP UNLOAD_ABORT stops the Room's Spindles at the next tile boundary. -/
  | unloadAbort (fn r : Nat)
  /-- CFG_LOAD_RESERVED_OP (R122): GO with a reserved OP completes with 0x0102. -/
  | cfgLoadReservedOp (fn r op : Nat)
  /-- UNLOAD_PROCEED (R111): Once the Room's work has stopped, the device completes the unload and clears and releases everything. -/
  | unloadProceed (r : Nat)
  /-- PLANE_SWITCH (R113): Once the Yarns have drained, the active and standby planes and switch-box banks exchange. -/
  | planeSwitch (r : Nat) (slow : Bool)
  /-- PRELOAD_DONE (R115): A standby preload ends, or fails its checks or reads poison. -/
  | preloadDone (r : Nat)
  /-- DRAIN_TIMEOUT (R116): Yarns not drained 100 µs after a Lesson end put the Room in HELD with 0x0150. -/
  | drainTimeout (r : Nat)
  /-- ROOM_HOLD (R125): ROOM_CTL.HOLD = 1 stops the Room at its next checkpoint or Lesson end. -/
  | roomHold (fn r : Nat)
  /-- ROOM_HOLD_RELEASE (R125): ROOM_CTL.HOLD = 0 returns a host-held Room to LOADED. -/
  | roomHoldRelease (fn r : Nat)
  /-- DOORBELL (R128): A doorbell write sets a queue's tail, or is ignored, or sets ERR with 0x0003. -/
  | doorbell (fn q off tail : Nat)
  /-- QUE_ERR_CLEAR (R128): Clearing QUE_STAT.ERR restarts fetching from QUE_HEAD. -/
  | queErrClear (fn q : Nat)
  /-- PACKET_FETCH (R129): The queue engine fetches and checks a command packet and advances QUE_HEAD. -/
  | packetFetch (host : List (BitVec 8))
  /-- COMMAND_START (R136): When the Spindles are free, the queue engine starts the most urgent admitted command. -/
  | commandStart (r : Nat)
  /-- NOP (R131): The NOP command completes doing nothing. -/
  | cmdNop (id : Nat)
  /-- RUN (R135): A RUN command starts the Room's Spindles on the active variant's microsequence. -/
  | cmdRun (r : Nat)
  /-- SEM_ACQUIRE (R153): SEM_ACQUIRE takes a free semaphore or waits for it. -/
  | semAcquire (id : Nat)
  /-- SEM_RELEASE (R153): SEM_RELEASE frees a held semaphore and grants it to the next waiter. -/
  | semRelease (id : Nat)
  /-- SEM_WAIT_TIMEOUT (R153): TIMEOUT_US elapses and the waiting acquire completes with 0x0021. -/
  | semWaitTimeout (id : Nat)
  /-- SEM_INHERIT_TIMEOUT (R154): A raise ends without release and the waiter completes with 0x0020. -/
  | semInheritTimeout (sem : Nat)
  /-- FORCE_REL (R155): SEM_STATE.FORCE_REL releases the semaphore and sets BROKEN. -/
  | forceRel (fn sem : Nat)
  /-- WAIT_TIME (R131): WAIT_TIME registers a TIME_NOW instant at which it completes. -/
  | waitTime (id : Nat)
  /-- WAIT_TIME_DUE (R131): TIME_NOW reaches the instant of a WAIT_TIME command, which completes. -/
  | waitTimeDue (id : Nat)
  /-- ROUND_BOUNDARY (R137): A new Round starts, counters advance and newly loaded Rooms' Lessons enter. -/
  | roundBoundary
  /-- LESSON_BOUNDARY (R137): A Lesson starts or ends, with variant switch, suspension, pre-emption or save as needed. -/
  | lessonBoundary (r : Nat)
  /-- BELL_IN_EDGE (R141): A rising edge on BELL_IN is captured as the Round boundary, or ignored and counted. -/
  | bellInEdge (width : Nat)
  /-- BELL_WINDOW_END (R141): N + W passes with no Bell, the window is missed and the boundary falls there. -/
  | bellWindowEnd
  /-- SWITCH_STOPPED (R146): Once every Spindle has stopped at the point, the switch quiesces Reels and starts the save. -/
  | switchStopped (r : Nat)
  /-- SAVE_DONE (R148): A save completes and its slot record is committed. -/
  | saveDone (r : Nat)
  /-- RESTORE_DONE (R148): A restore completes, its slot is freed and the incoming command starts. -/
  | restoreDone (r : Nat)
  /-- SCALE_WAIT_EXPIRE (R187): A wait for system-wide scale values expires and the command ends with 0x0203. -/
  | scaleWaitExpire (i : Nat)
  /-- TILE (R256): The TILE instruction issues once the array accepts the tile. -/
  | tile (i : Nat)
  /-- TILE_COMPLETE (R215): A tile finishes in the array, which swaps sets if it drains. -/
  | tileComplete (i stall : Nat) (fault : Bool) (err : Option (Nat × Bool))
  /-- DRAIN_COMPLETE (R211): The shadow set finishes converting and writing its output to the Desk or the Yarns. -/
  | drainComplete (i : Nat) (err : Option (Nat × Bool))
  /-- INT_SCALE_MISMATCH (R207): An INT8 scale row that differs ends the command with 0x0204 mid-tile. -/
  | intScaleMismatch (i : Nat)
  /-- EXPAND_COMPLETE (R231): The expander finishes writing an expanded or REGION panel. -/
  | expandComplete (i : Nat) (err : Option (Nat × Bool))
  /-- MICRO_NOP (R252): The vector NOP instruction does nothing for one cycle. -/
  | microNop (i : Nat)
  /-- END (R252): END ends the RUN command's sequence. -/
  | endSeq (i : Nat)
  /-- LOOP (R254): LOOP opens a loop of AUX + 1 iterations. -/
  | loopOpen (i : Nat)
  /-- ENDLOOP (R254): ENDLOOP closes the innermost open loop. -/
  | endloop (i : Nat)
  /-- WAIT (R256): WAIT blocks issue until its condition holds, or releases a Reel buffer. -/
  | vwait (i : Nat)
  /-- WAIT_SATISFIED (R256): A blocked WAIT's condition comes to hold and issue resumes. -/
  | waitSatisfied (i cycles : Nat)
  /-- CKPT (R257): CKPT does nothing, or stops the Spindle when a stop has been requested. -/
  | ckpt (i : Nat)
  /-- NSIG (R253): NSIG sends a Note SIGNAL from scalar words. -/
  | nsig (i : Nat) (err : Option (Nat × Bool))
  /-- YSEND (R253): YSEND sends Desk words on an output port with a marker. -/
  | ysend (i lost : Nat) (err : Option (Nat × Bool))
  /-- ADD (R246): Vector ADD, rounded once. In this and the rows below, `err` is an
  error met as the instruction reads Spindle storage: its Desk window offset, and whether it is a double-bit one (R42). -/
  | vadd (i : Nat) (err : Option (Nat × Bool))
  /-- SUB (R246): Vector SUB, rounded once. -/
  | vsub (i : Nat) (err : Option (Nat × Bool))
  /-- MUL (R246): Vector MUL, rounded once. -/
  | vmul (i : Nat) (err : Option (Nat × Bool))
  /-- FMA (R246): Vector FMA, rounded once. -/
  | vfma (i : Nat) (err : Option (Nat × Bool))
  /-- MIN (R246): Vector MIN, with −0 below +0. -/
  | vmin (i : Nat) (err : Option (Nat × Bool))
  /-- MAX (R246): Vector MAX, with −0 below +0. -/
  | vmax (i : Nat) (err : Option (Nat × Bool))
  /-- ABS (R253): Vector ABS, exact. -/
  | vabs (i : Nat) (err : Option (Nat × Bool))
  /-- NEG (R253): Vector NEG, exact. -/
  | vneg (i : Nat) (err : Option (Nat × Bool))
  /-- CMPLT (R247): Writes 1 where SA < SB. -/
  | vcmplt (i : Nat) (err : Option (Nat × Bool))
  /-- CMPEQ (R247): Writes 1 where SA equals SB. -/
  | vcmpeq (i : Nat) (err : Option (Nat × Bool))
  /-- SEL (R247): Selects SA where SC is nonzero and SB elsewhere. -/
  | vsel (i : Nat) (err : Option (Nat × Bool))
  /-- FNMA (R246): Vector −(SA × SB) + SC, rounded once. -/
  | vfnma (i : Nat) (err : Option (Nat × Bool))
  /-- CVT (R617): Converts a line between lane types and formats. -/
  | vcvt (i : Nat) (err : Option (Nat × Bool))
  /-- AND (R247): INT32 AND. -/
  | vand (i : Nat) (err : Option (Nat × Bool))
  /-- OR (R247): INT32 OR. -/
  | vor (i : Nat) (err : Option (Nat × Bool))
  /-- XOR (R247): INT32 XOR. -/
  | vxor (i : Nat) (err : Option (Nat × Bool))
  /-- SHL (R247): INT32 shift left. -/
  | vshl (i : Nat) (err : Option (Nat × Bool))
  /-- SHR (R247): INT32 logical shift right. -/
  | vshr (i : Nat) (err : Option (Nat × Bool))
  /-- IDX (R253): Lane l receives l + S[SA]. -/
  | idx (i : Nat) (err : Option (Nat × Bool))
  /-- RCP (R262): Reciprocal within 1 ulp. -/
  | rcp (i : Nat) (err : Option (Nat × Bool))
  /-- SQRT (R262): Square root, correctly rounded. -/
  | vsqrt (i : Nat) (err : Option (Nat × Bool))
  /-- RSQRT (R262): Reciprocal square root within 1 ulp. -/
  | rsqrt (i : Nat) (err : Option (Nat × Bool))
  /-- EXP (R262): e^x within 2 ulp. -/
  | vexp (i : Nat) (err : Option (Nat × Bool))
  /-- EXP2 (R262): 2^x within 1 ulp. -/
  | exp2 (i : Nat) (err : Option (Nat × Bool))
  /-- LOG (R262): ln x within 2 ulp. -/
  | vlog (i : Nat) (err : Option (Nat × Bool))
  /-- LOG2 (R262): log2 x within 2 ulp. -/
  | log2 (i : Nat) (err : Option (Nat × Bool))
  /-- TANH (R262): tanh x within 2 ulp. -/
  | tanh (i : Nat) (err : Option (Nat × Bool))
  /-- SIGM (R262): Logistic sigmoid within 2 ulp. -/
  | sigm (i : Nat) (err : Option (Nat × Bool))
  /-- ERF (R262): erf x within 3 ulp. -/
  | erf (i : Nat) (err : Option (Nat × Bool))
  /-- SIN (R262): sin x within 2 ulp, or NaN beyond 65,536. -/
  | vsin (i : Nat) (err : Option (Nat × Bool))
  /-- COS (R262): cos x within 2 ulp, or NaN beyond 65,536. -/
  | vcos (i : Nat) (err : Option (Nat × Bool))
  /-- RSUM (R260): Fixed-tree sum of 256 lanes. -/
  | rsum (i : Nat) (err : Option (Nat × Bool))
  /-- RMAX (R260): Fixed-tree maximum of 256 lanes. -/
  | rmax (i : Nat) (err : Option (Nat × Bool))
  /-- RMIN (R260): Fixed-tree minimum of 256 lanes. -/
  | rmin (i : Nat) (err : Option (Nat × Bool))
  /-- LD (R617): Loads lines from the Desk into the Bobbin with conversion. -/
  | vld (i lost : Nat) (err : Option (Nat × Bool))
  /-- ST (R617): Stores Bobbin lines to the Desk with conversion and scales. -/
  | vst (i lost : Nat) (err : Option (Nat × Bool))
  /-- ACCRD (R258): Copies two accumulator rows of the shadow set into a line. -/
  | accrd (i : Nat) (err : Option (Nat × Bool))
  /-- PLANE_FAULT (R518): A double-bit error in a configuration plane aborts with 0x0B02 and the plane is rewritten.
  Not `double`: a single-bit error, which is corrected and counted (R42). -/
  | planeFault (i : Nat) (double rereadFails : Bool)
  /-- IN_PLACE_TEST (R519): The Ryusen controller tests a failing word with two patterns and classifies the fault. -/
  | inPlaceTest (addr : Nat) (fails : Bool)
  /-- STRIKE_LAPSE (R520): A strike older than WIN_S lapses. -/
  | strikeLapse (p : Part)
  /-- SPARE_SUBSTITUTION (R49): The Ryusen controller holds the Room, loads a spare, re-lays Yarns, updates SPX registers and releases the Room. -/
  | spareSubstitution
  /-- FLT_SPX_RETIRE (R523): FLT_SPX_CTL.RETIRE starts a preventive retirement of a Spindle. -/
  | fltSpxRetire (fn i : Nat)
  /-- PREVENTIVE_HOLD (R523): The Room stops at its next checkpoint and the state copy to the spare begins. -/
  | preventiveHold (i : Nat)
  /-- STATE_COPY_DONE (R523): The state copy ends, Yarns are re-laid, SPX registers updated and the Room resumes. -/
  | stateCopyDone
  /-- ENGINE_FAULT (R518): An uncorrectable word in an engine ends its sample, entry or frame with 0x0B10 and strikes it. -/
  | engineFault (k at' : Nat)
  /-- MESH_CRC_ERROR (R518): A Nimos link CRC error is replayed and counted, or makes the device FATAL if it persists. -/
  | meshCrcError (tile link replays : Nat) (lockLost : Bool)
  /-- WATCHDOG_EXPIRE (R528): Unserviced firmware for 20 ms restarts the Ryusen controller. -/
  | watchdogExpire
  /-- WATCHDOG_RESTART_DONE (R528): The controller restart ends and deferred work is carried out in order. -/
  | watchdogRestartDone
  /-- TABLE_LOAD (R300): SKN_TABLE_SLOT.GO starts loading a Skein table into a slot, or is refused. -/
  | tableLoad (fn r slot : Nat)
  /-- TABLE_LOAD_END (R300): A Skein table load ends, setting LOAD_DONE or LOAD_FAIL. -/
  | tableLoadEnd (r slot : Nat)
  /-- SLOT_CLOSE (R301): SKN_TABLE_SLOT.CLOSE makes Reels hold, or release, blocks that name the slot. -/
  | slotClose (fn r slot : Nat) (close : Bool)
  /-- SKEIN_BLOCK_DECODE (R306): A Skein block header arrives and the block is checked and decoded. -/
  | skeinBlockDecode (i stream : Nat)
  /-- REFILL (R321): Every microsecond each Room's regulators receive their refill. -/
  | refill
  /-- MEM_REQUEST_ISSUE (R322): A memory request is checked against the windows and issued when its balance is positive. -/
  | memRequestIssue (id : Nat)
  /-- MEM_READ_RETURN (R326): A read completes with word correction, CRC check and poison marking. The read of a request, or (none)
  one that an engine makes in the course of its own command. `link` are the channels on which a transfer failed its link check 4
  times in a row, `ce` the corrected words by channel, `ue` the uncorrectable sectors with their kind. -/
  | memReadReturn (id : Option Nat) (link : List Nat) (ce ue : List (Nat × Nat))
  /-- RETRAIN_START (R331): A channel begins retraining and holds new requests. -/
  | retrainStart (ch : Nat)
  /-- RETRAIN_END (R331): A retraining ends PASS, MARGINAL or FAIL and held requests issue. -/
  | retrainEnd (ch result : Nat)
  /-- HOLD_RETRY (R332): A request returned from a full hold queue is issued again 1 µs later. -/
  | holdRetry (id : Nat)
  /-- SCRUB_READ (R330): The patrol scrub reads and corrects a sector on schedule. -/
  | scrubRead (sector ce : Nat) (ue : Option Nat) (progress : Nat)
  /-- CHAN_RETIRE (R334): MEM_CHAN_CTL.RETIRE requests that a fast-tier channel be retired. -/
  | chanRetire (fn ch : Nat)
  /-- CHAN_RETRAIN (R331): MEM_CHAN_CTL.RETRAIN requests that a channel be retrained. -/
  | chanRetrain (fn ch : Nat)
  /-- EXTENT_COPY_DONE (R338): An extent finishes copying and is redirected, ending the migration after the last one. -/
  | extentCopyDone (bad : List Nat)
  /-- MEM_WINDOW_WRITE (R316): A window register write applies only while the Room is EMPTY and valid, and otherwise sets WIN_EV. -/
  | memWindowWrite (fn off val : Nat)
  /-- REEL_REQUEST_ISSUE (R347): A Reel issues a read, write, remote or Note request for its streams. -/
  | reelRequestIssue (i pick : Nat)
  /-- REEL_READ_RETURN (R369): A Reel read returns into its buffer, or is discarded as stale. -/
  | reelReadReturn (i tag : Nat)
  /-- REEL_WRITE_ACK (R348): A write acknowledgment frees its tag. -/
  | reelWriteAck (i tag : Nat)
  /-- QUIESCE_DONE (R368): A Reel finishes quiescing, its writes issued and its state block written. -/
  | quiesceDone (i : Nat)
  /-- DMA_GO (R375): DMA_CH_CTL.GO starts or resumes a channel at DMA_CH_NEXT. -/
  | dmaGo (fn ch : Nat)
  /-- DMA_STOP (R377): DMA_CH_CTL.STOP stops the channel at the next descriptor boundary. -/
  | dmaStop (fn ch : Nat)
  /-- DMA_ABANDON (R378): DMA_CH_CTL.ABANDON returns a halted channel to IDLE. -/
  | dmaAbandon (fn ch : Nat)
  /-- DMA_ASSIGN (R372): A write of ROOM_EN and ROOM assigns a channel, when allowed. -/
  | dmaAssign (fn ch val : Nat)
  /-- DESCRIPTOR_FETCH (R375): A fetched descriptor is acted on: idle, invalid halt or move. -/
  | descriptorFetch (ch : Nat) (host : List (BitVec 8)) (how : HostEnd)
  /-- DMA_READ_COMPLETE (R616): A channel's request read completes and its write is issued, or the channel halts. -/
  | dmaReadComplete (ch : Nat) (host : List (BitVec 8)) (how : HostEnd)
  /-- DMA_START (R380): The DMA_START command sets a channel's level and starts it. -/
  | dmaStart (id : Nat)
  /-- IDLE_FLIT (R388): An IDLE flit carries acknowledgments and credits. -/
  | idleFlit (p : Nat) (bytes : Option (List (BitVec 8)))
  /-- FLIT_RECEIVE (R389): A received flit is accepted in sequence or discarded with a NAK. -/
  | flitReceive (p : Nat) (bytes : List (BitVec 8))
  /-- LINK_CTL_NAK (R389): A NAK makes the transmitter resend from the named SEQ. -/
  | linkCtlNak (p seq : Nat)
  /-- LINK_CTL_LANE_RETIRE (R393): The two ends agree on the retirement of a lane. -/
  | linkCtlLaneRetire (p l : Nat)
  /-- LINK_CTL_RETRAIN (R390): The two ends coordinate a port retraining. -/
  | linkCtlRetrain (p : Nat)
  /-- LINK_CTL_WAKE (R563): A WAKE arriving on an awake lane wakes a device from Recess. -/
  | linkCtlWake (p : Nat)
  /-- ACK_TIMEOUT (R390): No acknowledgment for 20 µs starts a port retraining. -/
  | ackTimeout (p : Nat)
  /-- PORT_RETRAIN (R390): KL_PORT_CTL.RETRAIN retrains a port. -/
  | portRetrain (fn p : Nat)
  /-- PORT_RETRAIN_DONE (R390): A retraining ends and replay resumes, or the port goes DOWN. -/
  | portRetrainDone (p : Nat) (ok : Bool) (failed : List Nat) (nbrDev nbrPort : Nat)
  /-- LANE_RETIRE (R393): KL_PORT_CTL.RETIRE retires a lane. -/
  | laneRetire (fn p : Nat)
  /-- LANE_RATE_CHECK (R393): The per-second FEC and lock-loss counts retire a lane past their thresholds. -/
  | laneRateCheck (p l ce ue : Nat)
  /-- LANE_LOSS_OF_LOCK (R393): A lane loses lock and the loss is counted. -/
  | laneLossOfLock (p l : Nat)
  /-- LANE_RESTRIPE_DONE (R393): Re-striping onto 3 lanes ends and traffic resumes. -/
  | laneRestripeDone (p : Nat)
  /-- PORT_ENABLE (R395): KL_PORT_CTL.EN enables a port, exchanges IDs and restarts training after DOWN. -/
  | portEnable (fn p : Nat) (en : Bool)
  /-- DEV_ID_WRITE (R395): KL_DEV_ID is written only while every port is disabled. -/
  | devIdWrite (fn val : Nat)
  /-- REMOTE_WRITE (R399): A REMOTE_WRITE message is checked and performed at the far device. -/
  | remoteWrite (src cls job id addr : Nat) (data : List (BitVec 8)) (poisoned : Bool)
  /-- REMOTE_READ (R399): A REMOTE_READ message is checked and answered with READ_RESP. -/
  | remoteRead (src cls job id addr len : Nat)
  /-- KL_READ_RESP (R399): A Kaluf READ_RESP returns remote read data. -/
  | klReadResp (id code : Nat) (data : List (BitVec 8))
  /-- COMPLETION (R399): A COMPLETION answers a remote message with a code and a STATE. -/
  | completion (id code state : Nat)
  /-- REMOTE_TIMEOUT (R399): No answer within 1,000 µs ends the stream with 0x0321. -/
  | remoteTimeout (id : Nat)
  /-- PPS_EDGE (R401): A PPS edge corrects TIME_NOW, or is ignored as too far off. -/
  | ppsEdge (width : Nat)
  /-- PPS_MISS (R401): A missed PPS edge sets PPS_MISS_EV and may enter holdover. -/
  | ppsMiss
  /-- TIME_EXCHANGE (R402): Every millisecond the device sends a TIME flit to its parent. -/
  | timeExchange
  /-- TIME (R402): A TIME flit is timestamped and answered, or yields an offset that is slewed or stepped. -/
  | timeFlit (p t1 t2 t3 t4 : Nat) (reply : Bool)
  /-- BELL_SEND (R405): The Bell master sends a BELL flit LEAD_US before its next boundary. -/
  | bellSend
  /-- BELL (R406): A BELL flit is accepted, forwarded and used, or discarded as a duplicate or late. -/
  | bellFlit (p seq instant : Nat)
  /-- RC_ENABLE (R407): KL_RC_CTL.EN starts Roll call for a Room, or ends it and clears FENCED. -/
  | rcEnable (fn r : Nat) (en : Bool)
  /-- ROLL_CALL (R410): A child's Roll-call record is merged, or discarded if late. -/
  | rollCall (p job step : Nat) (rec : RcRecord)
  /-- ROLL_CALL_DEADLINE (R409): The deadline passes, missing children count as absent and the record goes up or the verdict is formed. -/
  | rollCallDeadline (r : Nat)
  /-- ROLL_VERDICT (R411): A verdict is recorded, forwarded to children and may fence the job. -/
  | rollVerdict (p job step : Nat) (v : Verdict)
  /-- CONTRIBUTION (R426): A REMOTE_ACC contribution is checked and added exactly, counted or refused. -/
  | contribution (src cls job id : Nat) (data : List (BitVec 8)) (waited : Bool) (wrong : List (Nat × Option Nat))
  /-- PROBE (R428): A Substitute's probe is answered NEEDED or DUPLICATE. -/
  | probe (src cls job id : Nat) (data : List (BitVec 8))
  /-- SUB_DELAY_EXPIRE (R423): A Substitute's hold time passes and it begins probing. -/
  | subDelayExpire (i stream : Nat)
  /-- RED_ENABLE (R425): RED_CTL.EN opens the banks for the current and next step. -/
  | redEnable (fn r : Nat) (en : Bool)
  /-- UPDATE (R437): The UPDATE command checks its tables and waits for the step's verdict. -/
  | cmdUpdate (id : Nat)
  /-- REDUCTION_DEADLINE (R437): T_DEAD_NS passes, or every chunk is counted, and the bank closes. -/
  | reductionDeadline (r : Nat)
  /-- UPDATE_PASS1_DONE (R437): Pass 1 ends and the tally record is formed. -/
  | updatePass1Done (r : Nat)
  /-- TALLY_RECORD (R434): A child's tally record is merged and sent on when complete. -/
  | tallyRecord (src cls job id : Nat) (data : List (BitVec 8))
  /-- TALLY_DEADLINE (R434): The tally deadline passes and a missing child sets ABSENT. -/
  | tallyDeadline (r : Nat)
  /-- TALLY_RESULT (R435): The tally result writes system-wide scales and decides whether the step applies. -/
  | tallyResult (src cls job id : Nat) (data : List (BitVec 8))
  /-- UPDATE_PASS2_DONE (R438): Pass 2 ends after computing new state and sending every chunk. -/
  | updatePass2Done (r : Nat)
  /-- PARAM (R442): A PARAM message writes a chunk of parameters at a receiver. -/
  | param (src cls job id addr : Nat) (data : List (BitVec 8))
  /-- PARAM_WAIT (R443): PARAM_WAIT completes when a step's parameter bytes arrive, or with the step's outcome. -/
  | paramWait (id : Nat)
  /-- PARAM_WAIT_TIMEOUT (R443): A PARAM_WAIT timeout expires with 0x0714. -/
  | paramWaitTimeout (id : Nat)
  /-- DEC_IMAGE (R450): DEC_IMAGE decodes a list of image samples. -/
  | decImage (id : Nat)
  /-- DEC_VIDEO (R450): DEC_VIDEO decodes a list of video samples. -/
  | decVideo (id : Nat)
  /-- DEC_AUDIO (R450): DEC_AUDIO decodes a list of audio samples. -/
  | decAudio (id : Nat)
  /-- TOKENIZE (R450): TOKENIZE tokenises a list of text samples. -/
  | tokenize (id : Nat)
  /-- SAMPLE_START (R468): A free engine takes a sample and runs its header checks. -/
  | sampleStart (e : Nat)
  /-- SAMPLE_DAMAGE (R456): Damage found while decoding is concealed or ends the sample. -/
  | sampleDamage (e : Nat)
  /-- SAMPLE_DEFER (R465): A sample reaching 8 × B work cycles is deferred to the straggler queue. -/
  | sampleDefer (e : Nat)
  /-- SAMPLE_DROP (R465): A sample reaching 64 × B work cycles is dropped with 0x081D. -/
  | sampleDrop (e : Nat)
  /-- SAMPLE_END (R466): A sample ends, its result is written and the slot map and command may complete. -/
  | sampleEnd (e : Nat)
  /-- TOK_LOAD (R463): MED_TOK_SLOT.GO starts loading a tokenizer table, or is refused. -/
  | tokLoad (fn r slot : Nat)
  /-- TOK_LOAD_END (R463): A tokenizer table load ends with TOK_DONE or TOK_FAIL. -/
  | tokLoadEnd (r slot : Nat)
  /-- TOK_SLOT_CLOSE (R463): MED_TOK_SLOT.CLOSE makes samples that name the slot wait, or releases them. -/
  | tokSlotClose (fn r slot : Nat) (close : Bool)
  /-- PREP (R473): PREP checks its ARGS and selection map and queues geometry entries. -/
  | prep (id : Nat)
  /-- ENTRY_TAKE (R484): A geometry unit takes an entry, checks its age and resamples it. -/
  | entryTake (g : Nat)
  /-- ENTRY_END (R485): An entry's last write is acknowledged, its age rechecked and slots filled. -/
  | entryEnd (g : Nat)
  /-- PACK (R487): PACK places candidates into rows by first fit and copies them. -/
  | pack (id : Nat)
  /-- PACK_COMPLETE (R489): A PACK command writes its results and row counts and completes. -/
  | packComplete (p : Nat)
  /-- ENC_OPEN (R498): ENC_OPEN checks its ARGS and initialises a stream context. -/
  | encOpen (id : Nat)
  /-- ENC_FRAME (R499): ENC_FRAME queues a frame of an open stream for encoding. -/
  | encFrame (id : Nat)
  /-- ENC_CLOSE (R499): ENC_CLOSE waits for the stream's frames and closes the context. -/
  | encClose (id : Nat)
  /-- BLOCK_ROW_START (R503): An engine starts a block row once enough source rows are counted. -/
  | blockRowStart (e : Nat)
  /-- ROW_COUNTER_POLL (R503): The engine re-reads the row counter every 2 µs. -/
  | rowCounterPoll (e : Nat)
  /-- BLOCK_ROW_END (R505): A block row ends and a more urgent frame may take the engine. -/
  | blockRowEnd (e : Nat)
  /-- CHUNK_EMIT (R501): A chunk is written to the ring, WR_PTR updated and an interrupt sent. -/
  | chunkEmit (e rdPtr : Nat)
  /-- RING_POLL (R502): The engine re-reads RD_PTR every 2 µs while waiting for ring space. -/
  | ringPoll (e rdPtr : Nat)
  /-- ROWS_TIMEOUT (R513): A row wait longer than ROW_WAIT_US ends the frame with 0x0A11. -/
  | rowsTimeout (e : Nat)
  /-- RING_TIMEOUT (R513): A ring wait longer than RING_WAIT_US ends the frame with 0x0A12. -/
  | ringTimeout (e : Nat)
  /-- MARGIN_SAMPLE (R533): The ageing sensors are sampled and a low margin starts the guard. -/
  | marginSample (a : AgeSample)
  /-- VOLTAGE_STEP (R533): A die's supply offset moves one 2.5 mV step every 100 µs. -/
  | voltageStep (die f : Nat) (ms : List (Nat × Nat))
  /-- TERM_END (R534): A Term ends and the re-plan, self-test, interface checks and Report card follow. -/
  | termEnd (t : TermSample)
  /-- EYE_SCAN (R536): A channel is eye-scanned in a retraining and may be retired. -/
  | eyeScan (ch eye : Nat)
  /-- CARD_COPY (R538): AGE_CARD_CTL.COPY copies the newest card to the fast tier. -/
  | cardCopy (fn : Nat)
  /-- CARD_COPY_END (R538): The card copy ends and COPY_DONE is set. -/
  | cardCopyEnd
  /-- POWER_CHECK (R548): Every 100 µs the power mean is compared with P_cap and FCLK or duty moves. -/
  | powerCheck (mean v48 : Nat)
  /-- SUPPLY_RAMP_DONE (R544): A supply ramp ends and the FCLK divider switches. -/
  | supplyRampDone
  /-- DRAW_CONTROL (R551): Every 10 µs the draw is bounded by throttling or fill and pre-ramps start. -/
  | drawControl (x : DrawSample)
  /-- PWR_CAP_IN_ASSERT (R554): An asserted PWR_CAP_IN brings the draw under the new cap within 1 ms. -/
  | pwrCapInAssert (us mean : Nat)
  /-- PWR_CAP_IN_DEASSERT (R554): A deasserted PWR_CAP_IN releases the cap and held pre-ramps. -/
  | pwrCapInDeassert (us : Nat)
  /-- TJ_SAMPLE (R555): Junction readings every 100 µs step FCLK down at 105 °C. -/
  | tjSample (ts : List Nat)
  /-- THERMAL_TRIP (R555): The comparator at 115 °C switches off conversion and asserts ALERT_N. -/
  | thermalTrip
  /-- FLOW_DEMAND (R556): Every 100 ms the flow demand Q is computed. -/
  | flowDemand
  /-- FLOW_ACTUATE (R557): Every 10 ms the pump or valve duty moves toward Q. -/
  | flowActuate
  /-- NTC_SAMPLE (R613): Every 10 ms the thermistors are sampled and converted. -/
  | ntcSample (rs : List Nat)
  /-- COOLANT_CONDITION (R558): A coolant condition persisting for its time sets its event and may cap power. -/
  | coolantCondition (kind sub : Nat)
  /-- FAULT_CAP_RELEASE (R558): A fault cap is released after every cause has been clear for 10 s. -/
  | faultCapRelease
  /-- RECESS_ENTER (R559): PWR_RECESS.ENTER checks the conditions and begins Recess entry or reports a code. -/
  | recessEnter (fn : Nat)
  /-- RECESS_REACHED (R560): Entry ends with retained segments, self-refresh and STATE RECESS. -/
  | recessReached
  /-- WAKE (R563): PWR_RECESS.WAKE wakes the device from Recess. -/
  | wake (fn : Nat)
  /-- WAKE_TIME (R563): TIME_NOW reaches PWR_WAKE_AT and the device wakes. -/
  | wakeTime
  /-- WAKE_SEND (R563): PWR_WAKE_SEND sends WAKE on the named ports. -/
  | wakeSend (fn ports : Nat)
  /-- WAKE_COMPLETE (R563): Wake ends with READY and STATE AWAKE. -/
  | wakeComplete (fails marginal : List Nat)
  /-- AUX_POWER_ON (R567): V3P3_AUX reaches its threshold and the auxiliary domain starts. -/
  | auxPowerOn (addrSel : Nat)
  /-- V48_APPLIED (R567): V48_IN reaches 40 V and conversion soft-start begins. -/
  | v48Applied
  /-- PWR_GOOD_ASSERT (R567): The device asserts PWR_GOOD once rails regulate and the PLL locks. -/
  | pwrGoodAssert
  /-- RAIL_FAULT (R568): A rail out of regulation or a PLL lock loss deasserts PWR_GOOD and holds reset. -/
  | railFault (pll : Bool)
  /-- V48_OUT_OF_RANGE (R605): V48_IN outside 38 to 62 V switches off conversion. -/
  | v48OutOfRange (v us : Nat)
  /-- AUX_LOW (R605): V3P3_AUX below 3.0 V for 10 µs acts as power-off. -/
  | auxLow (us : Nat)
  /-- RESET_N_ASSERT (R568): A valid RESET_N assertion resets the device. -/
  | resetNAssert (ns tj : Nat)
  /-- RESET_N_RELEASE (R569): RESET_N release starts the boot ROM, PCIe training and firmware verification. -/
  | resetNRelease
  /-- FIRMWARE_VERIFIED (R570): A firmware slot is verified and run, or slot B is tried. -/
  | firmwareVerified
  /-- BOOT_STAGE_DONE (R569): A boot stage (training, zeroing, self-test) ends. -/
  | bootStageDone (stage : Nat) (b : BootSample)
  /-- BOOT_COMPLETE (R569): SPX_REMAP is written and READY is set. -/
  | bootComplete
  /-- BOOT_TIMEOUT (R571): With no slot accepted, BOOT_FAIL is set at tr + 2.5 s. -/
  | bootTimeout
  /-- CONFIG_REQUEST (R574): A PCIe configuration request is answered, with retry status before READY. -/
  | configRequest (fn : Nat) (vfs : Option Nat) (mask : Option Bool)
  /-- VF_FLR (R577): A VF Function Level Reset unloads its Room, disables queues, stops channels and clears MSI-X. -/
  | vfFlr (r : Nat)
  /-- PF_FLR (R577): A PF Function Level Reset or hot reset acts as RESET_N. -/
  | pfFlr
  /-- SYS_RESET (R589): SYS_RESET with the key resets the device. -/
  | sysReset (fn val : Nat)
  /-- STATUS (R579): The management STATUS command returns status registers. -/
  | mgmtStatus (crcOk : Bool)
  /-- ALERT_READ (R579): ALERT_READ returns the alert causes. -/
  | alertRead (crcOk : Bool)
  /-- ALERT_CLEAR (R581): ALERT_CLEAR clears alert causes as W1C. -/
  | alertClear (crcOk : Bool) (causes : Nat)
  /-- ALERT_MASK (R579): ALERT_MASK sets which causes may assert ALERT_N. -/
  | alertMask (crcOk : Bool) (causes : Nat)
  /-- LOAD_NEXT (R579): LOAD_NEXT returns the expected rise and its start. -/
  | loadNext (crcOk : Bool)
  /-- KEY_WRITE (R580): KEY_WRITE provisions an operator key into an EMPTY slot. -/
  | keyWrite (crcOk : Bool) (slot : Nat) (key sig : List (BitVec 8))
  /-- KEY_REVOKE (R580): KEY_REVOKE marks a key slot REVOKED. -/
  | keyRevoke (crcOk : Bool) (slot : Nat) (sig : List (BitVec 8))
  /-- FLASH_WRITE (R579): FLASH_WRITE writes up to 240 bytes of flash. -/
  | flashWrite (crcOk : Bool) (off : Nat) (bytes : List (BitVec 8)) (cut : Bool)
  /-- FW_SVN_RAISE (R580): FW_SVN_RAISE raises FW_SVN_MIN. -/
  | fwSvnRaise (crcOk : Bool) (svn : Nat) (sig : List (BitVec 8))
  /-- CARD_READ (R579): CARD_READ returns the newest Report card. -/
  | cardRead (crcOk : Bool)
  /-- JTAG_INSTRUCTION (R582): A TAP instruction takes effect, or acts as BYPASS. -/
  | jtagInstruction (instr pins : Nat)
  /-- INT_MASK_WRITE (R594): A write of INT_MASK or INT_VMASK that unmasks set bits sends one message. -/
  | intMaskWrite (fn set : Nat) (view : Bool) (val : Nat)
  /-- FLOW_PULSE (R612): An edge on FLOW_A or FLOW_B is taken and counted toward the measured coolant flow. -/
  | flowPulse (input : Nat)
  /-- MSI_X_VECTOR_UNMASK (R594): A host unmasking of a vector in a function's MSI-X table sends the message held pending for it. -/
  | msiXVectorUnmask (fn vec : Nat)
  deriving DecidableEq, Repr

end Sys2Proof
end

