-- ==== Sys2Proof/Decode.lean ====
section
/-! DEFINITION. The commands that the opcode table spells in bits. The table gives no row of this block any bits, so no word spells
a command. -/

namespace Sys2Proof

/-- The command that a word spells: none, for the table gives no row any bits. Log: 8 (DESIGN CHOICE). -/
def decodeTableWord (_nbits _w : Nat) : Option Instr := none

end Sys2Proof
end

