-- ==== Sys2Proof/Machine/Fields.lean ====
section
/-! DEFINITION. The fields of a vector instruction (Table 08-2), of a descriptor (R254) and of a tile instruction
(Tables 06-3 and 07-1). -/

namespace Sys2Proof.Machine

/-- Fields of an instruction (Table 08-2). -/
def vOp (w : Nat) : Nat := bitsOf w 0 8
def vLanes (w : Nat) : Nat := bitsOf w 8 3
def vMaskEn (w : Nat) : Bool := bitAt w 11
def vMask (w : Nat) : Nat := bitsOf w 12 6
def vDst (w : Nat) : Nat := bitsOf w 32 10
def vSa (w : Nat) : Nat := bitsOf w 42 10
def vSb (w : Nat) : Nat := bitsOf w 52 10
def vSc (w : Nat) : Nat := bitsOf w 64 10
def vFmt (w : Nat) : Nat := bitsOf w 74 4
def vRunning (w : Nat) : Bool := bitAt w 78
def vAux (w : Nat) : Nat := bitsOf w 80 16
def vGroup (w : Nat) : Nat := bitsOf w 96 16
def vCond (w : Nat) : Nat := bitsOf w 112 16

/-- A word of a tile instruction. -/
def Tile.w (t : Tile) (n : Nat) : Nat := nth 0 t.words n

/-- Fields of Table 06-3. -/
def Tile.kt (t : Tile) : Nat := bitsOf (t.w 6) 0 16 + 1
def Tile.init (t : Tile) : Nat := bitsOf (t.w 6) 16 2
def Tile.drain (t : Tile) : Bool := bitAt (t.w 6) 18
def Tile.toYarn (t : Tile) : Bool := bitAt (t.w 6) 19
def Tile.ports (t : Tile) : List Nat := (List.range 4).filter fun p => bitAt (t.w 6) (20 + p)
def Tile.outFmt (t : Tile) : Nat := bitsOf (t.w 6) 24 4
def Tile.raw (t : Tile) : Bool := bitAt (t.w 6) 28
def Tile.running (t : Tile) : Bool := bitAt (t.w 6) 29
def Tile.group (t : Tile) : Nat := bitsOf (t.w 7) 0 16
def Tile.rows (t : Tile) : Nat := bitsOf (t.w 7) 16 7 + 1
def Tile.cols (t : Tile) : Nat := bitsOf (t.w 7) 23 7 + 1
def Tile.layer (t : Tile) : Nat := bitsOf (t.w 5) 17 12

/-- Method of Table 07-1; 4 for a tile of PRODUCT mode. -/
def Tile.method (t : Tile) : Nat := if t.words.length = 16 then bitsOf (t.w 8) 0 2 else 4
def Tile.reuse (t : Tile) : Bool := bitAt (t.w 8) 26

/-- The expander writes the tile's panel before it (R231, R240). -/
def Tile.expands (t : Tile) : Bool := (t.method == 1 && !t.reuse) || t.method == 3

/-- Fields of Table 07-1. -/
def Tile.fr (t : Tile) : Nat := bitsOf (t.w 8) 2 4 + 1
def Tile.fs (t : Tile) : Nat := bitsOf (t.w 8) 6 4 + 1
def Tile.th (t : Tile) : Nat := 2 ^ bitsOf (t.w 8) 24 2
def Tile.ct (t : Tile) : Nat := bitsOf (t.w 9) 0 16 + 1
def Tile.slabH (t : Tile) : Nat := bitsOf (t.w 12) 0 16
def Tile.slabW (t : Tile) : Nat := bitsOf (t.w 12) 16 16
def Tile.validH (t : Tile) : Nat := bitsOf (t.w 11) 0 16
def Tile.validW (t : Tile) : Nat := bitsOf (t.w 11) 16 16
def Tile.poolOp (t : Tile) : Nat := bitsOf (t.w 15) 20 2

/-- A tile that drains is in the array. -/
def SpindleSt.willDrain (x : SpindleSt) : Bool := x.arr.any Tile.drain || x.arr2.any Tile.drain

end Sys2Proof.Machine
end

