-- ==== Sys2Proof/Machine/Registers.lean ====
section
/-! DEFINITION. The registers of the 32 MiB register window (R8, R584): one descriptor per register of Table 21-10, with
its offset, its instances, the access type of every bit (Table 00-4), its reset value and what a virtual function
reaches (R585 and the home chapters), and one `Field` per named field. -/

namespace Sys2Proof.Machine

/-- Which instances of a register a virtual function reaches (R585). -/
inductive Reach where
  /-- no instance -/
  | none
  /-- every instance -/
  | all
  /-- the instance of its own Room -/
  | room
  /-- summary set 1 + r for virtual function r (Table 21-4) -/
  | intset
  /-- queues bound to its Room (R123) -/
  | queue
  /-- semaphores whose SEM_ACL includes its Room -/
  | sem
  /-- DMA channels assigned to its Room (R384) -/
  | channel
  /-- Spindles of its own Room -/
  | spindle
  deriving DecidableEq, Repr

/-- Whether a register is one half of a 64-bit value (R9). -/
inductive Half where
  | single
  | low
  | high
  deriving DecidableEq, Repr

/-- One register of the window: instance `i` lies at `base + (i / count2) * stride + (i % count2) * stride2`, and each
mask holds the bits of one access type (bits in no mask are RO or reserved). -/
structure RegDesc where
  base : Nat
  stride : Nat
  count : Nat
  stride2 : Nat
  count2 : Nat
  rw : Nat
  w1c : Nat
  w1s : Nat
  rc : Nat
  wo : Nat
  reset : Nat
  half : Half
  vread : Reach
  vwrite : Reach
  deriving DecidableEq, Repr

/-- A named field: `width` bits of a register from bit `lo` upward. -/
structure Field where
  reg : RegDesc
  lo : Nat
  width : Nat
  deriving DecidableEq, Repr

def SYS_ID0 : RegDesc := ⟨0x0, 0x0, 1, 0x0, 1, 0x0, 0x0, 0x0, 0x0, 0x0, 0x2b10960, .single, .all, .none⟩
def SYS_ID1 : RegDesc := ⟨0x4, 0x0, 1, 0x0, 1, 0x0, 0x0, 0x0, 0x0, 0x0, 0x0, .single, .all, .none⟩
def SYS_ID2 : RegDesc := ⟨0x8, 0x0, 1, 0x0, 1, 0x0, 0x0, 0x0, 0x0, 0x0, 0x0, .low, .all, .none⟩
def SYS_ID3 : RegDesc := ⟨0xc, 0x0, 1, 0x0, 1, 0x0, 0x0, 0x0, 0x0, 0x0, 0x0, .high, .all, .none⟩
def SYS_CAP0 : RegDesc := ⟨0x10, 0x0, 1, 0x0, 1, 0x0, 0x0, 0x0, 0x0, 0x0, 0x0, .single, .all, .none⟩
def SYS_CAP1 : RegDesc := ⟨0x14, 0x0, 1, 0x0, 1, 0x0, 0x0, 0x0, 0x0, 0x0, 0x0, .single, .all, .none⟩
def SYS_STATUS : RegDesc := ⟨0x18, 0x0, 1, 0x0, 1, 0x0, 0x0, 0x0, 0x0, 0x0, 0x0, .single, .all, .none⟩
def SYS_FW_VER : RegDesc := ⟨0x1c, 0x0, 1, 0x0, 1, 0x0, 0x0, 0x0, 0x0, 0x0, 0x0, .single, .all, .none⟩
def SYS_RESET : RegDesc := ⟨0x20, 0x0, 1, 0x0, 1, 0x0, 0x0, 0x0, 0x0, 0xffff0001, 0x0, .single, .none, .none⟩
def INT_STATUS : RegDesc := ⟨0x100000, 0x20, 17, 0x0, 1, 0x0, 0xffffffff, 0x0, 0x0, 0x0, 0x0, .single, .none, .none⟩
def INT_MASK : RegDesc := ⟨0x100004, 0x20, 17, 0x0, 1, 0xffffffff, 0x0, 0x0, 0x0, 0x0, 0xffffffff, .single, .none, .none⟩
def INT_LEVEL : RegDesc := ⟨0x100008, 0x20, 17, 0x0, 1, 0x0, 0x0, 0x0, 0x0, 0x0, 0x0, .single, .intset, .none⟩
def INT_VSTATUS : RegDesc := ⟨0x10002c, 0x20, 16, 0x0, 1, 0x0, 0xffffffff, 0x0, 0x0, 0x0, 0x0, .single, .room, .room⟩
def INT_VMASK : RegDesc := ⟨0x100030, 0x20, 16, 0x0, 1, 0xffffffff, 0x0, 0x0, 0x0, 0x0, 0xffffffff, .single, .room, .room⟩
def ROOM_CTL : RegDesc := ⟨0x200000, 0x1000, 16, 0x0, 1, 0x3, 0x0, 0x0, 0x0, 0x0, 0x2, .single, .room, .room⟩
def ROOM_STATUS : RegDesc := ⟨0x200004, 0x1000, 16, 0x0, 1, 0x0, 0x10000, 0x0, 0x0, 0x0, 0x0, .single, .room, .room⟩
def ROOM_SAVE_ADDR_LO : RegDesc := ⟨0x200008, 0x1000, 16, 0x0, 1, 0xffffffff, 0x0, 0x0, 0x0, 0x0, 0x0, .low, .room, .none⟩
def ROOM_SAVE_ADDR_HI : RegDesc := ⟨0x20000c, 0x1000, 16, 0x0, 1, 0xfffff, 0x0, 0x0, 0x0, 0x0, 0x0, .high, .room, .none⟩
def ROOM_SAVE_SIZE : RegDesc := ⟨0x200010, 0x1000, 16, 0x0, 1, 0xffffff, 0x0, 0x0, 0x0, 0x0, 0x0, .single, .room, .none⟩
def ROOM_PREEMPT_CNT : RegDesc := ⟨0x200014, 0x1000, 16, 0x0, 1, 0x0, 0x0, 0x0, 0xffffffff, 0x0, 0x0, .single, .room, .room⟩
def ROOM_DEFER_CNT : RegDesc := ⟨0x200018, 0x1000, 16, 0x0, 1, 0x0, 0x0, 0x0, 0xffffffff, 0x0, 0x0, .single, .room, .room⟩
def ROOM_SWITCH_NS : RegDesc := ⟨0x20001c, 0x1000, 16, 0x0, 1, 0x0, 0x0, 0x0, 0x0, 0x0, 0x0, .single, .room, .room⟩
def ROOM_RUN : RegDesc := ⟨0x200020, 0x1000, 16, 0x0, 1, 0x0, 0x0, 0x0, 0x0, 0x0, 0x0, .single, .room, .room⟩
def ROOM_PHASE_CNT : RegDesc := ⟨0x200040, 0x1000, 16, 0x0, 1, 0x0, 0x0, 0x0, 0xffffffff, 0x0, 0x0, .single, .room, .room⟩
def ROOM_PHASE_STAT : RegDesc := ⟨0x200044, 0x1000, 16, 0x0, 1, 0x0, 0x18, 0x0, 0x0, 0x0, 0x0, .single, .room, .room⟩
def TT_ROUND : RegDesc := ⟨0x300000, 0x0, 1, 0x0, 1, 0x0, 0x0, 0x0, 0x0, 0x0, 0x0, .single, .none, .none⟩
def TT_BELL_WIN : RegDesc := ⟨0x300004, 0x0, 1, 0x0, 1, 0xffffffff, 0x0, 0x0, 0x0, 0x0, 0x0, .single, .none, .none⟩
def TT_CTL : RegDesc := ⟨0x300008, 0x0, 1, 0x0, 1, 0x7, 0x0, 0x0, 0x0, 0x0, 0x0, .single, .none, .none⟩
def TT_BELL_STAT : RegDesc := ⟨0x30000c, 0x0, 1, 0x0, 1, 0x0, 0xe, 0x0, 0x0, 0x0, 0x0, .single, .none, .none⟩
def TT_BELL_MISS : RegDesc := ⟨0x300010, 0x0, 1, 0x0, 1, 0x0, 0x0, 0x0, 0xffffffff, 0x0, 0x0, .single, .none, .none⟩
def TT_BELL_OUT : RegDesc := ⟨0x300014, 0x0, 1, 0x0, 1, 0x0, 0x0, 0x0, 0xffffffff, 0x0, 0x0, .single, .none, .none⟩
def TT_SHIFT : RegDesc := ⟨0x300018, 0x0, 1, 0x0, 1, 0x0, 0x0, 0x0, 0x0, 0x0, 0x0, .single, .none, .none⟩
def TT_ROUND_CNT_LO : RegDesc := ⟨0x300020, 0x0, 1, 0x0, 1, 0x0, 0x0, 0x0, 0x0, 0x0, 0x0, .low, .none, .none⟩
def TT_ROUND_CNT_HI : RegDesc := ⟨0x300024, 0x0, 1, 0x0, 1, 0x0, 0x0, 0x0, 0x0, 0x0, 0x0, .high, .none, .none⟩
def TT_EPOCH : RegDesc := ⟨0x300028, 0x0, 1, 0x0, 1, 0x0, 0x0, 0x0, 0x0, 0x0, 0x0, .single, .none, .none⟩
def TT_FREE : RegDesc := ⟨0x30002c, 0x0, 1, 0x0, 1, 0x0, 0x0, 0x0, 0x0, 0x0, 0x100, .single, .none, .none⟩
def TT_ROUND_START_LO : RegDesc := ⟨0x300030, 0x0, 1, 0x0, 1, 0x0, 0x0, 0x0, 0x0, 0x0, 0x0, .low, .none, .none⟩
def TT_ROUND_START_HI : RegDesc := ⟨0x300034, 0x0, 1, 0x0, 1, 0x0, 0x0, 0x0, 0x0, 0x0, 0x0, .high, .none, .none⟩
def QUE_BASE_LO : RegDesc := ⟨0x400000, 0x40, 16384, 0x0, 1, 0xffffffff, 0x0, 0x0, 0x0, 0x0, 0x0, .low, .queue, .queue⟩
def QUE_BASE_HI : RegDesc := ⟨0x400004, 0x40, 16384, 0x0, 1, 0xffffffff, 0x0, 0x0, 0x0, 0x0, 0x0, .high, .queue, .queue⟩
def QUE_SIZE : RegDesc := ⟨0x400008, 0x40, 16384, 0x0, 1, 0x1f, 0x0, 0x0, 0x0, 0x0, 0x4, .single, .queue, .queue⟩
def QUE_CTL : RegDesc := ⟨0x40000c, 0x40, 16384, 0x0, 1, 0x3, 0x0, 0x0, 0x0, 0x0, 0x0, .single, .queue, .queue⟩
def QUE_HEAD : RegDesc := ⟨0x400010, 0x40, 16384, 0x0, 1, 0x0, 0x0, 0x0, 0x0, 0x0, 0x0, .single, .queue, .queue⟩
def QUE_TAIL : RegDesc := ⟨0x400014, 0x40, 16384, 0x0, 1, 0x0, 0x0, 0x0, 0x0, 0x0, 0x0, .single, .queue, .queue⟩
def QUE_STAT : RegDesc := ⟨0x400018, 0x40, 16384, 0x0, 1, 0x0, 0x30000, 0x0, 0x0, 0x0, 0x0, .single, .queue, .queue⟩
def QUE_DONE_CNT : RegDesc := ⟨0x40001c, 0x40, 16384, 0x0, 1, 0x0, 0x0, 0x0, 0xffffffff, 0x0, 0x0, .single, .queue, .queue⟩
def SEM_STATE : RegDesc := ⟨0x500000, 0x10, 4096, 0x0, 1, 0x0, 0x400, 0x0, 0x0, 0x80000000, 0x0, .single, .sem, .sem⟩
def SEM_ACL : RegDesc := ⟨0x500004, 0x10, 4096, 0x0, 1, 0xffff, 0x0, 0x0, 0x0, 0x0, 0x0, .single, .sem, .none⟩
def SEM_OWNER : RegDesc := ⟨0x500008, 0x10, 4096, 0x0, 1, 0x0, 0x0, 0x0, 0x0, 0x0, 0x0, .single, .sem, .none⟩
def CFG_LOAD : RegDesc := ⟨0x600000, 0x100, 16, 0x0, 1, 0xe, 0x0, 0x1, 0x0, 0x0, 0x0, .single, .room, .room⟩
def CFG_IMG_ADDR_LO : RegDesc := ⟨0x600004, 0x100, 16, 0x0, 1, 0xffffffff, 0x0, 0x0, 0x0, 0x0, 0x0, .low, .room, .room⟩
def CFG_IMG_ADDR_HI : RegDesc := ⟨0x600008, 0x100, 16, 0x0, 1, 0xfffff, 0x0, 0x0, 0x0, 0x0, 0x0, .high, .room, .room⟩
def CFG_IMG_SIZE : RegDesc := ⟨0x60000c, 0x100, 16, 0x0, 1, 0xfffff, 0x0, 0x0, 0x0, 0x0, 0x0, .single, .room, .room⟩
def CFG_STATUS : RegDesc := ⟨0x600010, 0x100, 16, 0x0, 1, 0x0, 0xe0000, 0x0, 0x0, 0x0, 0x0, .single, .room, .room⟩
def CFG_VAR_SEL : RegDesc := ⟨0x600014, 0x100, 16, 0x0, 1, 0x7, 0x0, 0x0, 0x0, 0x0, 0x0, .single, .room, .room⟩
def CFG_LATE_CNT : RegDesc := ⟨0x600018, 0x100, 16, 0x0, 1, 0x0, 0x0, 0x0, 0xffffffff, 0x0, 0x0, .single, .room, .room⟩
def CFG_SWITCH_CNT : RegDesc := ⟨0x60001c, 0x100, 16, 0x0, 1, 0x0, 0x0, 0x0, 0xffffffff, 0x0, 0x0, .single, .room, .room⟩
def CFG_SAVE_REQ : RegDesc := ⟨0x600020, 0x100, 16, 0x0, 1, 0x0, 0x0, 0x0, 0x0, 0x0, 0x0, .single, .room, .room⟩
def CFG_DIGEST : RegDesc := ⟨0x600040, 0x100, 16, 0x4, 12, 0x0, 0x0, 0x0, 0x0, 0x0, 0x0, .single, .room, .none⟩
def CFG_KEY_STAT : RegDesc := ⟨0x601000, 0x0, 1, 0x0, 1, 0x0, 0x0, 0x0, 0x0, 0x0, 0x0, .single, .none, .none⟩
def CFG_XD_FREE0 : RegDesc := ⟨0x601004, 0x0, 1, 0x0, 1, 0x0, 0x0, 0x0, 0x0, 0x0, 0x30303030, .single, .none, .none⟩
def CFG_XD_FREE1 : RegDesc := ⟨0x601008, 0x0, 1, 0x0, 1, 0x0, 0x0, 0x0, 0x0, 0x0, 0x30303030, .single, .none, .none⟩
def SPX_REMAP : RegDesc := ⟨0x800000, 0x100, 16, 0x4, 60, 0x0, 0x0, 0x0, 0x0, 0x0, 0x80, .single, .none, .none⟩
def SPX_DIE_STAT : RegDesc := ⟨0x801000, 0x4, 16, 0x0, 1, 0x0, 0x0, 0x0, 0x0, 0x0, 0x4, .single, .none, .none⟩
def SPX_STATE : RegDesc := ⟨0x802000, 0x4, 1024, 0x0, 1, 0x0, 0x0, 0x0, 0x0, 0x0, 0x7, .single, .none, .none⟩
def SPX_LINK_CE : RegDesc := ⟨0x803000, 0x4, 1024, 0x0, 1, 0x0, 0x0, 0x0, 0xffffffff, 0x0, 0x0, .single, .none, .none⟩
def SPX_NOTE_DROP : RegDesc := ⟨0x804000, 0x0, 1, 0x0, 1, 0x0, 0x0, 0x0, 0xffffffff, 0x0, 0x0, .single, .none, .none⟩
def SPX_WIN_STAT : RegDesc := ⟨0x804004, 0x0, 1, 0x0, 1, 0x0, 0x1, 0x0, 0x0, 0x0, 0x0, .single, .none, .none⟩
def SPX_WIN_DROP : RegDesc := ⟨0x804008, 0x0, 1, 0x0, 1, 0x0, 0x0, 0x0, 0xffffffff, 0x0, 0x0, .single, .none, .none⟩
def SPX_REMAP_GEN : RegDesc := ⟨0x80400c, 0x0, 1, 0x0, 1, 0x0, 0x0, 0x0, 0x0, 0x0, 0x0, .single, .none, .none⟩
def SPX_MX_TILE_CNT : RegDesc := ⟨0x805000, 0x4, 1024, 0x0, 1, 0x0, 0x0, 0x0, 0xffffffff, 0x0, 0x0, .single, .spindle, .none⟩
def SPX_MX_STALL_CNT : RegDesc := ⟨0x806000, 0x4, 1024, 0x0, 1, 0x0, 0x0, 0x0, 0xffffffff, 0x0, 0x0, .single, .spindle, .none⟩
def SPX_MX_KLONG_CNT : RegDesc := ⟨0x807000, 0x4, 1024, 0x0, 1, 0x0, 0x0, 0x0, 0xffffffff, 0x0, 0x0, .single, .spindle, .none⟩
def SPX_MX_STAT : RegDesc := ⟨0x808000, 0x4, 1024, 0x0, 1, 0x0, 0x0, 0x0, 0x0, 0x0, 0x0, .single, .spindle, .none⟩
def SPX_VX_STAT : RegDesc := ⟨0x809000, 0x4, 1024, 0x0, 1, 0x0, 0x0, 0x0, 0x0, 0x0, 0x0, .single, .spindle, .none⟩
def SPX_VX_ISSUE_CNT : RegDesc := ⟨0x80a000, 0x4, 1024, 0x0, 1, 0x0, 0x0, 0x0, 0xffffffff, 0x0, 0x0, .single, .spindle, .none⟩
def SPX_VX_WAIT_CNT : RegDesc := ⟨0x80b000, 0x4, 1024, 0x0, 1, 0x0, 0x0, 0x0, 0xffffffff, 0x0, 0x0, .single, .spindle, .none⟩
def SPX_VX_DESK_CNT : RegDesc := ⟨0x80c000, 0x4, 1024, 0x0, 1, 0x0, 0x0, 0x0, 0xffffffff, 0x0, 0x0, .single, .spindle, .none⟩
def MEM_CHAN_STATE : RegDesc := ⟨0xc00000, 0x10, 448, 0x0, 1, 0x0, 0x0, 0x0, 0x0, 0x0, 0x0, .single, .all, .none⟩
def MEM_CE_CNT : RegDesc := ⟨0xc00004, 0x10, 448, 0x0, 1, 0x0, 0x0, 0x0, 0xffffffff, 0x0, 0x0, .single, .all, .none⟩
def MEM_UE_CNT : RegDesc := ⟨0xc00008, 0x10, 448, 0x0, 1, 0x0, 0x0, 0x0, 0xffffffff, 0x0, 0x0, .single, .all, .none⟩
def MEM_RETRAIN_CNT : RegDesc := ⟨0xc0000c, 0x10, 448, 0x0, 1, 0x0, 0x0, 0x0, 0xffffffff, 0x0, 0x0, .single, .all, .none⟩
def MEM_CHAN_CTL : RegDesc := ⟨0xc02000, 0x4, 448, 0x0, 1, 0x0, 0x0, 0x0, 0x0, 0x3, 0x0, .single, .all, .none⟩
def MEM_FT_BASE_LO : RegDesc := ⟨0xc10000, 0x40, 16, 0x0, 1, 0xffffffff, 0x0, 0x0, 0x0, 0x0, 0x0, .low, .room, .none⟩
def MEM_FT_BASE_HI : RegDesc := ⟨0xc10004, 0x40, 16, 0x0, 1, 0xfffff, 0x0, 0x0, 0x0, 0x0, 0x0, .high, .room, .none⟩
def MEM_FT_SIZE : RegDesc := ⟨0xc10008, 0x40, 16, 0x0, 1, 0xfffff, 0x0, 0x0, 0x0, 0x0, 0x0, .single, .room, .none⟩
def MEM_CT_BASE_LO : RegDesc := ⟨0xc1000c, 0x40, 16, 0x0, 1, 0xffffffff, 0x0, 0x0, 0x0, 0x0, 0x0, .low, .room, .none⟩
def MEM_CT_BASE_HI : RegDesc := ⟨0xc10010, 0x40, 16, 0x0, 1, 0xfffff, 0x0, 0x0, 0x0, 0x0, 0x0, .high, .room, .none⟩
def MEM_CT_SIZE : RegDesc := ⟨0xc10014, 0x40, 16, 0x0, 1, 0x3fffff, 0x0, 0x0, 0x0, 0x0, 0x0, .single, .room, .none⟩
def MEM_REG_BUDGET : RegDesc := ⟨0xc10018, 0x40, 16, 0x4, 2, 0x0, 0x0, 0x0, 0x0, 0x0, 0x0, .single, .room, .none⟩
def MEM_REG_BAL : RegDesc := ⟨0xc10020, 0x40, 16, 0x4, 2, 0x0, 0x0, 0x0, 0x0, 0x0, 0x0, .single, .room, .none⟩
def MEM_REG_HOLD_CNT : RegDesc := ⟨0xc10028, 0x40, 16, 0x4, 2, 0x0, 0x0, 0x0, 0xffffffff, 0x0, 0x0, .single, .room, .none⟩
def MEM_ROOM_STAT : RegDesc := ⟨0xc10030, 0x40, 16, 0x0, 1, 0x0, 0x3, 0x0, 0x0, 0x0, 0x0, .single, .room, .room⟩
def MEM_STATUS : RegDesc := ⟨0xc20000, 0x0, 1, 0x0, 1, 0x0, 0x3f, 0x0, 0x0, 0x0, 0x0, .single, .none, .none⟩
def MEM_RT_CTL : RegDesc := ⟨0xc20004, 0x0, 1, 0x0, 1, 0xffffffff, 0x0, 0x0, 0x0, 0x0, 0x3e830040, .single, .none, .none⟩
def MEM_SCRUB_CTL : RegDesc := ⟨0xc20008, 0x0, 1, 0x0, 1, 0x1ffff, 0x0, 0x0, 0x0, 0x0, 0x10818, .single, .none, .none⟩
def MEM_SCRUB_STAT : RegDesc := ⟨0xc2000c, 0x0, 1, 0x0, 1, 0x0, 0x0, 0x0, 0x0, 0x0, 0x0, .single, .none, .none⟩
def MEM_SPARE_STAT : RegDesc := ⟨0xc20010, 0x0, 1, 0x0, 1, 0x0, 0x0, 0x0, 0x0, 0x0, 0x3000, .single, .none, .none⟩
def MEM_MIG_CTL : RegDesc := ⟨0xc20014, 0x0, 1, 0x0, 1, 0x7f, 0x0, 0x0, 0x0, 0x0, 0x10, .single, .none, .none⟩
def MEM_MIG_STAT : RegDesc := ⟨0xc20018, 0x0, 1, 0x0, 1, 0x0, 0x0, 0x0, 0x0, 0x0, 0x0, .single, .none, .none⟩
def MEM_ERR_INFO : RegDesc := ⟨0xc2001c, 0x0, 1, 0x0, 1, 0x0, 0x0, 0x0, 0x0, 0x0, 0x0, .single, .none, .none⟩
def MEM_ERR_ADDR_LO : RegDesc := ⟨0xc20020, 0x0, 1, 0x0, 1, 0x0, 0x0, 0x0, 0x0, 0x0, 0x0, .low, .none, .none⟩
def MEM_ERR_ADDR_HI : RegDesc := ⟨0xc20024, 0x0, 1, 0x0, 1, 0x0, 0x0, 0x0, 0x0, 0x0, 0x0, .high, .none, .none⟩
def STR_STAT : RegDesc := ⟨0x1000000, 0x4, 1024, 0x0, 1, 0x0, 0x0, 0x0, 0x0, 0x0, 0x0, .single, .spindle, .none⟩
def STR_ROOM_STAT : RegDesc := ⟨0x1001000, 0x40, 16, 0x0, 1, 0x0, 0x1, 0x0, 0x0, 0x0, 0x0, .single, .room, .room⟩
def STR_ERR_INFO : RegDesc := ⟨0x1001004, 0x40, 16, 0x0, 1, 0x0, 0x0, 0x0, 0x0, 0x0, 0x0, .single, .room, .room⟩
def STR_ERR_UNIT : RegDesc := ⟨0x1001008, 0x40, 16, 0x0, 1, 0x0, 0x0, 0x0, 0x0, 0x0, 0x0, .single, .room, .room⟩
def STR_ERR_ADDR_LO : RegDesc := ⟨0x100100c, 0x40, 16, 0x0, 1, 0x0, 0x0, 0x0, 0x0, 0x0, 0x0, .low, .room, .room⟩
def STR_ERR_ADDR_HI : RegDesc := ⟨0x1001010, 0x40, 16, 0x0, 1, 0x0, 0x0, 0x0, 0x0, 0x0, 0x0, .high, .room, .room⟩
def STR_WASTE_BYTES_LO : RegDesc := ⟨0x1001014, 0x40, 16, 0x0, 1, 0x0, 0x0, 0x0, 0xffffffff, 0x0, 0x0, .low, .room, .room⟩
def STR_WASTE_BYTES_HI : RegDesc := ⟨0x1001018, 0x40, 16, 0x0, 1, 0x0, 0x0, 0x0, 0xffffffff, 0x0, 0x0, .high, .room, .room⟩
def STR_ABORT_CNT : RegDesc := ⟨0x100101c, 0x40, 16, 0x0, 1, 0x0, 0x0, 0x0, 0xffffffff, 0x0, 0x0, .single, .room, .room⟩
def STR_SPLIT : RegDesc := ⟨0x1001020, 0x40, 16, 0x0, 1, 0x0, 0x0, 0x0, 0x0, 0x0, 0x0, .single, .room, .room⟩
def DMA_CH_CTL : RegDesc := ⟨0x1100000, 0x40, 128, 0x0, 1, 0x7f8, 0x0, 0x7, 0x0, 0x0, 0x18, .single, .channel, .channel⟩
def DMA_CH_NEXT_LO : RegDesc := ⟨0x1100004, 0x40, 128, 0x0, 1, 0xffffffff, 0x0, 0x0, 0x0, 0x0, 0x0, .low, .channel, .channel⟩
def DMA_CH_NEXT_HI : RegDesc := ⟨0x1100008, 0x40, 128, 0x0, 1, 0xffffffff, 0x0, 0x0, 0x0, 0x0, 0x0, .high, .channel, .channel⟩
def DMA_CH_STAT : RegDesc := ⟨0x110000c, 0x40, 128, 0x0, 1, 0x0, 0x38, 0x0, 0x0, 0x0, 0x0, .single, .channel, .channel⟩
def DMA_CH_ERR_ADDR_LO : RegDesc := ⟨0x1100010, 0x40, 128, 0x0, 1, 0x0, 0x0, 0x0, 0x0, 0x0, 0x0, .low, .channel, .channel⟩
def DMA_CH_ERR_ADDR_HI : RegDesc := ⟨0x1100014, 0x40, 128, 0x0, 1, 0x0, 0x0, 0x0, 0x0, 0x0, 0x0, .high, .channel, .channel⟩
def DMA_CH_ERR_INFO : RegDesc := ⟨0x1100018, 0x40, 128, 0x0, 1, 0x0, 0x0, 0x0, 0x0, 0x0, 0x0, .single, .channel, .channel⟩
def DMA_CH_BYTES : RegDesc := ⟨0x110001c, 0x40, 128, 0x0, 1, 0x0, 0x0, 0x0, 0x0, 0x0, 0x0, .single, .channel, .channel⟩
def DMA_CH_DONE_CNT : RegDesc := ⟨0x1100020, 0x40, 128, 0x0, 1, 0x0, 0x0, 0x0, 0xffffffff, 0x0, 0x0, .single, .channel, .channel⟩
def DMA_CH_VECTOR : RegDesc := ⟨0x1100024, 0x40, 128, 0x0, 1, 0x7ff, 0x0, 0x0, 0x0, 0x0, 0x0, .single, .channel, .channel⟩
def KL_PORT_CTL : RegDesc := ⟨0x1200000, 0x40, 12, 0x0, 1, 0xd, 0x0, 0x0, 0x0, 0x12, 0x0, .single, .none, .none⟩
def KL_PORT_STAT : RegDesc := ⟨0x1200004, 0x40, 12, 0x0, 1, 0x0, 0x38000000, 0x0, 0x0, 0x0, 0x78, .single, .none, .none⟩
def KL_CREDIT : RegDesc := ⟨0x1200008, 0x40, 12, 0x0, 1, 0xffffffff, 0x0, 0x0, 0x0, 0x0, 0x10501010, .single, .none, .none⟩
def KL_REPLAY_CNT : RegDesc := ⟨0x120000c, 0x40, 12, 0x0, 1, 0x0, 0x0, 0x0, 0xffffffff, 0x0, 0x0, .single, .none, .none⟩
def KL_RETRAIN_CNT : RegDesc := ⟨0x1200010, 0x40, 12, 0x0, 1, 0x0, 0x0, 0x0, 0xffffffff, 0x0, 0x0, .single, .none, .none⟩
def KL_FEC_UE_CNT : RegDesc := ⟨0x1200014, 0x40, 12, 0x0, 1, 0x0, 0x0, 0x0, 0xffffffff, 0x0, 0x0, .single, .none, .none⟩
def KL_FEC_CE_CNT : RegDesc := ⟨0x1200020, 0x40, 12, 0x4, 4, 0x0, 0x0, 0x0, 0xffffffff, 0x0, 0x0, .single, .none, .none⟩
def KL_DEV_ID : RegDesc := ⟨0x1201000, 0x0, 1, 0x0, 1, 0x7fff, 0x0, 0x0, 0x0, 0x0, 0x0, .single, .none, .none⟩
def KL_LANE_CTL : RegDesc := ⟨0x1201004, 0x0, 1, 0x0, 1, 0x1ff, 0x0, 0x0, 0x0, 0x0, 0x76, .single, .none, .none⟩
def KL_BELL_CTL : RegDesc := ⟨0x1201008, 0x0, 1, 0x0, 1, 0x1fffffff, 0x0, 0x0, 0x0, 0x0, 0xc8000, .single, .none, .none⟩
def KL_BELL_LATE : RegDesc := ⟨0x120100c, 0x0, 1, 0x0, 1, 0x0, 0x0, 0x0, 0xffffffff, 0x0, 0x0, .single, .none, .none⟩
def KL_DROP_CNT : RegDesc := ⟨0x1201010, 0x0, 1, 0x0, 1, 0x0, 0x0, 0x0, 0xffffffff, 0x0, 0x0, .single, .none, .none⟩
def KL_REMOTE_ERR : RegDesc := ⟨0x1201014, 0x0, 1, 0x0, 1, 0x0, 0x0, 0x0, 0x0, 0x0, 0x0, .single, .none, .none⟩
def KL_RC_TMO : RegDesc := ⟨0x1201018, 0x0, 1, 0x0, 1, 0xffff, 0x0, 0x0, 0x0, 0x0, 0x14, .single, .none, .none⟩
def KL_ROOM_JOB : RegDesc := ⟨0x1202000, 0x40, 16, 0x0, 1, 0xffff, 0x0, 0x0, 0x0, 0x0, 0x0, .single, .room, .none⟩
def KL_RC_CTL : RegDesc := ⟨0x1202004, 0x40, 16, 0x0, 1, 0xffffff, 0x0, 0x0, 0x0, 0x0, 0x0, .single, .room, .none⟩
def KL_RC_START_LO : RegDesc := ⟨0x1202008, 0x40, 16, 0x0, 1, 0xffffffff, 0x0, 0x0, 0x0, 0x0, 0x0, .low, .room, .none⟩
def KL_RC_START_HI : RegDesc := ⟨0x120200c, 0x40, 16, 0x0, 1, 0xffffffff, 0x0, 0x0, 0x0, 0x0, 0x0, .high, .room, .none⟩
def KL_RC_STAT : RegDesc := ⟨0x1202010, 0x40, 16, 0x0, 1, 0x0, 0x4000, 0x0, 0x0, 0x0, 0x0, .single, .room, .none⟩
def KL_RC_DISSENT : RegDesc := ⟨0x1202014, 0x40, 16, 0x0, 1, 0x0, 0x0, 0x0, 0x0, 0x0, 0x0, .single, .room, .none⟩
def KL_RC_COUNT : RegDesc := ⟨0x1202018, 0x40, 16, 0x0, 1, 0x0, 0x0, 0x0, 0x0, 0x0, 0x0, .single, .room, .none⟩
def KL_RC_STEP_LO : RegDesc := ⟨0x120201c, 0x40, 16, 0x0, 1, 0x0, 0x0, 0x0, 0x0, 0x0, 0x0, .low, .room, .none⟩
def KL_RC_STEP_HI : RegDesc := ⟨0x1202020, 0x40, 16, 0x0, 1, 0x0, 0x0, 0x0, 0x0, 0x0, 0x0, .high, .room, .none⟩
def KL_RC_FENCE_CNT : RegDesc := ⟨0x1202024, 0x40, 16, 0x0, 1, 0x0, 0x0, 0x0, 0xffffffff, 0x0, 0x0, .single, .room, .none⟩
def KL_ROUTE : RegDesc := ⟨0x1240000, 0x4, 32768, 0x0, 1, 0xfff, 0x0, 0x0, 0x0, 0x0, 0x0, .single, .none, .none⟩
def RED_CTL : RegDesc := ⟨0x1300000, 0x100, 16, 0x0, 1, 0x1, 0x0, 0x0, 0x0, 0x0, 0x0, .single, .room, .room⟩
def RED_TABLE_BASE_LO : RegDesc := ⟨0x1300004, 0x100, 16, 0x0, 1, 0xffffffff, 0x0, 0x0, 0x0, 0x0, 0x0, .low, .room, .room⟩
def RED_TABLE_BASE_HI : RegDesc := ⟨0x1300008, 0x100, 16, 0x0, 1, 0xfffff, 0x0, 0x0, 0x0, 0x0, 0x0, .high, .room, .room⟩
def RED_STAT : RegDesc := ⟨0x130000c, 0x100, 16, 0x0, 1, 0x0, 0xc, 0x0, 0x0, 0x0, 0x0, .single, .room, .room⟩
def RED_DUP_CNT : RegDesc := ⟨0x1300010, 0x100, 16, 0x0, 1, 0x0, 0x0, 0x0, 0xffffffff, 0x0, 0x0, .single, .room, .room⟩
def RED_MISS_CNT : RegDesc := ⟨0x1300014, 0x100, 16, 0x0, 1, 0x0, 0x0, 0x0, 0xffffffff, 0x0, 0x0, .single, .room, .room⟩
def RED_REFUSE_CNT : RegDesc := ⟨0x1300018, 0x100, 16, 0x0, 1, 0x0, 0x0, 0x0, 0xffffffff, 0x0, 0x0, .single, .room, .room⟩
def RED_CHECK_CTL : RegDesc := ⟨0x1301000, 0x0, 1, 0x0, 1, 0xffffff, 0x0, 0x0, 0x0, 0x0, 0xe1038, .single, .none, .none⟩
def RED_CHECK_STAT : RegDesc := ⟨0x1301004, 0x0, 1, 0x0, 1, 0x0, 0x7, 0x0, 0x0, 0x0, 0x1180, .single, .none, .none⟩
def RED_CHECK_CNT : RegDesc := ⟨0x1301008, 0x0, 1, 0x0, 1, 0x0, 0x0, 0x0, 0xffffffff, 0x0, 0x0, .single, .none, .none⟩
def RED_MISMATCH_CNT : RegDesc := ⟨0x130100c, 0x0, 1, 0x0, 1, 0x0, 0x0, 0x0, 0xffffffff, 0x0, 0x0, .single, .none, .none⟩
def RED_ADDER_STAT : RegDesc := ⟨0x1302000, 0x4, 56, 0x0, 1, 0x0, 0x0, 0x0, 0x0, 0x0, 0x0, .single, .none, .none⟩
def UPD_POLICY : RegDesc := ⟨0x1400000, 0x100, 16, 0x0, 1, 0x7, 0x0, 0x0, 0x0, 0x0, 0x0, .single, .room, .room⟩
def UPD_GROUP_BASE_LO : RegDesc := ⟨0x1400004, 0x100, 16, 0x0, 1, 0xffffffff, 0x0, 0x0, 0x0, 0x0, 0x0, .low, .room, .room⟩
def UPD_GROUP_BASE_HI : RegDesc := ⟨0x1400008, 0x100, 16, 0x0, 1, 0xfffff, 0x0, 0x0, 0x0, 0x0, 0x0, .high, .room, .room⟩
def UPD_GROUPS : RegDesc := ⟨0x140000c, 0x100, 16, 0x0, 1, 0x7ff, 0x0, 0x0, 0x0, 0x0, 0x0, .single, .room, .room⟩
def UPD_CLIP_MAX : RegDesc := ⟨0x1400010, 0x100, 16, 0x0, 1, 0xffffffff, 0x0, 0x0, 0x0, 0x0, 0x0, .single, .room, .room⟩
def UPD_STAT : RegDesc := ⟨0x1400014, 0x100, 16, 0x0, 1, 0x0, 0x7, 0x0, 0x0, 0x0, 0x0, .single, .room, .room⟩
def UPD_NORM : RegDesc := ⟨0x1400018, 0x100, 16, 0x0, 1, 0x0, 0x0, 0x0, 0x0, 0x0, 0x0, .single, .room, .room⟩
def UPD_CLIP : RegDesc := ⟨0x140001c, 0x100, 16, 0x0, 1, 0x0, 0x0, 0x0, 0x0, 0x0, 0x0, .single, .room, .room⟩
def UPD_SKIP_CNT : RegDesc := ⟨0x1400020, 0x100, 16, 0x0, 1, 0x0, 0x0, 0x0, 0xffffffff, 0x0, 0x0, .single, .room, .room⟩
def UPD_STEP_LO : RegDesc := ⟨0x1400024, 0x100, 16, 0x0, 1, 0x0, 0x0, 0x0, 0x0, 0x0, 0x0, .low, .room, .room⟩
def UPD_STEP_HI : RegDesc := ⟨0x1400028, 0x100, 16, 0x0, 1, 0x0, 0x0, 0x0, 0x0, 0x0, 0x0, .high, .room, .room⟩
def UPD_PARAM_RX_LO : RegDesc := ⟨0x1400030, 0x100, 16, 0x8, 2, 0x0, 0x0, 0x0, 0x0, 0x0, 0x0, .low, .room, .none⟩
def UPD_PARAM_RX_HI : RegDesc := ⟨0x1400034, 0x100, 16, 0x8, 2, 0x0, 0x0, 0x0, 0x0, 0x0, 0x0, .high, .room, .none⟩
def UPD_TALLY_TMO : RegDesc := ⟨0x1401000, 0x0, 1, 0x0, 1, 0xfffffff, 0x0, 0x0, 0x0, 0x0, 0x3207d0, .single, .none, .none⟩
def UPD_ENGINE_STAT : RegDesc := ⟨0x1401004, 0x4, 12, 0x0, 1, 0x0, 0x0, 0x0, 0x0, 0x0, 0x0, .single, .none, .none⟩
def SKN_TABLE_SLOT : RegDesc := ⟨0x1500000, 0x100, 16, 0x10, 4, 0x2, 0x0, 0x1, 0x0, 0x0, 0x0, .single, .room, .room⟩
def SKN_TABLE_ADDR_LO : RegDesc := ⟨0x1500004, 0x100, 16, 0x10, 4, 0xffffffff, 0x0, 0x0, 0x0, 0x0, 0x0, .low, .room, .room⟩
def SKN_TABLE_ADDR_HI : RegDesc := ⟨0x1500008, 0x100, 16, 0x10, 4, 0xfffff, 0x0, 0x0, 0x0, 0x0, 0x0, .high, .room, .room⟩
def SKN_TABLE_ID : RegDesc := ⟨0x150000c, 0x100, 16, 0x10, 4, 0x0, 0x0, 0x0, 0x0, 0x0, 0x0, .single, .room, .room⟩
def SKN_STAT : RegDesc := ⟨0x1500040, 0x100, 16, 0x0, 1, 0x0, 0x1ff, 0x0, 0x0, 0x0, 0x0, .single, .room, .room⟩
def SKN_ERR_INFO : RegDesc := ⟨0x1500044, 0x100, 16, 0x0, 1, 0x0, 0x0, 0x0, 0x0, 0x0, 0x0, .single, .room, .room⟩
def SKN_ERR_ADDR_LO : RegDesc := ⟨0x1500048, 0x100, 16, 0x0, 1, 0x0, 0x0, 0x0, 0x0, 0x0, 0x0, .low, .room, .room⟩
def SKN_ERR_ADDR_HI : RegDesc := ⟨0x150004c, 0x100, 16, 0x0, 1, 0x0, 0x0, 0x0, 0x0, 0x0, 0x0, .high, .room, .room⟩
def SKN_ERR_CNT : RegDesc := ⟨0x1500050, 0x100, 16, 0x0, 1, 0x0, 0x0, 0x0, 0xffffffff, 0x0, 0x0, .single, .room, .room⟩
def SKN_RAWBLK_CNT : RegDesc := ⟨0x1500054, 0x100, 16, 0x0, 1, 0x0, 0x0, 0x0, 0xffffffff, 0x0, 0x0, .single, .room, .room⟩
def SKN_RAW_BYTES_LO : RegDesc := ⟨0x1500058, 0x100, 16, 0x0, 1, 0x0, 0x0, 0x0, 0xffffffff, 0x0, 0x0, .low, .room, .room⟩
def SKN_RAW_BYTES_HI : RegDesc := ⟨0x150005c, 0x100, 16, 0x0, 1, 0x0, 0x0, 0x0, 0xffffffff, 0x0, 0x0, .high, .room, .room⟩
def SKN_STORED_BYTES_LO : RegDesc := ⟨0x1500060, 0x100, 16, 0x0, 1, 0x0, 0x0, 0x0, 0xffffffff, 0x0, 0x0, .low, .room, .room⟩
def SKN_STORED_BYTES_HI : RegDesc := ⟨0x1500064, 0x100, 16, 0x0, 1, 0x0, 0x0, 0x0, 0xffffffff, 0x0, 0x0, .high, .room, .room⟩
def MED_STAT : RegDesc := ⟨0x1600000, 0x100, 16, 0x0, 1, 0x0, 0xfff, 0x0, 0x0, 0x0, 0x0, .single, .room, .room⟩
def MED_DEFER_CNT : RegDesc := ⟨0x1600004, 0x100, 16, 0x0, 1, 0x0, 0x0, 0x0, 0xffffffff, 0x0, 0x0, .single, .room, .room⟩
def MED_DROP_CNT : RegDesc := ⟨0x1600008, 0x100, 16, 0x0, 1, 0x0, 0x0, 0x0, 0xffffffff, 0x0, 0x0, .single, .room, .room⟩
def MED_CONCEAL_CNT : RegDesc := ⟨0x160000c, 0x100, 16, 0x0, 1, 0x0, 0x0, 0x0, 0xffffffff, 0x0, 0x0, .single, .room, .room⟩
def MED_REJECT_CNT : RegDesc := ⟨0x1600010, 0x100, 16, 0x0, 1, 0x0, 0x0, 0x0, 0xffffffff, 0x0, 0x0, .single, .room, .room⟩
def MED_AVG : RegDesc := ⟨0x1600020, 0x100, 16, 0x4, 4, 0xffffffff, 0x0, 0x0, 0x0, 0x0, 0x0, .single, .room, .room⟩
def MED_TOK_SLOT : RegDesc := ⟨0x1600040, 0x100, 16, 0x10, 4, 0x2, 0x0, 0x1, 0x0, 0x0, 0x0, .single, .room, .room⟩
def MED_TOK_ADDR_LO : RegDesc := ⟨0x1600044, 0x100, 16, 0x10, 4, 0xffffffff, 0x0, 0x0, 0x0, 0x0, 0x0, .low, .room, .room⟩
def MED_TOK_ADDR_HI : RegDesc := ⟨0x1600048, 0x100, 16, 0x10, 4, 0xfffff, 0x0, 0x0, 0x0, 0x0, 0x0, .high, .room, .room⟩
def MED_TOK_ID : RegDesc := ⟨0x160004c, 0x100, 16, 0x10, 4, 0x0, 0x0, 0x0, 0x0, 0x0, 0x0, .single, .room, .room⟩
def MED_ENG_STAT : RegDesc := ⟨0x1601000, 0x4, 76, 0x0, 1, 0x0, 0x0, 0x0, 0x0, 0x0, 0x0, .single, .none, .none⟩
def MED_PREP_STAT : RegDesc := ⟨0x1700000, 0x100, 16, 0x0, 1, 0x0, 0x7, 0x0, 0x0, 0x0, 0x0, .single, .room, .room⟩
def MED_PREP_STALE_CNT : RegDesc := ⟨0x1700004, 0x100, 16, 0x0, 1, 0x0, 0x0, 0x0, 0xffffffff, 0x0, 0x0, .single, .room, .room⟩
def MED_PREP_REJECT_CNT : RegDesc := ⟨0x1700008, 0x100, 16, 0x0, 1, 0x0, 0x0, 0x0, 0xffffffff, 0x0, 0x0, .single, .room, .room⟩
def MED_PACK_MISS_CNT : RegDesc := ⟨0x170000c, 0x100, 16, 0x0, 1, 0x0, 0x0, 0x0, 0xffffffff, 0x0, 0x0, .single, .room, .room⟩
def MED_GEO_STAT : RegDesc := ⟨0x1701000, 0x4, 24, 0x0, 1, 0x0, 0x0, 0x0, 0x0, 0x0, 0x0, .single, .none, .none⟩
def MED_PACK_STAT : RegDesc := ⟨0x1701080, 0x4, 2, 0x0, 1, 0x0, 0x0, 0x0, 0x0, 0x0, 0x0, .single, .none, .none⟩
def VC_STAT : RegDesc := ⟨0x1800000, 0x100, 16, 0x0, 1, 0x0, 0x7, 0x0, 0x0, 0x0, 0x0, .single, .room, .room⟩
def VC_SKIP_CNT : RegDesc := ⟨0x1800004, 0x100, 16, 0x0, 1, 0x0, 0x0, 0x0, 0xffffffff, 0x0, 0x0, .single, .room, .room⟩
def VC_CAP_CNT : RegDesc := ⟨0x1800008, 0x100, 16, 0x0, 1, 0x0, 0x0, 0x0, 0xffffffff, 0x0, 0x0, .single, .room, .room⟩
def VC_FILLER_BYTES : RegDesc := ⟨0x180000c, 0x100, 16, 0x0, 1, 0x0, 0x0, 0x0, 0xffffffff, 0x0, 0x0, .single, .room, .room⟩
def VC_RING_WAIT_CNT : RegDesc := ⟨0x1800010, 0x100, 16, 0x0, 1, 0x0, 0x0, 0x0, 0xffffffff, 0x0, 0x0, .single, .room, .room⟩
def VC_PREEMPT_CNT : RegDesc := ⟨0x1800014, 0x100, 16, 0x0, 1, 0x0, 0x0, 0x0, 0xffffffff, 0x0, 0x0, .single, .room, .room⟩
def VC_PRIV : RegDesc := ⟨0x1801000, 0x4, 2, 0x0, 1, 0x1f, 0x0, 0x0, 0x0, 0x0, 0x0, .single, .none, .none⟩
def VC_ENG_STAT : RegDesc := ⟨0x1801010, 0x4, 8, 0x0, 1, 0x0, 0x0, 0x0, 0x0, 0x0, 0x0, .single, .none, .none⟩
def NUM_SCALE_CTL : RegDesc := ⟨0x1a00000, 0x100, 16, 0x0, 1, 0x1ff, 0x0, 0x0, 0x0, 0x0, 0xa0, .single, .room, .room⟩
def NUM_SCALE_BASE_LO : RegDesc := ⟨0x1a00004, 0x100, 16, 0x0, 1, 0xffffffff, 0x0, 0x0, 0x0, 0x0, 0x0, .low, .room, .room⟩
def NUM_SCALE_BASE_HI : RegDesc := ⟨0x1a00008, 0x100, 16, 0x0, 1, 0xfffff, 0x0, 0x0, 0x0, 0x0, 0x0, .high, .room, .room⟩
def NUM_SCALE_GROUPS : RegDesc := ⟨0x1a0000c, 0x100, 16, 0x0, 1, 0x1ffff, 0x0, 0x0, 0x0, 0x0, 0x0, .single, .room, .room⟩
def NUM_SCALE_WAIT : RegDesc := ⟨0x1a00010, 0x100, 16, 0x0, 1, 0xffff, 0x0, 0x0, 0x0, 0x0, 0x32, .single, .room, .room⟩
def NUM_MON_CTL : RegDesc := ⟨0x1a00014, 0x100, 16, 0x0, 1, 0xff1f, 0x0, 0x0, 0x0, 0x0, 0x10a, .single, .room, .room⟩
def NUM_MON_BASE_LO : RegDesc := ⟨0x1a00018, 0x100, 16, 0x0, 1, 0xffffffff, 0x0, 0x0, 0x0, 0x0, 0x0, .low, .room, .room⟩
def NUM_MON_BASE_HI : RegDesc := ⟨0x1a0001c, 0x100, 16, 0x0, 1, 0xfffff, 0x0, 0x0, 0x0, 0x0, 0x0, .high, .room, .room⟩
def NUM_TRAP_CTL : RegDesc := ⟨0x1a00020, 0x100, 16, 0x0, 1, 0x7, 0x0, 0x0, 0x0, 0x0, 0x0, .single, .room, .room⟩
def NUM_STATUS : RegDesc := ⟨0x1a00024, 0x100, 16, 0x0, 1, 0x0, 0x1f, 0x0, 0x0, 0x0, 0x0, .single, .room, .room⟩
def NUM_SAT_CNT : RegDesc := ⟨0x1a00028, 0x100, 16, 0x0, 1, 0x0, 0x0, 0x0, 0xffffffff, 0x0, 0x0, .single, .room, .room⟩
def NUM_NAN_CNT : RegDesc := ⟨0x1a0002c, 0x100, 16, 0x0, 1, 0x0, 0x0, 0x0, 0xffffffff, 0x0, 0x0, .single, .room, .room⟩
def NUM_MON_DIS_CNT : RegDesc := ⟨0x1a00030, 0x100, 16, 0x0, 1, 0x0, 0x0, 0x0, 0xffffffff, 0x0, 0x0, .single, .room, .room⟩
def NUM_MON_FAULT_CNT : RegDesc := ⟨0x1a00034, 0x100, 16, 0x0, 1, 0x0, 0x0, 0x0, 0xffffffff, 0x0, 0x0, .single, .room, .room⟩
def NUM_CLASS_CTL : RegDesc := ⟨0x1a00038, 0x100, 16, 0x0, 1, 0xffff, 0x0, 0x0, 0x0, 0x0, 0x90c6, .single, .room, .room⟩
def NUM_AGREE_CNT : RegDesc := ⟨0x1a0003c, 0x100, 16, 0x0, 1, 0x0, 0x0, 0x0, 0xffffffff, 0x0, 0x0, .single, .room, .room⟩
def NUM_GEN : RegDesc := ⟨0x1a01000, 0x0, 1, 0x0, 1, 0x0, 0x0, 0x0, 0x0, 0x0, 0x2, .single, .none, .none⟩
/-- The words of the FLT_LOG ring, each read by itself (R530). Log: 185 (DESIGN CHOICE). -/
def FLT_LOG : RegDesc := ⟨0x1b00000, 0x20, 512, 0x4, 8, 0x0, 0x0, 0x0, 0x0, 0x0, 0x0, .single, .none, .none⟩
def FLT_LOG_CE : RegDesc := ⟨0x1b04000, 0x4, 1024, 0x0, 1, 0x0, 0x0, 0x0, 0xffffffff, 0x0, 0x0, .single, .spindle, .none⟩
def FLT_SPX_STAT : RegDesc := ⟨0x1b05000, 0x4, 1024, 0x0, 1, 0x0, 0x0, 0x0, 0x0, 0x0, 0x0, .single, .none, .none⟩
def FLT_ENG_STAT : RegDesc := ⟨0x1b06000, 0x4, 122, 0x0, 1, 0x0, 0x0, 0x0, 0x0, 0x0, 0x0, .single, .none, .none⟩
def FLT_CTL : RegDesc := ⟨0x1b07000, 0x0, 1, 0x0, 1, 0x7fffffff, 0x0, 0x0, 0x0, 0x0, 0x20007083, .single, .none, .none⟩
def FLT_STAT : RegDesc := ⟨0x1b07004, 0x0, 1, 0x0, 1, 0x0, 0x1f, 0x0, 0x0, 0x0, 0x0, .single, .none, .none⟩
def FLT_LOG_WR : RegDesc := ⟨0x1b07008, 0x0, 1, 0x0, 1, 0x0, 0x0, 0x0, 0x0, 0x0, 0x0, .single, .none, .none⟩
def FLT_LOG_RD : RegDesc := ⟨0x1b0700c, 0x0, 1, 0x0, 1, 0xffffffff, 0x0, 0x0, 0x0, 0x0, 0x0, .single, .none, .none⟩
def FLT_LOST_CNT : RegDesc := ⟨0x1b07010, 0x0, 1, 0x0, 1, 0x0, 0x0, 0x0, 0xffffffff, 0x0, 0x0, .single, .none, .none⟩
def FLT_DEGRADED : RegDesc := ⟨0x1b07014, 0x0, 1, 0x0, 1, 0x0, 0x0, 0x0, 0x0, 0x0, 0x0, .single, .all, .none⟩
def FLT_MESH_CNT : RegDesc := ⟨0x1b07018, 0x0, 1, 0x0, 1, 0x0, 0x0, 0x0, 0xffffffff, 0x0, 0x0, .single, .none, .none⟩
def FLT_SPX_CTL : RegDesc := ⟨0x1b0701c, 0x0, 1, 0x0, 1, 0x3ff, 0x0, 0x0, 0x0, 0x400, 0x0, .single, .none, .none⟩
def AGE_CTL : RegDesc := ⟨0x1c00000, 0x0, 1, 0x0, 1, 0x7fffffff, 0x0, 0x0, 0x0, 0x0, 0x50643048, .single, .none, .none⟩
def AGE_CTL2 : RegDesc := ⟨0x1c00004, 0x0, 1, 0x0, 1, 0xffff, 0x0, 0x0, 0x0, 0x0, 0x440, .single, .none, .none⟩
def AGE_STAT : RegDesc := ⟨0x1c00008, 0x0, 1, 0x0, 1, 0x0, 0xf, 0x0, 0x0, 0x0, 0x0, .single, .none, .none⟩
def AGE_REPORT : RegDesc := ⟨0x1c0000c, 0x0, 1, 0x0, 1, 0x0, 0x0, 0x0, 0x0, 0x0, 0x0, .single, .none, .none⟩
def AGE_TERM_LEFT : RegDesc := ⟨0x1c00010, 0x0, 1, 0x0, 1, 0x0, 0x0, 0x0, 0x0, 0x0, 0x10e0, .single, .none, .none⟩
def AGE_CARD_ADDR_LO : RegDesc := ⟨0x1c00014, 0x0, 1, 0x0, 1, 0xffffffff, 0x0, 0x0, 0x0, 0x0, 0x0, .low, .none, .none⟩
def AGE_CARD_ADDR_HI : RegDesc := ⟨0x1c00018, 0x0, 1, 0x0, 1, 0xfffff, 0x0, 0x0, 0x0, 0x0, 0x0, .high, .none, .none⟩
def AGE_CARD_CTL : RegDesc := ⟨0x1c0001c, 0x0, 1, 0x0, 1, 0x2, 0x4, 0x1, 0x0, 0x0, 0x0, .single, .none, .none⟩
def AGE_VOFF : RegDesc := ⟨0x1c00100, 0x4, 16, 0x0, 1, 0x0, 0x0, 0x0, 0x0, 0x0, 0x0, .single, .none, .none⟩
def AGE_MARGIN : RegDesc := ⟨0x1c01000, 0x4, 1024, 0x0, 1, 0x0, 0x0, 0x0, 0x0, 0x0, 0xffff, .single, .spindle, .none⟩
def PWR_LIMIT : RegDesc := ⟨0x1d00000, 0x0, 1, 0x0, 1, 0x3ffffff, 0x0, 0x0, 0x0, 0x0, 0x1f41964, .single, .none, .none⟩
def PWR_RAMP : RegDesc := ⟨0x1d00004, 0x0, 1, 0x0, 1, 0xfffff, 0x0, 0x0, 0x0, 0x0, 0x320c8, .single, .none, .none⟩
def PWR_FLOOR : RegDesc := ⟨0x1d00008, 0x0, 1, 0x0, 1, 0x3ffffff, 0x0, 0x0, 0x0, 0x0, 0x1770000, .single, .none, .none⟩
def PWR_ADV_CTL : RegDesc := ⟨0x1d0000c, 0x0, 1, 0x0, 1, 0x3fffffff, 0x0, 0x0, 0x0, 0x0, 0x21f407d0, .single, .none, .none⟩
def PWR_STAT : RegDesc := ⟨0x1d00010, 0x0, 1, 0x0, 1, 0x0, 0x7c00, 0x0, 0x0, 0x0, 0x1e0, .single, .all, .none⟩
def PWR_INPUT : RegDesc := ⟨0x1d00014, 0x0, 1, 0x0, 1, 0x0, 0x0, 0x0, 0x0, 0x0, 0x0, .single, .all, .none⟩
def PWR_STEP_CNT : RegDesc := ⟨0x1d00018, 0x0, 1, 0x0, 1, 0x0, 0x0, 0x0, 0xffffffff, 0x0, 0x0, .single, .none, .none⟩
def PWR_RAMP_CNT : RegDesc := ⟨0x1d0001c, 0x0, 1, 0x0, 1, 0x0, 0x0, 0x0, 0xffffffff, 0x0, 0x0, .single, .none, .none⟩
def PWR_RECESS : RegDesc := ⟨0x1d00020, 0x0, 1, 0x0, 1, 0xc, 0x0, 0x0, 0x0, 0x3, 0x4, .single, .none, .none⟩
def PWR_WAKE_AT_LO : RegDesc := ⟨0x1d00024, 0x0, 1, 0x0, 1, 0xffffffff, 0x0, 0x0, 0x0, 0x0, 0x0, .low, .none, .none⟩
def PWR_WAKE_AT_HI : RegDesc := ⟨0x1d00028, 0x0, 1, 0x0, 1, 0xffffffff, 0x0, 0x0, 0x0, 0x0, 0x0, .high, .none, .none⟩
def PWR_WAKE_SEND : RegDesc := ⟨0x1d0002c, 0x0, 1, 0x0, 1, 0x0, 0x0, 0x0, 0x0, 0xfff, 0x0, .single, .none, .none⟩
def THM_FLOW_CTL : RegDesc := ⟨0x1e00000, 0x0, 1, 0x0, 1, 0x3ffff, 0x0, 0x0, 0x0, 0x0, 0x3fd54, .single, .none, .none⟩
def THM_PI : RegDesc := ⟨0x1e00004, 0x0, 1, 0x0, 1, 0xffffffff, 0x0, 0x0, 0x0, 0x0, 0x140032, .single, .none, .none⟩
def THM_FF : RegDesc := ⟨0x1e00008, 0x0, 1, 0x0, 1, 0xffffffff, 0x0, 0x0, 0x0, 0x0, 0x3e807d0, .single, .none, .none⟩
def THM_COOL : RegDesc := ⟨0x1e0000c, 0x0, 1, 0x0, 1, 0xfffffff, 0x0, 0x0, 0x0, 0x0, 0x258270, .single, .none, .none⟩
def THM_TEMP0 : RegDesc := ⟨0x1e00010, 0x0, 1, 0x0, 1, 0x0, 0x0, 0x0, 0x0, 0x0, 0x0, .single, .none, .none⟩
def THM_TEMP1 : RegDesc := ⟨0x1e00014, 0x0, 1, 0x0, 1, 0x0, 0x0, 0x0, 0x0, 0x0, 0x0, .single, .none, .none⟩
def THM_FLOW : RegDesc := ⟨0x1e00018, 0x0, 1, 0x0, 1, 0x0, 0x0, 0x0, 0x0, 0x0, 0x0, .single, .none, .none⟩
def THM_DEMAND : RegDesc := ⟨0x1e0001c, 0x0, 1, 0x0, 1, 0x0, 0x0, 0x0, 0x0, 0x0, 0xffff0000, .single, .none, .none⟩
def THM_TJ : RegDesc := ⟨0x1e00020, 0x0, 1, 0x0, 1, 0x0, 0x0, 0x0, 0x0, 0x0, 0x0, .single, .all, .none⟩
def THM_STAT : RegDesc := ⟨0x1e00024, 0x0, 1, 0x0, 1, 0x0, 0x3f, 0x0, 0x0, 0x0, 0x0, .single, .none, .none⟩
def TIME_NOW_LO : RegDesc := ⟨0x1f00000, 0x0, 1, 0x0, 1, 0x0, 0x0, 0x0, 0x0, 0x0, 0x0, .low, .all, .none⟩
def TIME_NOW_HI : RegDesc := ⟨0x1f00004, 0x0, 1, 0x0, 1, 0x0, 0x0, 0x0, 0x0, 0x0, 0x0, .high, .all, .none⟩
def TIME_CTL : RegDesc := ⟨0x1f00008, 0x0, 1, 0x0, 1, 0x3f, 0x0, 0x0, 0x0, 0x0, 0x0, .single, .none, .none⟩
def TIME_STAT : RegDesc := ⟨0x1f0000c, 0x0, 1, 0x0, 1, 0x0, 0x18, 0x0, 0x0, 0x0, 0x0, .single, .all, .none⟩
def TIME_OFFSET : RegDesc := ⟨0x1f00010, 0x0, 1, 0x0, 1, 0x0, 0x0, 0x0, 0x0, 0x0, 0x0, .single, .none, .none⟩
def TIME_TOD_NEXT_LO : RegDesc := ⟨0x1f00014, 0x0, 1, 0x0, 1, 0xffffffff, 0x0, 0x0, 0x0, 0x0, 0x0, .low, .none, .none⟩
def TIME_TOD_NEXT_HI : RegDesc := ⟨0x1f00018, 0x0, 1, 0x0, 1, 0xffffffff, 0x0, 0x0, 0x0, 0x0, 0x0, .high, .none, .none⟩

def SYS_ID0.PART : Field := ⟨SYS_ID0, 0, 16⟩
def SYS_ID0.STEPPING : Field := ⟨SYS_ID0, 16, 8⟩
def SYS_ID0.GEN : Field := ⟨SYS_ID0, 24, 8⟩
def SYS_ID1.VARIANT : Field := ⟨SYS_ID1, 0, 1⟩
def SYS_ID2.SERIAL : Field := ⟨SYS_ID2, 0, 32⟩
def SYS_ID3.SERIAL : Field := ⟨SYS_ID3, 0, 32⟩
def SYS_CAP0.N_ACTIVE : Field := ⟨SYS_CAP0, 0, 10⟩
def SYS_CAP0.BENCHES : Field := ⟨SYS_CAP0, 10, 8⟩
def SYS_CAP0.ADDERS : Field := ⟨SYS_CAP0, 18, 6⟩
def SYS_CAP0.UPD_ENGINES : Field := ⟨SYS_CAP0, 24, 4⟩
def SYS_CAP1.FT_DEAD : Field := ⟨SYS_CAP1, 0, 9⟩
def SYS_CAP1.CT_DEAD : Field := ⟨SYS_CAP1, 9, 7⟩
def SYS_CAP1.KL_LANES : Field := ⟨SYS_CAP1, 16, 6⟩
def SYS_CAP1.MEDIA_ENGINES : Field := ⟨SYS_CAP1, 22, 7⟩
def SYS_STATUS.READY : Field := ⟨SYS_STATUS, 0, 1⟩
def SYS_STATUS.DEGRADED : Field := ⟨SYS_STATUS, 1, 1⟩
def SYS_STATUS.FATAL : Field := ⟨SYS_STATUS, 2, 1⟩
def SYS_STATUS.BOOT_FAIL : Field := ⟨SYS_STATUS, 3, 1⟩
def SYS_STATUS.FW_RUN : Field := ⟨SYS_STATUS, 4, 1⟩
def SYS_STATUS.RECESS : Field := ⟨SYS_STATUS, 5, 2⟩
def SYS_STATUS.TRIP : Field := ⟨SYS_STATUS, 7, 1⟩
def SYS_STATUS.TIME_LOCKED : Field := ⟨SYS_STATUS, 8, 1⟩
def SYS_FW_VER.FW_VER : Field := ⟨SYS_FW_VER, 0, 32⟩
def SYS_RESET.DEVICE : Field := ⟨SYS_RESET, 0, 1⟩
def SYS_RESET.KEY : Field := ⟨SYS_RESET, 16, 16⟩
def INT_STATUS.GROUPS : Field := ⟨INT_STATUS, 0, 32⟩
def INT_MASK.MASK : Field := ⟨INT_MASK, 0, 32⟩
def INT_LEVEL.LEVEL : Field := ⟨INT_LEVEL, 0, 32⟩
def INT_VSTATUS.GROUPS : Field := ⟨INT_VSTATUS, 0, 32⟩
def INT_VMASK.MASK : Field := ⟨INT_VMASK, 0, 32⟩
def ROOM_CTL.HOLD : Field := ⟨ROOM_CTL, 0, 1⟩
def ROOM_CTL.TILE_PREEMPT : Field := ⟨ROOM_CTL, 1, 1⟩
def ROOM_STATUS.STATE : Field := ⟨ROOM_STATUS, 0, 3⟩
def ROOM_STATUS.HOLD_CAUSE : Field := ⟨ROOM_STATUS, 3, 4⟩
def ROOM_STATUS.KIND : Field := ⟨ROOM_STATUS, 7, 2⟩
def ROOM_STATUS.CEILING : Field := ⟨ROOM_STATUS, 9, 2⟩
def ROOM_STATUS.SLOTS : Field := ⟨ROOM_STATUS, 11, 2⟩
def ROOM_STATUS.SLOTS_USED : Field := ⟨ROOM_STATUS, 13, 2⟩
def ROOM_STATUS.SWITCHING : Field := ⟨ROOM_STATUS, 15, 1⟩
def ROOM_STATUS.HELD_EV : Field := ⟨ROOM_STATUS, 16, 1⟩
def ROOM_SAVE_ADDR_LO.ADDR_LO : Field := ⟨ROOM_SAVE_ADDR_LO, 0, 32⟩
def ROOM_SAVE_ADDR_HI.ADDR_HI : Field := ⟨ROOM_SAVE_ADDR_HI, 0, 20⟩
def ROOM_SAVE_SIZE.UNITS : Field := ⟨ROOM_SAVE_SIZE, 0, 24⟩
def ROOM_PREEMPT_CNT.COUNT : Field := ⟨ROOM_PREEMPT_CNT, 0, 32⟩
def ROOM_DEFER_CNT.COUNT : Field := ⟨ROOM_DEFER_CNT, 0, 32⟩
def ROOM_SWITCH_NS.NS : Field := ⟨ROOM_SWITCH_NS, 0, 32⟩
def ROOM_RUN.QUEUE : Field := ⟨ROOM_RUN, 0, 14⟩
def ROOM_RUN.LEVEL : Field := ⟨ROOM_RUN, 14, 2⟩
def ROOM_RUN.VALID : Field := ⟨ROOM_RUN, 16, 1⟩
def ROOM_PHASE_CNT.COUNT : Field := ⟨ROOM_PHASE_CNT, 0, 32⟩
def ROOM_PHASE_STAT.LAST_VAR : Field := ⟨ROOM_PHASE_STAT, 0, 3⟩
def ROOM_PHASE_STAT.SAVED_EV : Field := ⟨ROOM_PHASE_STAT, 3, 1⟩
def ROOM_PHASE_STAT.DEFER_EV : Field := ⟨ROOM_PHASE_STAT, 4, 1⟩
def ROOM_PHASE_STAT.WAITING : Field := ⟨ROOM_PHASE_STAT, 5, 1⟩
def TT_ROUND.ROUND_NS : Field := ⟨TT_ROUND, 0, 32⟩
def TT_BELL_WIN.W_NS : Field := ⟨TT_BELL_WIN, 0, 32⟩
def TT_CTL.BELL_SRC : Field := ⟨TT_CTL, 0, 2⟩
def TT_CTL.BELL_OUT_EN : Field := ⟨TT_CTL, 2, 1⟩
def TT_BELL_STAT.FREE_RUN : Field := ⟨TT_BELL_STAT, 0, 1⟩
def TT_BELL_STAT.FREE_RUN_EV : Field := ⟨TT_BELL_STAT, 1, 1⟩
def TT_BELL_STAT.TRUNC : Field := ⟨TT_BELL_STAT, 2, 1⟩
def TT_BELL_STAT.CAPTURED : Field := ⟨TT_BELL_STAT, 3, 1⟩
def TT_BELL_STAT.MISS_RUN : Field := ⟨TT_BELL_STAT, 4, 2⟩
def TT_BELL_MISS.COUNT : Field := ⟨TT_BELL_MISS, 0, 32⟩
def TT_BELL_OUT.COUNT : Field := ⟨TT_BELL_OUT, 0, 32⟩
def TT_SHIFT.SHIFT_NS : Field := ⟨TT_SHIFT, 0, 32⟩
def TT_ROUND_CNT_LO.COUNT : Field := ⟨TT_ROUND_CNT_LO, 0, 32⟩
def TT_ROUND_CNT_HI.COUNT : Field := ⟨TT_ROUND_CNT_HI, 0, 32⟩
def TT_EPOCH.EPOCH : Field := ⟨TT_EPOCH, 0, 32⟩
def TT_FREE.FREE : Field := ⟨TT_FREE, 0, 9⟩
def TT_ROUND_START_LO.TIME : Field := ⟨TT_ROUND_START_LO, 0, 32⟩
def TT_ROUND_START_HI.TIME : Field := ⟨TT_ROUND_START_HI, 0, 32⟩
def QUE_BASE_LO.ADDR_LO : Field := ⟨QUE_BASE_LO, 0, 32⟩
def QUE_BASE_HI.ADDR_HI : Field := ⟨QUE_BASE_HI, 0, 32⟩
def QUE_SIZE.LOG2 : Field := ⟨QUE_SIZE, 0, 5⟩
def QUE_CTL.ENABLE : Field := ⟨QUE_CTL, 0, 1⟩
def QUE_CTL.LOC : Field := ⟨QUE_CTL, 1, 1⟩
def QUE_CTL.LEVEL : Field := ⟨QUE_CTL, 2, 2⟩
def QUE_CTL.ROOM : Field := ⟨QUE_CTL, 4, 4⟩
def QUE_CTL.BOUND : Field := ⟨QUE_CTL, 8, 1⟩
def QUE_HEAD.HEAD : Field := ⟨QUE_HEAD, 0, 16⟩
def QUE_TAIL.TAIL : Field := ⟨QUE_TAIL, 0, 16⟩
def QUE_STAT.CODE : Field := ⟨QUE_STAT, 0, 16⟩
def QUE_STAT.ERR : Field := ⟨QUE_STAT, 16, 1⟩
def QUE_STAT.DB_IGN : Field := ⟨QUE_STAT, 17, 1⟩
def QUE_DONE_CNT.COUNT : Field := ⟨QUE_DONE_CNT, 0, 32⟩
def SEM_STATE.HELD : Field := ⟨SEM_STATE, 0, 1⟩
def SEM_STATE.ROOM : Field := ⟨SEM_STATE, 1, 4⟩
def SEM_STATE.LEVEL : Field := ⟨SEM_STATE, 5, 2⟩
def SEM_STATE.RAISED : Field := ⟨SEM_STATE, 7, 1⟩
def SEM_STATE.RAISED_LEVEL : Field := ⟨SEM_STATE, 8, 2⟩
def SEM_STATE.BROKEN : Field := ⟨SEM_STATE, 10, 1⟩
def SEM_STATE.WAITERS : Field := ⟨SEM_STATE, 11, 8⟩
def SEM_STATE.FORCE_REL : Field := ⟨SEM_STATE, 31, 1⟩
def SEM_ACL.ROOMS : Field := ⟨SEM_ACL, 0, 16⟩
def SEM_OWNER.QUEUE : Field := ⟨SEM_OWNER, 0, 14⟩
def SEM_OWNER.SEQ : Field := ⟨SEM_OWNER, 16, 16⟩
def CFG_LOAD.GO : Field := ⟨CFG_LOAD, 0, 1⟩
def CFG_LOAD.OP : Field := ⟨CFG_LOAD, 1, 3⟩
def CFG_IMG_ADDR_LO.ADDR_LO : Field := ⟨CFG_IMG_ADDR_LO, 0, 32⟩
def CFG_IMG_ADDR_HI.ADDR_HI : Field := ⟨CFG_IMG_ADDR_HI, 0, 20⟩
def CFG_IMG_SIZE.SIZE : Field := ⟨CFG_IMG_SIZE, 0, 20⟩
def CFG_STATUS.CODE : Field := ⟨CFG_STATUS, 0, 16⟩
def CFG_STATUS.BUSY : Field := ⟨CFG_STATUS, 16, 1⟩
def CFG_STATUS.DONE : Field := ⟨CFG_STATUS, 17, 1⟩
def CFG_STATUS.FAIL : Field := ⟨CFG_STATUS, 18, 1⟩
def CFG_STATUS.LATE : Field := ⟨CFG_STATUS, 19, 1⟩
def CFG_STATUS.ACTIVE_VAR : Field := ⟨CFG_STATUS, 20, 3⟩
def CFG_STATUS.STANDBY_VAR : Field := ⟨CFG_STATUS, 23, 3⟩
def CFG_STATUS.STANDBY_VALID : Field := ⟨CFG_STATUS, 26, 1⟩
def CFG_VAR_SEL.NEXT : Field := ⟨CFG_VAR_SEL, 0, 3⟩
def CFG_LATE_CNT.COUNT : Field := ⟨CFG_LATE_CNT, 0, 32⟩
def CFG_SWITCH_CNT.COUNT : Field := ⟨CFG_SWITCH_CNT, 0, 32⟩
def CFG_SAVE_REQ.UNITS : Field := ⟨CFG_SAVE_REQ, 0, 24⟩
def CFG_DIGEST.DIGEST : Field := ⟨CFG_DIGEST, 0, 32⟩
def CFG_KEY_STAT.SLOT0 : Field := ⟨CFG_KEY_STAT, 0, 2⟩
def CFG_KEY_STAT.SLOT1 : Field := ⟨CFG_KEY_STAT, 2, 2⟩
def CFG_KEY_STAT.SLOT2 : Field := ⟨CFG_KEY_STAT, 4, 2⟩
def CFG_KEY_STAT.SLOT3 : Field := ⟨CFG_KEY_STAT, 6, 2⟩
def CFG_XD_FREE0.T0_T1 : Field := ⟨CFG_XD_FREE0, 0, 6⟩
def CFG_XD_FREE0.T1_T0 : Field := ⟨CFG_XD_FREE0, 8, 6⟩
def CFG_XD_FREE0.T0_T2 : Field := ⟨CFG_XD_FREE0, 16, 6⟩
def CFG_XD_FREE0.T2_T0 : Field := ⟨CFG_XD_FREE0, 24, 6⟩
def CFG_XD_FREE1.T1_T3 : Field := ⟨CFG_XD_FREE1, 0, 6⟩
def CFG_XD_FREE1.T3_T1 : Field := ⟨CFG_XD_FREE1, 8, 6⟩
def CFG_XD_FREE1.T2_T3 : Field := ⟨CFG_XD_FREE1, 16, 6⟩
def CFG_XD_FREE1.T3_T2 : Field := ⟨CFG_XD_FREE1, 24, 6⟩
def SPX_REMAP.PHYS : Field := ⟨SPX_REMAP, 0, 6⟩
def SPX_REMAP.SPARE : Field := ⟨SPX_REMAP, 6, 1⟩
def SPX_REMAP.MAPPED : Field := ⟨SPX_REMAP, 7, 1⟩
def SPX_DIE_STAT.SPARES_FREE : Field := ⟨SPX_DIE_STAT, 0, 3⟩
def SPX_DIE_STAT.RETIRED : Field := ⟨SPX_DIE_STAT, 8, 7⟩
def SPX_DIE_STAT.DEGRADED : Field := ⟨SPX_DIE_STAT, 15, 1⟩
def SPX_STATE.STATE : Field := ⟨SPX_STATE, 0, 2⟩
def SPX_STATE.SWBOX_OK : Field := ⟨SPX_STATE, 2, 1⟩
def SPX_STATE.BOUND : Field := ⟨SPX_STATE, 3, 1⟩
def SPX_STATE.ROOM : Field := ⟨SPX_STATE, 4, 4⟩
def SPX_STATE.LPOS : Field := ⟨SPX_STATE, 8, 6⟩
def SPX_LINK_CE.COUNT : Field := ⟨SPX_LINK_CE, 0, 32⟩
def SPX_NOTE_DROP.COUNT : Field := ⟨SPX_NOTE_DROP, 0, 32⟩
def SPX_WIN_STAT.WR_DROP : Field := ⟨SPX_WIN_STAT, 0, 1⟩
def SPX_WIN_DROP.COUNT : Field := ⟨SPX_WIN_DROP, 0, 32⟩
def SPX_REMAP_GEN.GEN : Field := ⟨SPX_REMAP_GEN, 0, 32⟩
def SPX_MX_TILE_CNT.COUNT : Field := ⟨SPX_MX_TILE_CNT, 0, 32⟩
def SPX_MX_STALL_CNT.COUNT : Field := ⟨SPX_MX_STALL_CNT, 0, 32⟩
def SPX_MX_KLONG_CNT.COUNT : Field := ⟨SPX_MX_KLONG_CNT, 0, 32⟩
def SPX_MX_STAT.ACC_MODE : Field := ⟨SPX_MX_STAT, 0, 2⟩
def SPX_MX_STAT.BUSY : Field := ⟨SPX_MX_STAT, 2, 1⟩
def SPX_MX_STAT.ACTIVE : Field := ⟨SPX_MX_STAT, 3, 1⟩
def SPX_MX_STAT.DRAINING : Field := ⟨SPX_MX_STAT, 4, 1⟩
def SPX_MX_STAT.IN_USE0 : Field := ⟨SPX_MX_STAT, 5, 1⟩
def SPX_MX_STAT.IN_USE1 : Field := ⟨SPX_MX_STAT, 6, 1⟩
def SPX_VX_STAT.IP : Field := ⟨SPX_VX_STAT, 0, 12⟩
def SPX_VX_STAT.DEPTH : Field := ⟨SPX_VX_STAT, 12, 3⟩
def SPX_VX_STAT.WAITING : Field := ⟨SPX_VX_STAT, 15, 1⟩
def SPX_VX_STAT.COND : Field := ⟨SPX_VX_STAT, 16, 4⟩
def SPX_VX_STAT.STOPPED : Field := ⟨SPX_VX_STAT, 20, 1⟩
def SPX_VX_STAT.RUNNING : Field := ⟨SPX_VX_STAT, 21, 1⟩
def SPX_VX_ISSUE_CNT.COUNT : Field := ⟨SPX_VX_ISSUE_CNT, 0, 32⟩
def SPX_VX_WAIT_CNT.COUNT : Field := ⟨SPX_VX_WAIT_CNT, 0, 32⟩
def SPX_VX_DESK_CNT.COUNT : Field := ⟨SPX_VX_DESK_CNT, 0, 32⟩
def MEM_CHAN_STATE.STATE : Field := ⟨MEM_CHAN_STATE, 0, 3⟩
def MEM_CHAN_STATE.MARGINAL : Field := ⟨MEM_CHAN_STATE, 3, 1⟩
def MEM_CHAN_STATE.HOSTED : Field := ⟨MEM_CHAN_STATE, 4, 6⟩
def MEM_CE_CNT.COUNT : Field := ⟨MEM_CE_CNT, 0, 32⟩
def MEM_UE_CNT.COUNT : Field := ⟨MEM_UE_CNT, 0, 32⟩
def MEM_RETRAIN_CNT.COUNT : Field := ⟨MEM_RETRAIN_CNT, 0, 32⟩
def MEM_CHAN_CTL.RETIRE : Field := ⟨MEM_CHAN_CTL, 0, 1⟩
def MEM_CHAN_CTL.RETRAIN : Field := ⟨MEM_CHAN_CTL, 1, 1⟩
def MEM_FT_BASE_LO.ADDR : Field := ⟨MEM_FT_BASE_LO, 0, 32⟩
def MEM_FT_BASE_HI.ADDR : Field := ⟨MEM_FT_BASE_HI, 0, 20⟩
def MEM_FT_SIZE.UNITS : Field := ⟨MEM_FT_SIZE, 0, 20⟩
def MEM_CT_BASE_LO.ADDR : Field := ⟨MEM_CT_BASE_LO, 0, 32⟩
def MEM_CT_BASE_HI.ADDR : Field := ⟨MEM_CT_BASE_HI, 0, 20⟩
def MEM_CT_SIZE.UNITS : Field := ⟨MEM_CT_SIZE, 0, 22⟩
def MEM_REG_BUDGET.SHARE : Field := ⟨MEM_REG_BUDGET, 0, 10⟩
def MEM_REG_BUDGET.PROFILE : Field := ⟨MEM_REG_BUDGET, 10, 2⟩
def MEM_REG_BUDGET.HELD : Field := ⟨MEM_REG_BUDGET, 12, 1⟩
def MEM_REG_BAL.BAL : Field := ⟨MEM_REG_BAL, 0, 32⟩
def MEM_REG_HOLD_CNT.COUNT : Field := ⟨MEM_REG_HOLD_CNT, 0, 32⟩
def MEM_ROOM_STAT.POISON_EV : Field := ⟨MEM_ROOM_STAT, 0, 1⟩
def MEM_ROOM_STAT.WIN_EV : Field := ⟨MEM_ROOM_STAT, 1, 1⟩
def MEM_STATUS.RETRAIN_EV : Field := ⟨MEM_STATUS, 0, 1⟩
def MEM_STATUS.RETIRE_EV : Field := ⟨MEM_STATUS, 1, 1⟩
def MEM_STATUS.MIG_DONE_EV : Field := ⟨MEM_STATUS, 2, 1⟩
def MEM_STATUS.POISON_EV : Field := ⟨MEM_STATUS, 3, 1⟩
def MEM_STATUS.DEAD_EV : Field := ⟨MEM_STATUS, 4, 1⟩
def MEM_STATUS.SPARE_EV : Field := ⟨MEM_STATUS, 5, 1⟩
def MEM_RT_CTL.CE_THRESH : Field := ⟨MEM_RT_CTL, 0, 16⟩
def MEM_RT_CTL.RETIRE_N : Field := ⟨MEM_RT_CTL, 16, 4⟩
def MEM_RT_CTL.WIN_MS : Field := ⟨MEM_RT_CTL, 20, 12⟩
def MEM_SCRUB_CTL.PERIOD_H : Field := ⟨MEM_SCRUB_CTL, 0, 8⟩
def MEM_SCRUB_CTL.RECESS_H : Field := ⟨MEM_SCRUB_CTL, 8, 8⟩
def MEM_SCRUB_CTL.EN : Field := ⟨MEM_SCRUB_CTL, 16, 1⟩
def MEM_SCRUB_STAT.PROGRESS : Field := ⟨MEM_SCRUB_STAT, 0, 7⟩
def MEM_SPARE_STAT.FREE : Field := ⟨MEM_SPARE_STAT, 0, 14⟩
def MEM_SPARE_STAT.RETIRED : Field := ⟨MEM_SPARE_STAT, 14, 3⟩
def MEM_MIG_CTL.RATE : Field := ⟨MEM_MIG_CTL, 0, 7⟩
def MEM_MIG_STAT.CHAN : Field := ⟨MEM_MIG_STAT, 0, 9⟩
def MEM_MIG_STAT.ACTIVE : Field := ⟨MEM_MIG_STAT, 9, 1⟩
def MEM_MIG_STAT.EXT_DONE : Field := ⟨MEM_MIG_STAT, 10, 12⟩
def MEM_ERR_INFO.CHAN : Field := ⟨MEM_ERR_INFO, 0, 9⟩
def MEM_ERR_INFO.KIND : Field := ⟨MEM_ERR_INFO, 9, 3⟩
def MEM_ERR_ADDR_LO.ADDR : Field := ⟨MEM_ERR_ADDR_LO, 0, 32⟩
def MEM_ERR_ADDR_HI.ADDR : Field := ⟨MEM_ERR_ADDR_HI, 0, 20⟩
def STR_STAT.RUNNING : Field := ⟨STR_STAT, 0, 1⟩
def STR_STAT.QUIESCING : Field := ⟨STR_STAT, 1, 1⟩
def STR_STAT.GEN : Field := ⟨STR_STAT, 2, 8⟩
def STR_STAT.RD_OUT : Field := ⟨STR_STAT, 10, 9⟩
def STR_STAT.WR_OUT : Field := ⟨STR_STAT, 19, 8⟩
def STR_ROOM_STAT.ABORT_EV : Field := ⟨STR_ROOM_STAT, 0, 1⟩
def STR_ERR_INFO.CODE : Field := ⟨STR_ERR_INFO, 0, 16⟩
def STR_ERR_INFO.STREAM : Field := ⟨STR_ERR_INFO, 16, 6⟩
def STR_ERR_INFO.LSPINDLE : Field := ⟨STR_ERR_INFO, 22, 10⟩
def STR_ERR_UNIT.UNIT : Field := ⟨STR_ERR_UNIT, 0, 32⟩
def STR_ERR_ADDR_LO.ADDR : Field := ⟨STR_ERR_ADDR_LO, 0, 32⟩
def STR_ERR_ADDR_HI.ADDR : Field := ⟨STR_ERR_ADDR_HI, 0, 20⟩
def STR_WASTE_BYTES_LO.BYTES : Field := ⟨STR_WASTE_BYTES_LO, 0, 32⟩
def STR_WASTE_BYTES_HI.BYTES : Field := ⟨STR_WASTE_BYTES_HI, 0, 32⟩
def STR_ABORT_CNT.COUNT : Field := ⟨STR_ABORT_CNT, 0, 32⟩
def STR_SPLIT.RD : Field := ⟨STR_SPLIT, 0, 8⟩
def STR_SPLIT.WR : Field := ⟨STR_SPLIT, 8, 8⟩
def STR_SPLIT.RM : Field := ⟨STR_SPLIT, 16, 8⟩
def DMA_CH_CTL.GO : Field := ⟨DMA_CH_CTL, 0, 1⟩
def DMA_CH_CTL.STOP : Field := ⟨DMA_CH_CTL, 1, 1⟩
def DMA_CH_CTL.ABANDON : Field := ⟨DMA_CH_CTL, 2, 1⟩
def DMA_CH_CTL.LEVEL : Field := ⟨DMA_CH_CTL, 3, 2⟩
def DMA_CH_CTL.DESC_LOC : Field := ⟨DMA_CH_CTL, 5, 1⟩
def DMA_CH_CTL.ROOM_EN : Field := ⟨DMA_CH_CTL, 6, 1⟩
def DMA_CH_CTL.ROOM : Field := ⟨DMA_CH_CTL, 7, 4⟩
def DMA_CH_NEXT_LO.ADDR : Field := ⟨DMA_CH_NEXT_LO, 0, 32⟩
def DMA_CH_NEXT_HI.ADDR : Field := ⟨DMA_CH_NEXT_HI, 0, 32⟩
def DMA_CH_STAT.STATE : Field := ⟨DMA_CH_STAT, 0, 3⟩
def DMA_CH_STAT.DONE_EV : Field := ⟨DMA_CH_STAT, 3, 1⟩
def DMA_CH_STAT.HALT_EV : Field := ⟨DMA_CH_STAT, 4, 1⟩
def DMA_CH_STAT.POISON_EV : Field := ⟨DMA_CH_STAT, 5, 1⟩
def DMA_CH_STAT.CODE : Field := ⟨DMA_CH_STAT, 16, 16⟩
def DMA_CH_ERR_ADDR_LO.ADDR : Field := ⟨DMA_CH_ERR_ADDR_LO, 0, 32⟩
def DMA_CH_ERR_ADDR_HI.ADDR : Field := ⟨DMA_CH_ERR_ADDR_HI, 0, 32⟩
def DMA_CH_ERR_INFO.DIR : Field := ⟨DMA_CH_ERR_INFO, 0, 1⟩
def DMA_CH_ERR_INFO.HOST : Field := ⟨DMA_CH_ERR_INFO, 1, 1⟩
def DMA_CH_ERR_INFO.DESC : Field := ⟨DMA_CH_ERR_INFO, 2, 1⟩
def DMA_CH_BYTES.BYTES : Field := ⟨DMA_CH_BYTES, 0, 32⟩
def DMA_CH_DONE_CNT.COUNT : Field := ⟨DMA_CH_DONE_CNT, 0, 32⟩
def DMA_CH_VECTOR.VECTOR : Field := ⟨DMA_CH_VECTOR, 0, 11⟩
def KL_PORT_CTL.EN : Field := ⟨KL_PORT_CTL, 0, 1⟩
def KL_PORT_CTL.RETRAIN : Field := ⟨KL_PORT_CTL, 1, 1⟩
def KL_PORT_CTL.LANE : Field := ⟨KL_PORT_CTL, 2, 2⟩
def KL_PORT_CTL.RETIRE : Field := ⟨KL_PORT_CTL, 4, 1⟩
def KL_PORT_STAT.STATE : Field := ⟨KL_PORT_STAT, 0, 3⟩
def KL_PORT_STAT.LANES : Field := ⟨KL_PORT_STAT, 3, 4⟩
def KL_PORT_STAT.NBR_DEV : Field := ⟨KL_PORT_STAT, 7, 15⟩
def KL_PORT_STAT.NBR_PORT : Field := ⟨KL_PORT_STAT, 22, 4⟩
def KL_PORT_STAT.NBR_VALID : Field := ⟨KL_PORT_STAT, 26, 1⟩
def KL_PORT_STAT.DOWN_EV : Field := ⟨KL_PORT_STAT, 27, 1⟩
def KL_PORT_STAT.LANE_EV : Field := ⟨KL_PORT_STAT, 28, 1⟩
def KL_PORT_STAT.RETRAIN_EV : Field := ⟨KL_PORT_STAT, 29, 1⟩
def KL_CREDIT.C0 : Field := ⟨KL_CREDIT, 0, 8⟩
def KL_CREDIT.C1 : Field := ⟨KL_CREDIT, 8, 8⟩
def KL_CREDIT.C2 : Field := ⟨KL_CREDIT, 16, 8⟩
def KL_CREDIT.C3 : Field := ⟨KL_CREDIT, 24, 8⟩
def KL_REPLAY_CNT.COUNT : Field := ⟨KL_REPLAY_CNT, 0, 32⟩
def KL_RETRAIN_CNT.COUNT : Field := ⟨KL_RETRAIN_CNT, 0, 32⟩
def KL_FEC_UE_CNT.COUNT : Field := ⟨KL_FEC_UE_CNT, 0, 32⟩
def KL_FEC_CE_CNT.COUNT : Field := ⟨KL_FEC_CE_CNT, 0, 32⟩
def KL_DEV_ID.ID : Field := ⟨KL_DEV_ID, 0, 15⟩
def KL_LANE_CTL.SER_EXP : Field := ⟨KL_LANE_CTL, 0, 5⟩
def KL_LANE_CTL.LOL_N : Field := ⟨KL_LANE_CTL, 5, 4⟩
def KL_BELL_CTL.MASTER : Field := ⟨KL_BELL_CTL, 0, 1⟩
def KL_BELL_CTL.FWD_MASK : Field := ⟨KL_BELL_CTL, 1, 12⟩
def KL_BELL_CTL.LEAD_US : Field := ⟨KL_BELL_CTL, 13, 16⟩
def KL_BELL_LATE.COUNT : Field := ⟨KL_BELL_LATE, 0, 32⟩
def KL_DROP_CNT.COUNT : Field := ⟨KL_DROP_CNT, 0, 32⟩
def KL_REMOTE_ERR.CODE : Field := ⟨KL_REMOTE_ERR, 0, 16⟩
def KL_REMOTE_ERR.DEV : Field := ⟨KL_REMOTE_ERR, 16, 15⟩
def KL_RC_TMO.TMO_US : Field := ⟨KL_RC_TMO, 0, 16⟩
def KL_ROOM_JOB.JOB : Field := ⟨KL_ROOM_JOB, 0, 16⟩
def KL_RC_CTL.EN : Field := ⟨KL_RC_CTL, 0, 1⟩
def KL_RC_CTL.ROOT : Field := ⟨KL_RC_CTL, 1, 1⟩
def KL_RC_CTL.PARENT : Field := ⟨KL_RC_CTL, 2, 4⟩
def KL_RC_CTL.CHILDREN : Field := ⟨KL_RC_CTL, 6, 12⟩
def KL_RC_CTL.HEIGHT : Field := ⟨KL_RC_CTL, 18, 6⟩
def KL_RC_START_LO.T_S : Field := ⟨KL_RC_START_LO, 0, 32⟩
def KL_RC_START_HI.T_S : Field := ⟨KL_RC_START_HI, 0, 32⟩
def KL_RC_STAT.VERDICT : Field := ⟨KL_RC_STAT, 0, 2⟩
def KL_RC_STAT.FENCED : Field := ⟨KL_RC_STAT, 2, 1⟩
def KL_RC_STAT.DIFF : Field := ⟨KL_RC_STAT, 3, 9⟩
def KL_RC_STAT.OVER : Field := ⟨KL_RC_STAT, 12, 1⟩
def KL_RC_STAT.NO_VERDICT : Field := ⟨KL_RC_STAT, 13, 1⟩
def KL_RC_STAT.RC_EV : Field := ⟨KL_RC_STAT, 14, 1⟩
def KL_RC_DISSENT.DEV : Field := ⟨KL_RC_DISSENT, 0, 15⟩
def KL_RC_DISSENT.VALID : Field := ⟨KL_RC_DISSENT, 15, 1⟩
def KL_RC_DISSENT.REF_LOW : Field := ⟨KL_RC_DISSENT, 16, 15⟩
def KL_RC_COUNT.REF_N : Field := ⟨KL_RC_COUNT, 0, 16⟩
def KL_RC_COUNT.DIS_N : Field := ⟨KL_RC_COUNT, 16, 16⟩
def KL_RC_STEP_LO.STEP : Field := ⟨KL_RC_STEP_LO, 0, 32⟩
def KL_RC_STEP_HI.STEP : Field := ⟨KL_RC_STEP_HI, 0, 32⟩
def KL_RC_FENCE_CNT.COUNT : Field := ⟨KL_RC_FENCE_CNT, 0, 32⟩
def KL_ROUTE.PORT : Field := ⟨KL_ROUTE, 0, 4⟩
def KL_ROUTE.VALID : Field := ⟨KL_ROUTE, 4, 1⟩
def KL_ROUTE.VL_UP : Field := ⟨KL_ROUTE, 5, 1⟩
def KL_ROUTE.ALT_PORT : Field := ⟨KL_ROUTE, 6, 4⟩
def KL_ROUTE.ALT_VALID : Field := ⟨KL_ROUTE, 10, 1⟩
def KL_ROUTE.ALT_VL_UP : Field := ⟨KL_ROUTE, 11, 1⟩
def RED_CTL.EN : Field := ⟨RED_CTL, 0, 1⟩
def RED_TABLE_BASE_LO.ADDR : Field := ⟨RED_TABLE_BASE_LO, 0, 32⟩
def RED_TABLE_BASE_HI.ADDR : Field := ⟨RED_TABLE_BASE_HI, 0, 20⟩
def RED_STAT.OPEN : Field := ⟨RED_STAT, 0, 2⟩
def RED_STAT.MISS_EV : Field := ⟨RED_STAT, 2, 1⟩
def RED_STAT.REFUSE_EV : Field := ⟨RED_STAT, 3, 1⟩
def RED_DUP_CNT.COUNT : Field := ⟨RED_DUP_CNT, 0, 32⟩
def RED_MISS_CNT.COUNT : Field := ⟨RED_MISS_CNT, 0, 32⟩
def RED_REFUSE_CNT.COUNT : Field := ⟨RED_REFUSE_CNT, 0, 32⟩
def RED_CHECK_CTL.RATE_LOG2 : Field := ⟨RED_CHECK_CTL, 0, 4⟩
def RED_CHECK_CTL.STRIKES : Field := ⟨RED_CHECK_CTL, 4, 4⟩
def RED_CHECK_CTL.WIN_S : Field := ⟨RED_CHECK_CTL, 8, 16⟩
def RED_CHECK_STAT.MISMATCH_EV : Field := ⟨RED_CHECK_STAT, 0, 1⟩
def RED_CHECK_STAT.RETIRE_EV : Field := ⟨RED_CHECK_STAT, 1, 1⟩
def RED_CHECK_STAT.TRIPLE_EV : Field := ⟨RED_CHECK_STAT, 2, 1⟩
def RED_CHECK_STAT.ACTIVE : Field := ⟨RED_CHECK_STAT, 3, 6⟩
def RED_CHECK_STAT.SPARES_FREE : Field := ⟨RED_CHECK_STAT, 9, 4⟩
def RED_CHECK_CNT.COUNT : Field := ⟨RED_CHECK_CNT, 0, 32⟩
def RED_MISMATCH_CNT.COUNT : Field := ⟨RED_MISMATCH_CNT, 0, 32⟩
def RED_ADDER_STAT.STATE : Field := ⟨RED_ADDER_STAT, 0, 2⟩
def RED_ADDER_STAT.STRIKES : Field := ⟨RED_ADDER_STAT, 2, 3⟩
def RED_ADDER_STAT.SERVES : Field := ⟨RED_ADDER_STAT, 5, 6⟩
def UPD_POLICY.POLICY : Field := ⟨UPD_POLICY, 0, 1⟩
def UPD_POLICY.SAT_ACTION : Field := ⟨UPD_POLICY, 1, 1⟩
def UPD_POLICY.CLIP_EN : Field := ⟨UPD_POLICY, 2, 1⟩
def UPD_GROUP_BASE_LO.ADDR : Field := ⟨UPD_GROUP_BASE_LO, 0, 32⟩
def UPD_GROUP_BASE_HI.ADDR : Field := ⟨UPD_GROUP_BASE_HI, 0, 20⟩
def UPD_GROUPS.COUNT : Field := ⟨UPD_GROUPS, 0, 11⟩
def UPD_CLIP_MAX.MAX : Field := ⟨UPD_CLIP_MAX, 0, 32⟩
def UPD_STAT.SKIP_EV : Field := ⟨UPD_STAT, 0, 1⟩
def UPD_STAT.TALLY_EV : Field := ⟨UPD_STAT, 1, 1⟩
def UPD_STAT.POISON_EV : Field := ⟨UPD_STAT, 2, 1⟩
def UPD_STAT.RUNNING : Field := ⟨UPD_STAT, 3, 1⟩
def UPD_NORM.VALUE : Field := ⟨UPD_NORM, 0, 32⟩
def UPD_CLIP.VALUE : Field := ⟨UPD_CLIP, 0, 32⟩
def UPD_SKIP_CNT.COUNT : Field := ⟨UPD_SKIP_CNT, 0, 32⟩
def UPD_STEP_LO.STEP : Field := ⟨UPD_STEP_LO, 0, 32⟩
def UPD_STEP_HI.STEP : Field := ⟨UPD_STEP_HI, 0, 32⟩
def UPD_PARAM_RX_LO.BYTES : Field := ⟨UPD_PARAM_RX_LO, 0, 32⟩
def UPD_PARAM_RX_HI.BYTES : Field := ⟨UPD_PARAM_RX_HI, 0, 32⟩
def UPD_TALLY_TMO.BASE_US : Field := ⟨UPD_TALLY_TMO, 0, 16⟩
def UPD_TALLY_TMO.HOP_US : Field := ⟨UPD_TALLY_TMO, 16, 12⟩
def UPD_ENGINE_STAT.PASS : Field := ⟨UPD_ENGINE_STAT, 0, 2⟩
def UPD_ENGINE_STAT.ROOM : Field := ⟨UPD_ENGINE_STAT, 2, 4⟩
def SKN_TABLE_SLOT.GO : Field := ⟨SKN_TABLE_SLOT, 0, 1⟩
def SKN_TABLE_SLOT.CLOSE : Field := ⟨SKN_TABLE_SLOT, 1, 1⟩
def SKN_TABLE_SLOT.VALID : Field := ⟨SKN_TABLE_SLOT, 2, 1⟩
def SKN_TABLE_SLOT.LOADING : Field := ⟨SKN_TABLE_SLOT, 3, 1⟩
def SKN_TABLE_SLOT.REFS : Field := ⟨SKN_TABLE_SLOT, 4, 12⟩
def SKN_TABLE_SLOT.CODE : Field := ⟨SKN_TABLE_SLOT, 16, 16⟩
def SKN_TABLE_ADDR_LO.ADDR_LO : Field := ⟨SKN_TABLE_ADDR_LO, 0, 32⟩
def SKN_TABLE_ADDR_HI.ADDR_HI : Field := ⟨SKN_TABLE_ADDR_HI, 0, 20⟩
def SKN_TABLE_ID.ID : Field := ⟨SKN_TABLE_ID, 0, 32⟩
def SKN_STAT.LOAD_DONE : Field := ⟨SKN_STAT, 0, 4⟩
def SKN_STAT.LOAD_FAIL : Field := ⟨SKN_STAT, 4, 4⟩
def SKN_STAT.CORRUPT_EV : Field := ⟨SKN_STAT, 8, 1⟩
def SKN_ERR_INFO.CODE : Field := ⟨SKN_ERR_INFO, 0, 16⟩
def SKN_ERR_INFO.LANE : Field := ⟨SKN_ERR_INFO, 16, 3⟩
def SKN_ERR_INFO.POS : Field := ⟨SKN_ERR_INFO, 19, 12⟩
def SKN_ERR_ADDR_LO.ADDR : Field := ⟨SKN_ERR_ADDR_LO, 0, 32⟩
def SKN_ERR_ADDR_HI.ADDR : Field := ⟨SKN_ERR_ADDR_HI, 0, 20⟩
def SKN_ERR_CNT.COUNT : Field := ⟨SKN_ERR_CNT, 0, 32⟩
def SKN_RAWBLK_CNT.COUNT : Field := ⟨SKN_RAWBLK_CNT, 0, 32⟩
def SKN_RAW_BYTES_LO.BYTES : Field := ⟨SKN_RAW_BYTES_LO, 0, 32⟩
def SKN_RAW_BYTES_HI.BYTES : Field := ⟨SKN_RAW_BYTES_HI, 0, 32⟩
def SKN_STORED_BYTES_LO.BYTES : Field := ⟨SKN_STORED_BYTES_LO, 0, 32⟩
def SKN_STORED_BYTES_HI.BYTES : Field := ⟨SKN_STORED_BYTES_HI, 0, 32⟩
def MED_STAT.DEFER_EV : Field := ⟨MED_STAT, 0, 1⟩
def MED_STAT.DROP_EV : Field := ⟨MED_STAT, 1, 1⟩
def MED_STAT.CONCEAL_EV : Field := ⟨MED_STAT, 2, 1⟩
def MED_STAT.REJECT_EV : Field := ⟨MED_STAT, 3, 1⟩
def MED_STAT.TOK_DONE : Field := ⟨MED_STAT, 4, 4⟩
def MED_STAT.TOK_FAIL : Field := ⟨MED_STAT, 8, 4⟩
def MED_DEFER_CNT.COUNT : Field := ⟨MED_DEFER_CNT, 0, 32⟩
def MED_DROP_CNT.COUNT : Field := ⟨MED_DROP_CNT, 0, 32⟩
def MED_CONCEAL_CNT.COUNT : Field := ⟨MED_CONCEAL_CNT, 0, 32⟩
def MED_REJECT_CNT.COUNT : Field := ⟨MED_REJECT_CNT, 0, 32⟩
def MED_AVG.CYCLES : Field := ⟨MED_AVG, 0, 32⟩
def MED_TOK_SLOT.GO : Field := ⟨MED_TOK_SLOT, 0, 1⟩
def MED_TOK_SLOT.CLOSE : Field := ⟨MED_TOK_SLOT, 1, 1⟩
def MED_TOK_SLOT.VALID : Field := ⟨MED_TOK_SLOT, 2, 1⟩
def MED_TOK_SLOT.LOADING : Field := ⟨MED_TOK_SLOT, 3, 1⟩
def MED_TOK_SLOT.REFS : Field := ⟨MED_TOK_SLOT, 4, 12⟩
def MED_TOK_SLOT.CODE : Field := ⟨MED_TOK_SLOT, 16, 16⟩
def MED_TOK_ADDR_LO.ADDR_LO : Field := ⟨MED_TOK_ADDR_LO, 0, 32⟩
def MED_TOK_ADDR_HI.ADDR_HI : Field := ⟨MED_TOK_ADDR_HI, 0, 20⟩
def MED_TOK_ID.ID : Field := ⟨MED_TOK_ID, 0, 32⟩
def MED_ENG_STAT.BUSY : Field := ⟨MED_ENG_STAT, 0, 1⟩
def MED_ENG_STAT.STRAGGLER : Field := ⟨MED_ENG_STAT, 1, 1⟩
def MED_ENG_STAT.ROOM : Field := ⟨MED_ENG_STAT, 2, 4⟩
def MED_PREP_STAT.STALE_EV : Field := ⟨MED_PREP_STAT, 0, 1⟩
def MED_PREP_STAT.REJECT_EV : Field := ⟨MED_PREP_STAT, 1, 1⟩
def MED_PREP_STAT.PACK_EV : Field := ⟨MED_PREP_STAT, 2, 1⟩
def MED_PREP_STALE_CNT.COUNT : Field := ⟨MED_PREP_STALE_CNT, 0, 32⟩
def MED_PREP_REJECT_CNT.COUNT : Field := ⟨MED_PREP_REJECT_CNT, 0, 32⟩
def MED_PACK_MISS_CNT.COUNT : Field := ⟨MED_PACK_MISS_CNT, 0, 32⟩
def MED_GEO_STAT.BUSY : Field := ⟨MED_GEO_STAT, 0, 1⟩
def MED_GEO_STAT.ROOM : Field := ⟨MED_GEO_STAT, 1, 4⟩
def MED_GEO_STAT.LIVE : Field := ⟨MED_GEO_STAT, 5, 1⟩
def MED_GEO_STAT.LEVEL : Field := ⟨MED_GEO_STAT, 6, 2⟩
def MED_PACK_STAT.BUSY : Field := ⟨MED_PACK_STAT, 0, 1⟩
def MED_PACK_STAT.ROOM : Field := ⟨MED_PACK_STAT, 1, 4⟩
def VC_STAT.FAIL_EV : Field := ⟨VC_STAT, 0, 1⟩
def VC_STAT.SKIP_EV : Field := ⟨VC_STAT, 1, 1⟩
def VC_STAT.CAP_EV : Field := ⟨VC_STAT, 2, 1⟩
def VC_SKIP_CNT.COUNT : Field := ⟨VC_SKIP_CNT, 0, 32⟩
def VC_CAP_CNT.COUNT : Field := ⟨VC_CAP_CNT, 0, 32⟩
def VC_FILLER_BYTES.COUNT : Field := ⟨VC_FILLER_BYTES, 0, 32⟩
def VC_RING_WAIT_CNT.COUNT : Field := ⟨VC_RING_WAIT_CNT, 0, 32⟩
def VC_PREEMPT_CNT.COUNT : Field := ⟨VC_PREEMPT_CNT, 0, 32⟩
def VC_PRIV.ROOM_EN : Field := ⟨VC_PRIV, 0, 1⟩
def VC_PRIV.ROOM : Field := ⟨VC_PRIV, 1, 4⟩
def VC_PRIV.IN_USE : Field := ⟨VC_PRIV, 5, 1⟩
def VC_ENG_STAT.BUSY : Field := ⟨VC_ENG_STAT, 0, 1⟩
def VC_ENG_STAT.ROOM : Field := ⟨VC_ENG_STAT, 1, 4⟩
def VC_ENG_STAT.LEVEL : Field := ⟨VC_ENG_STAT, 5, 2⟩
def VC_ENG_STAT.WAITING : Field := ⟨VC_ENG_STAT, 7, 1⟩
def NUM_SCALE_CTL.HIST : Field := ⟨NUM_SCALE_CTL, 0, 4⟩
def NUM_SCALE_CTL.HEADROOM : Field := ⟨NUM_SCALE_CTL, 4, 3⟩
def NUM_SCALE_CTL.OVF_EXTRA : Field := ⟨NUM_SCALE_CTL, 7, 2⟩
def NUM_SCALE_BASE_LO.ADDR_LO : Field := ⟨NUM_SCALE_BASE_LO, 0, 32⟩
def NUM_SCALE_BASE_HI.ADDR_HI : Field := ⟨NUM_SCALE_BASE_HI, 0, 20⟩
def NUM_SCALE_GROUPS.COUNT : Field := ⟨NUM_SCALE_GROUPS, 0, 17⟩
def NUM_SCALE_WAIT.WAIT_US : Field := ⟨NUM_SCALE_WAIT, 0, 16⟩
def NUM_MON_CTL.RATE_LOG2 : Field := ⟨NUM_MON_CTL, 0, 5⟩
def NUM_MON_CTL.THRESH : Field := ⟨NUM_MON_CTL, 8, 8⟩
def NUM_MON_BASE_LO.ADDR_LO : Field := ⟨NUM_MON_BASE_LO, 0, 32⟩
def NUM_MON_BASE_HI.ADDR_HI : Field := ⟨NUM_MON_BASE_HI, 0, 20⟩
def NUM_TRAP_CTL.SAT_TRAP : Field := ⟨NUM_TRAP_CTL, 0, 1⟩
def NUM_TRAP_CTL.NAN_TRAP : Field := ⟨NUM_TRAP_CTL, 1, 1⟩
def NUM_TRAP_CTL.MON_TRAP : Field := ⟨NUM_TRAP_CTL, 2, 1⟩
def NUM_STATUS.SAT_EV : Field := ⟨NUM_STATUS, 0, 1⟩
def NUM_STATUS.NAN_EV : Field := ⟨NUM_STATUS, 1, 1⟩
def NUM_STATUS.MON_EV : Field := ⟨NUM_STATUS, 2, 1⟩
def NUM_STATUS.FAULT_EV : Field := ⟨NUM_STATUS, 3, 1⟩
def NUM_STATUS.AGREE_EV : Field := ⟨NUM_STATUS, 4, 1⟩
def NUM_SAT_CNT.COUNT : Field := ⟨NUM_SAT_CNT, 0, 32⟩
def NUM_NAN_CNT.COUNT : Field := ⟨NUM_NAN_CNT, 0, 32⟩
def NUM_MON_DIS_CNT.COUNT : Field := ⟨NUM_MON_DIS_CNT, 0, 32⟩
def NUM_MON_FAULT_CNT.COUNT : Field := ⟨NUM_MON_FAULT_CNT, 0, 32⟩
def NUM_CLASS_CTL.LOST_HI : Field := ⟨NUM_CLASS_CTL, 0, 4⟩
def NUM_CLASS_CTL.LOST_LO : Field := ⟨NUM_CLASS_CTL, 4, 4⟩
def NUM_CLASS_CTL.DOWN_ROUNDS : Field := ⟨NUM_CLASS_CTL, 8, 5⟩
def NUM_CLASS_CTL.K_MAX : Field := ⟨NUM_CLASS_CTL, 13, 3⟩
def NUM_AGREE_CNT.COUNT : Field := ⟨NUM_AGREE_CNT, 0, 32⟩
def NUM_GEN.GEN : Field := ⟨NUM_GEN, 0, 8⟩
def FLT_LOG.WORD : Field := ⟨FLT_LOG, 0, 32⟩
def FLT_LOG_CE.COUNT : Field := ⟨FLT_LOG_CE, 0, 32⟩
def FLT_SPX_STAT.STRIKES : Field := ⟨FLT_SPX_STAT, 0, 3⟩
def FLT_SPX_STAT.RETIRED : Field := ⟨FLT_SPX_STAT, 3, 1⟩
def FLT_ENG_STAT.STRIKES : Field := ⟨FLT_ENG_STAT, 0, 3⟩
def FLT_ENG_STAT.RETIRED : Field := ⟨FLT_ENG_STAT, 3, 1⟩
def FLT_CTL.STRIKES : Field := ⟨FLT_CTL, 0, 3⟩
def FLT_CTL.WIN_S : Field := ⟨FLT_CTL, 3, 16⟩
def FLT_CTL.CE_THRESH : Field := ⟨FLT_CTL, 19, 12⟩
def FLT_STAT.REC_EV : Field := ⟨FLT_STAT, 0, 1⟩
def FLT_STAT.OVF_EV : Field := ⟨FLT_STAT, 1, 1⟩
def FLT_STAT.DEGRADED_EV : Field := ⟨FLT_STAT, 2, 1⟩
def FLT_STAT.SUB_EV : Field := ⟨FLT_STAT, 3, 1⟩
def FLT_STAT.WDOG_EV : Field := ⟨FLT_STAT, 4, 1⟩
def FLT_STAT.FATAL : Field := ⟨FLT_STAT, 5, 1⟩
def FLT_LOG_WR.COUNT : Field := ⟨FLT_LOG_WR, 0, 32⟩
def FLT_LOG_RD.COUNT : Field := ⟨FLT_LOG_RD, 0, 32⟩
def FLT_LOST_CNT.COUNT : Field := ⟨FLT_LOST_CNT, 0, 32⟩
def FLT_DEGRADED.POOLS : Field := ⟨FLT_DEGRADED, 0, 7⟩
def FLT_MESH_CNT.COUNT : Field := ⟨FLT_MESH_CNT, 0, 32⟩
def FLT_SPX_CTL.INDEX : Field := ⟨FLT_SPX_CTL, 0, 10⟩
def FLT_SPX_CTL.RETIRE : Field := ⟨FLT_SPX_CTL, 10, 1⟩
def AGE_CTL.TERM_H : Field := ⟨AGE_CTL, 0, 10⟩
def AGE_CTL.FLOOR_PS : Field := ⟨AGE_CTL, 10, 8⟩
def AGE_CTL.TARGET_PS : Field := ⟨AGE_CTL, 18, 8⟩
def AGE_CTL.OUTLIER : Field := ⟨AGE_CTL, 26, 4⟩
def AGE_CTL.EN : Field := ⟨AGE_CTL, 30, 1⟩
def AGE_CTL2.EYE_FLOOR : Field := ⟨AGE_CTL2, 0, 8⟩
def AGE_CTL2.SNR_FLOOR : Field := ⟨AGE_CTL2, 8, 8⟩
def AGE_STAT.TERM_EV : Field := ⟨AGE_STAT, 0, 1⟩
def AGE_STAT.RETIRE_EV : Field := ⟨AGE_STAT, 1, 1⟩
def AGE_STAT.GUARD_EV : Field := ⟨AGE_STAT, 2, 1⟩
def AGE_STAT.CARD_EV : Field := ⟨AGE_STAT, 3, 1⟩
def AGE_STAT.REPLAN : Field := ⟨AGE_STAT, 4, 1⟩
def AGE_REPORT.TERM : Field := ⟨AGE_REPORT, 0, 32⟩
def AGE_TERM_LEFT.MIN : Field := ⟨AGE_TERM_LEFT, 0, 16⟩
def AGE_CARD_ADDR_LO.ADDR : Field := ⟨AGE_CARD_ADDR_LO, 0, 32⟩
def AGE_CARD_ADDR_HI.ADDR : Field := ⟨AGE_CARD_ADDR_HI, 0, 20⟩
def AGE_CARD_CTL.COPY : Field := ⟨AGE_CARD_CTL, 0, 1⟩
def AGE_CARD_CTL.AUTO : Field := ⟨AGE_CARD_CTL, 1, 1⟩
def AGE_CARD_CTL.COPY_DONE : Field := ⟨AGE_CARD_CTL, 2, 1⟩
def AGE_VOFF.OFF0 : Field := ⟨AGE_VOFF, 0, 6⟩
def AGE_VOFF.OFF1 : Field := ⟨AGE_VOFF, 6, 6⟩
def AGE_VOFF.OFF2 : Field := ⟨AGE_VOFF, 12, 6⟩
def AGE_VOFF.OFF3 : Field := ⟨AGE_VOFF, 18, 6⟩
def AGE_VOFF.OFF4 : Field := ⟨AGE_VOFF, 24, 6⟩
def AGE_MARGIN.M : Field := ⟨AGE_MARGIN, 0, 8⟩
def AGE_MARGIN.MIN : Field := ⟨AGE_MARGIN, 8, 8⟩
def AGE_MARGIN.SENS : Field := ⟨AGE_MARGIN, 16, 8⟩
def PWR_LIMIT.TDP_W : Field := ⟨PWR_LIMIT, 0, 13⟩
def PWR_LIMIT.CAP_W : Field := ⟨PWR_LIMIT, 13, 13⟩
def PWR_RAMP.UP_W_MS : Field := ⟨PWR_RAMP, 0, 10⟩
def PWR_RAMP.DOWN_W_MS : Field := ⟨PWR_RAMP, 10, 10⟩
def PWR_FLOOR.FLOOR_W : Field := ⟨PWR_FLOOR, 0, 13⟩
def PWR_FLOOR.FAULT_W : Field := ⟨PWR_FLOOR, 13, 13⟩
def PWR_ADV_CTL.LEAD_US : Field := ⟨PWR_ADV_CTL, 0, 16⟩
def PWR_ADV_CTL.THRESH_W : Field := ⟨PWR_ADV_CTL, 16, 13⟩
def PWR_ADV_CTL.HOLD_EN : Field := ⟨PWR_ADV_CTL, 29, 1⟩
def PWR_STAT.STEP : Field := ⟨PWR_STAT, 0, 3⟩
def PWR_STAT.CAP_IN : Field := ⟨PWR_STAT, 3, 1⟩
def PWR_STAT.ADV : Field := ⟨PWR_STAT, 4, 1⟩
def PWR_STAT.DUTY : Field := ⟨PWR_STAT, 5, 4⟩
def PWR_STAT.FAULT_CAP : Field := ⟨PWR_STAT, 9, 1⟩
def PWR_STAT.CAP_EV : Field := ⟨PWR_STAT, 10, 1⟩
def PWR_STAT.RAMP_EV : Field := ⟨PWR_STAT, 11, 1⟩
def PWR_STAT.FLOOR_SHORT_EV : Field := ⟨PWR_STAT, 12, 1⟩
def PWR_STAT.TJ_EV : Field := ⟨PWR_STAT, 13, 1⟩
def PWR_STAT.WAKE_EV : Field := ⟨PWR_STAT, 14, 1⟩
def PWR_STAT.CODE : Field := ⟨PWR_STAT, 16, 16⟩
def PWR_INPUT.P_W : Field := ⟨PWR_INPUT, 0, 14⟩
def PWR_INPUT.V48 : Field := ⟨PWR_INPUT, 14, 10⟩
def PWR_STEP_CNT.COUNT : Field := ⟨PWR_STEP_CNT, 0, 32⟩
def PWR_RAMP_CNT.COUNT : Field := ⟨PWR_RAMP_CNT, 0, 32⟩
def PWR_RECESS.ENTER : Field := ⟨PWR_RECESS, 0, 1⟩
def PWR_RECESS.WAKE : Field := ⟨PWR_RECESS, 1, 1⟩
def PWR_RECESS.WAKE_KL : Field := ⟨PWR_RECESS, 2, 1⟩
def PWR_RECESS.WAKE_TIME : Field := ⟨PWR_RECESS, 3, 1⟩
def PWR_RECESS.STATE : Field := ⟨PWR_RECESS, 4, 2⟩
def PWR_WAKE_AT_LO.TIME : Field := ⟨PWR_WAKE_AT_LO, 0, 32⟩
def PWR_WAKE_AT_HI.TIME : Field := ⟨PWR_WAKE_AT_HI, 0, 32⟩
def PWR_WAKE_SEND.PORTS : Field := ⟨PWR_WAKE_SEND, 0, 12⟩
def THM_FLOW_CTL.ACT : Field := ⟨THM_FLOW_CTL, 0, 2⟩
def THM_FLOW_CTL.FF_EN : Field := ⟨THM_FLOW_CTL, 2, 1⟩
def THM_FLOW_CTL.OUT_SET : Field := ⟨THM_FLOW_CTL, 3, 7⟩
def THM_FLOW_CTL.PUMP_FIX : Field := ⟨THM_FLOW_CTL, 10, 8⟩
def THM_PI.KP : Field := ⟨THM_PI, 0, 16⟩
def THM_PI.KI : Field := ⟨THM_PI, 16, 16⟩
def THM_FF.LEAD_MS : Field := ⟨THM_FF, 0, 16⟩
def THM_FF.AVG_MS : Field := ⟨THM_FF, 16, 16⟩
def THM_COOL.COOL_C : Field := ⟨THM_COOL, 0, 12⟩
def THM_COOL.FLOW_K : Field := ⟨THM_COOL, 12, 16⟩
def THM_TEMP0.T_IN : Field := ⟨THM_TEMP0, 0, 12⟩
def THM_TEMP0.T_OUT : Field := ⟨THM_TEMP0, 16, 12⟩
def THM_TEMP1.T_AUX2 : Field := ⟨THM_TEMP1, 0, 12⟩
def THM_TEMP1.T_AUX3 : Field := ⟨THM_TEMP1, 16, 12⟩
def THM_FLOW.FLOW_A : Field := ⟨THM_FLOW, 0, 16⟩
def THM_FLOW.FLOW_B : Field := ⟨THM_FLOW, 16, 16⟩
def THM_DEMAND.Q : Field := ⟨THM_DEMAND, 0, 16⟩
def THM_DEMAND.PUMP_DUTY : Field := ⟨THM_DEMAND, 16, 8⟩
def THM_DEMAND.VALVE_DUTY : Field := ⟨THM_DEMAND, 24, 8⟩
def THM_TJ.TJ_MAX : Field := ⟨THM_TJ, 0, 12⟩
def THM_TJ.DIE : Field := ⟨THM_TJ, 12, 5⟩
def THM_STAT.INLET_HI_EV : Field := ⟨THM_STAT, 0, 1⟩
def THM_STAT.INLET_LO_EV : Field := ⟨THM_STAT, 1, 1⟩
def THM_STAT.FLOW_LO_EV : Field := ⟨THM_STAT, 2, 1⟩
def THM_STAT.FLOW_MISMATCH_EV : Field := ⟨THM_STAT, 3, 1⟩
def THM_STAT.NTC_FAULT_EV : Field := ⟨THM_STAT, 4, 1⟩
def THM_STAT.OUTLET_HI_EV : Field := ⟨THM_STAT, 5, 1⟩
def THM_STAT.TRIP : Field := ⟨THM_STAT, 6, 1⟩
def TIME_NOW_LO.NS : Field := ⟨TIME_NOW_LO, 0, 32⟩
def TIME_NOW_HI.NS : Field := ⟨TIME_NOW_HI, 0, 32⟩
def TIME_CTL.SRC : Field := ⟨TIME_CTL, 0, 2⟩
def TIME_CTL.PARENT : Field := ⟨TIME_CTL, 2, 4⟩
def TIME_STAT.LOCKED : Field := ⟨TIME_STAT, 0, 1⟩
def TIME_STAT.SKEW : Field := ⟨TIME_STAT, 1, 1⟩
def TIME_STAT.HOLDOVER : Field := ⟨TIME_STAT, 2, 1⟩
def TIME_STAT.SKEW_EV : Field := ⟨TIME_STAT, 3, 1⟩
def TIME_STAT.PPS_MISS_EV : Field := ⟨TIME_STAT, 4, 1⟩
def TIME_OFFSET.NS : Field := ⟨TIME_OFFSET, 0, 32⟩
def TIME_TOD_NEXT_LO.SEC : Field := ⟨TIME_TOD_NEXT_LO, 0, 32⟩
def TIME_TOD_NEXT_HI.SEC : Field := ⟨TIME_TOD_NEXT_HI, 0, 32⟩

/-- Part 0 of the register table. -/
def regTable0 : List RegDesc :=
  [SYS_ID0, SYS_ID1, SYS_ID2, SYS_ID3, SYS_CAP0, SYS_CAP1, SYS_STATUS, SYS_FW_VER, SYS_RESET, INT_STATUS, INT_MASK, INT_LEVEL, INT_VSTATUS, INT_VMASK, ROOM_CTL, ROOM_STATUS, ROOM_SAVE_ADDR_LO, ROOM_SAVE_ADDR_HI, ROOM_SAVE_SIZE, ROOM_PREEMPT_CNT, ROOM_DEFER_CNT, ROOM_SWITCH_NS, ROOM_RUN, ROOM_PHASE_CNT, ROOM_PHASE_STAT, TT_ROUND, TT_BELL_WIN, TT_CTL, TT_BELL_STAT, TT_BELL_MISS, TT_BELL_OUT, TT_SHIFT, TT_ROUND_CNT_LO, TT_ROUND_CNT_HI, TT_EPOCH, TT_FREE, TT_ROUND_START_LO, TT_ROUND_START_HI, QUE_BASE_LO, QUE_BASE_HI]

/-- Part 1 of the register table. -/
def regTable1 : List RegDesc :=
  [QUE_SIZE, QUE_CTL, QUE_HEAD, QUE_TAIL, QUE_STAT, QUE_DONE_CNT, SEM_STATE, SEM_ACL, SEM_OWNER, CFG_LOAD, CFG_IMG_ADDR_LO, CFG_IMG_ADDR_HI, CFG_IMG_SIZE, CFG_STATUS, CFG_VAR_SEL, CFG_LATE_CNT, CFG_SWITCH_CNT, CFG_SAVE_REQ, CFG_DIGEST, CFG_KEY_STAT, CFG_XD_FREE0, CFG_XD_FREE1, SPX_REMAP, SPX_DIE_STAT, SPX_STATE, SPX_LINK_CE, SPX_NOTE_DROP, SPX_WIN_STAT, SPX_WIN_DROP, SPX_REMAP_GEN, SPX_MX_TILE_CNT, SPX_MX_STALL_CNT, SPX_MX_KLONG_CNT, SPX_MX_STAT, SPX_VX_STAT, SPX_VX_ISSUE_CNT, SPX_VX_WAIT_CNT, SPX_VX_DESK_CNT, MEM_CHAN_STATE, MEM_CE_CNT]

/-- Part 2 of the register table. -/
def regTable2 : List RegDesc :=
  [MEM_UE_CNT, MEM_RETRAIN_CNT, MEM_CHAN_CTL, MEM_FT_BASE_LO, MEM_FT_BASE_HI, MEM_FT_SIZE, MEM_CT_BASE_LO, MEM_CT_BASE_HI, MEM_CT_SIZE, MEM_REG_BUDGET, MEM_REG_BAL, MEM_REG_HOLD_CNT, MEM_ROOM_STAT, MEM_STATUS, MEM_RT_CTL, MEM_SCRUB_CTL, MEM_SCRUB_STAT, MEM_SPARE_STAT, MEM_MIG_CTL, MEM_MIG_STAT, MEM_ERR_INFO, MEM_ERR_ADDR_LO, MEM_ERR_ADDR_HI, STR_STAT, STR_ROOM_STAT, STR_ERR_INFO, STR_ERR_UNIT, STR_ERR_ADDR_LO, STR_ERR_ADDR_HI, STR_WASTE_BYTES_LO, STR_WASTE_BYTES_HI, STR_ABORT_CNT, STR_SPLIT, DMA_CH_CTL, DMA_CH_NEXT_LO, DMA_CH_NEXT_HI, DMA_CH_STAT, DMA_CH_ERR_ADDR_LO, DMA_CH_ERR_ADDR_HI, DMA_CH_ERR_INFO]

/-- Part 3 of the register table. -/
def regTable3 : List RegDesc :=
  [DMA_CH_BYTES, DMA_CH_DONE_CNT, DMA_CH_VECTOR, KL_PORT_CTL, KL_PORT_STAT, KL_CREDIT, KL_REPLAY_CNT, KL_RETRAIN_CNT, KL_FEC_UE_CNT, KL_FEC_CE_CNT, KL_DEV_ID, KL_LANE_CTL, KL_BELL_CTL, KL_BELL_LATE, KL_DROP_CNT, KL_REMOTE_ERR, KL_RC_TMO, KL_ROOM_JOB, KL_RC_CTL, KL_RC_START_LO, KL_RC_START_HI, KL_RC_STAT, KL_RC_DISSENT, KL_RC_COUNT, KL_RC_STEP_LO, KL_RC_STEP_HI, KL_RC_FENCE_CNT, KL_ROUTE, RED_CTL, RED_TABLE_BASE_LO, RED_TABLE_BASE_HI, RED_STAT, RED_DUP_CNT, RED_MISS_CNT, RED_REFUSE_CNT, RED_CHECK_CTL, RED_CHECK_STAT, RED_CHECK_CNT, RED_MISMATCH_CNT, RED_ADDER_STAT]

/-- Part 4 of the register table. -/
def regTable4 : List RegDesc :=
  [UPD_POLICY, UPD_GROUP_BASE_LO, UPD_GROUP_BASE_HI, UPD_GROUPS, UPD_CLIP_MAX, UPD_STAT, UPD_NORM, UPD_CLIP, UPD_SKIP_CNT, UPD_STEP_LO, UPD_STEP_HI, UPD_PARAM_RX_LO, UPD_PARAM_RX_HI, UPD_TALLY_TMO, UPD_ENGINE_STAT, SKN_TABLE_SLOT, SKN_TABLE_ADDR_LO, SKN_TABLE_ADDR_HI, SKN_TABLE_ID, SKN_STAT, SKN_ERR_INFO, SKN_ERR_ADDR_LO, SKN_ERR_ADDR_HI, SKN_ERR_CNT, SKN_RAWBLK_CNT, SKN_RAW_BYTES_LO, SKN_RAW_BYTES_HI, SKN_STORED_BYTES_LO, SKN_STORED_BYTES_HI, MED_STAT, MED_DEFER_CNT, MED_DROP_CNT, MED_CONCEAL_CNT, MED_REJECT_CNT, MED_AVG, MED_TOK_SLOT, MED_TOK_ADDR_LO, MED_TOK_ADDR_HI, MED_TOK_ID, MED_ENG_STAT]

/-- Part 5 of the register table. -/
def regTable5 : List RegDesc :=
  [MED_PREP_STAT, MED_PREP_STALE_CNT, MED_PREP_REJECT_CNT, MED_PACK_MISS_CNT, MED_GEO_STAT, MED_PACK_STAT, VC_STAT, VC_SKIP_CNT, VC_CAP_CNT, VC_FILLER_BYTES, VC_RING_WAIT_CNT, VC_PREEMPT_CNT, VC_PRIV, VC_ENG_STAT, NUM_SCALE_CTL, NUM_SCALE_BASE_LO, NUM_SCALE_BASE_HI, NUM_SCALE_GROUPS, NUM_SCALE_WAIT, NUM_MON_CTL, NUM_MON_BASE_LO, NUM_MON_BASE_HI, NUM_TRAP_CTL, NUM_STATUS, NUM_SAT_CNT, NUM_NAN_CNT, NUM_MON_DIS_CNT, NUM_MON_FAULT_CNT, NUM_CLASS_CTL, NUM_AGREE_CNT, NUM_GEN, FLT_LOG, FLT_LOG_CE, FLT_SPX_STAT, FLT_ENG_STAT, FLT_CTL, FLT_STAT, FLT_LOG_WR, FLT_LOG_RD, FLT_LOST_CNT]

/-- Part 6 of the register table. -/
def regTable6 : List RegDesc :=
  [FLT_DEGRADED, FLT_MESH_CNT, FLT_SPX_CTL, AGE_CTL, AGE_CTL2, AGE_STAT, AGE_REPORT, AGE_TERM_LEFT, AGE_CARD_ADDR_LO, AGE_CARD_ADDR_HI, AGE_CARD_CTL, AGE_VOFF, AGE_MARGIN, PWR_LIMIT, PWR_RAMP, PWR_FLOOR, PWR_ADV_CTL, PWR_STAT, PWR_INPUT, PWR_STEP_CNT, PWR_RAMP_CNT, PWR_RECESS, PWR_WAKE_AT_LO, PWR_WAKE_AT_HI, PWR_WAKE_SEND, THM_FLOW_CTL, THM_PI, THM_FF, THM_COOL, THM_TEMP0, THM_TEMP1, THM_FLOW, THM_DEMAND, THM_TJ, THM_STAT, TIME_NOW_LO, TIME_NOW_HI, TIME_CTL, TIME_STAT, TIME_OFFSET]

/-- Part 7 of the register table. -/
def regTable7 : List RegDesc :=
  [TIME_TOD_NEXT_LO, TIME_TOD_NEXT_HI]

/-- Every register of the window, in rising order of offset (Table 21-10). -/
def regTable : List RegDesc :=
  regTable0 ++ regTable1 ++ regTable2 ++ regTable3 ++ regTable4 ++ regTable5 ++ regTable6 ++ regTable7

end Sys2Proof.Machine
end

