-- ==== Sys2Proof/Machine/State.lean ====
section
/-! DEFINITION. The state of the CX-960 as one value: the queue of waiting commands, what the register window keeps for
each PCIe function, and the device. The device's registers, every one of them, stand in `Dev.regs`, keyed by their offset
in the register window (R7, R584), with the reset values of Machine/Registers.lean for unlisted offsets. -/

namespace Sys2Proof.Machine

/-- Why a step stops with a fault. -/
inductive Fault where
  /-- raised by no meaning: every command of this block completes (safe) -/
  | none
  deriving DecidableEq, Repr

/-- Why a step is refused. -/
inductive Refusal where
  /-- raised by an arm of exec whose command has no meaning yet (safe) -/
  | notModelled (mnemonic : String)
  deriving DecidableEq, Repr

/-- The device: its registers, its memory and its engines. -/
structure Dev where
  /-- every register, by offset in the register window -/
  regs : List (Nat × BitVec 32)
  /-- every byte of device memory, the Desk window included (R7, R314) -/
  mem : List Host.Cell
  /-- poisoned sectors, by sector address (R328) -/
  poison : List Nat
  /-- poisoned 32-bit words of Spindle storage, by Desk-window address (R519) -/
  poisonW : List Nat
  /-- what has been sent, newest first -/
  out : List OutEv
  /-- how many free values have been drawn -/
  free : Nat
  irq : IrqSt
  que : QueSt
  bell : BellSt
  net : NetSt
  memx : MemSt
  dma : List (Nat × DmaSt)
  /-- Skein table slots, by 4 × Room + slot -/
  skn : List (Nat × SlotSt)
  /-- Reels by physical index -/
  reels : List (Nat × ReelSt)
  kl : KlSt
  flt : FltSt
  mgmt : MgmtSt
  /-- reduction and update by Room -/
  red : List (Nat × RedSt)
  med : MedSt
  vc : VcSt
  pwr : PwrSt
  boot : BootSt
  /-- Spindles by physical index -/
  spx : List (Nat × SpindleSt)
  deriving DecidableEq, Repr

/-- The device right after reset. Log: 7 (DEDUCED). -/
def Dev.reset : Dev where
  regs := []
  mem := []
  poison := []
  poisonW := []
  out := []
  free := 0
  irq := IrqSt.init
  que := QueSt.init
  bell := BellSt.init
  net := NetSt.init
  memx := MemSt.init
  dma := []
  skn := []
  reels := []
  kl := KlSt.init
  flt := FltSt.init
  mgmt := MgmtSt.init
  red := []
  med := MedSt.init
  vc := VcSt.init
  pwr := PwrSt.init
  boot := BootSt.init
  spx := []

/-- The whole machine. -/
structure State where
  /-- commands waiting, first in, first out -/
  pending : List Instr
  /-- what the register window keeps for each PCIe function (R9, R10) -/
  fns : List (Nat × FnState)
  dev : Dev
  deriving DecidableEq, Repr

/-- The machine right after reset: every register at its reset value, memory with nothing listed, nothing waiting.
Log: 7 (DEDUCED). -/
def State.reset : State where
  pending := []
  fns := []
  dev := Dev.reset

end Sys2Proof.Machine
end

