-- ==== Sys2Proof/Machine/Tab.lean ====
section
/-! DEFINITION. Sparse tables: a list of (key, value) pairs in one canonical form, used for the register file, for memory
and for every indexed collection of the state. Keys rise strictly, and no entry equals what an unlisted key reads as, so
equal tables are equal lists. -/

namespace Sys2Proof.Machine

/-- The value at key `k`; an unlisted key reads as `d k`. -/
def tget {α : Type} (d : Nat → α) : List (Nat × α) → Nat → α
  | [], k => d k
  | (j, v) :: t, k => if k = j then v else tget d t k

/-- The table without key `k`. -/
def tdel {α : Type} (l : List (Nat × α)) (k : Nat) : List (Nat × α) := l.filter fun p => p.1 != k

/-- Insert an entry before the first higher key. -/
def tins {α : Type} (l : List (Nat × α)) (k : Nat) (v : α) : List (Nat × α) :=
  match l with
  | [] => [(k, v)]
  | (j, w) :: t => if k < j then (k, v) :: (j, w) :: t else (j, w) :: tins t k v

/-- Write `v` at key `k`, keeping the canonical form: writing what an unlisted key reads as removes the entry. -/
def tset {α : Type} [DecidableEq α] (d : Nat → α) (l : List (Nat × α)) (k : Nat) (v : α) : List (Nat × α) :=
  if v = d k then tdel l k else tins (tdel l k) k v

/-- Every key of the table is above `k`. -/
def tabove {α : Type} (k : Nat) : List (Nat × α) → Bool
  | [] => true
  | (j, _) :: t => decide (k < j) && tabove k t

/-- The canonical form: keys strictly rising, no entry equal to the default. -/
def twf {α : Type} [DecidableEq α] (d : Nat → α) : List (Nat × α) → Bool
  | [] => true
  | (j, v) :: t => tabove j t && decide (v ≠ d j) && twf d t

/-- Make every key of `[lo, lo + n)` unlisted. -/
def terase {α : Type} (t : List (Nat × α)) (lo n : Nat) : List (Nat × α) :=
  t.filter fun p => !(decide (lo ≤ p.1) && decide (p.1 < lo + n))

/-- The entries whose keys lie in `[lo, lo + n)`. -/
def trange {α : Type} (t : List (Nat × α)) (lo n : Nat) : List (Nat × α) :=
  t.filter fun p => decide (lo ≤ p.1) && decide (p.1 < lo + n)

/-- Copy the `n` keys from `src` upward to `dst` upward (reading the old table throughout). -/
def tcopy {α : Type} [DecidableEq α] (d : Nat → α) (t : List (Nat × α)) (src dst n : Nat) : List (Nat × α) :=
  (trange t src n).foldl (fun acc p => tset d acc (p.1 - src + dst) p.2) (terase t dst n)

/-- Insert into a strictly rising list of keys. -/
def sins (k : Nat) : List Nat → List Nat
  | [] => [k]
  | j :: t => if k < j then k :: j :: t else if k = j then j :: t else j :: sins k t

/-- Remove a key from a list of keys. -/
def srem (k : Nat) (l : List Nat) : List Nat := l.filter (· != k)

end Sys2Proof.Machine
end

