-- ==== Sys2Proof/Machine/Ops.lean ====
section
/-! DEFINITION. The named operations over registers, memory, interrupts, commands, Rooms and faults that the meanings
share. -/

namespace Sys2Proof.Machine

/-! ## Registers -/

/-- The offset of instance `i` of a register (R584). -/
def RegDesc.addr (r : RegDesc) (i : Nat) : Nat :=
  r.base + i / r.count2 * r.stride + i % r.count2 * r.stride2

/-- The instance of a register that lies at an offset. -/
def RegDesc.instAt (r : RegDesc) (off : Nat) : Option Nat :=
  if off < r.base then none else
  let o := off - r.base
  let i1 := if r.stride = 0 then 0 else min (o / r.stride) (r.count - 1)
  let rest := o - i1 * r.stride
  let i2 := if r.stride2 = 0 then 0 else min (rest / r.stride2) (r.count2 - 1)
  if rest = i2 * r.stride2 then some (i1 * r.count2 + i2) else none

/-- The register at an offset of the window, with its instance; none where no register lies (R13, R584). -/
def regAt (off : Nat) : Option (RegDesc × Nat) :=
  regTable.findSome? fun r => (r.instAt off).map fun i => (r, i)

/-- The value of the register at an offset after reset. -/
def resetOf (off : Nat) : BitVec 32 :=
  match regAt off with
  | none => 0
  | some (r, i) =>
    if r.base = SPX_REMAP.base then BitVec.ofNat 32 (0x80 + i % 60)
    else if r.base = RED_ADDER_STAT.base then (if i < 48 then 0 else 1)
    else if r.base = CFG_KEY_STAT.base then 1
    else if r.base = SYS_ID1.base then Config.variant.setWidth 32
    else if r.base = SYS_ID2.base then Config.serial.setWidth 32
    else if r.base = SYS_ID3.base then (Config.serial >>> 32).setWidth 32
    else BitVec.ofNat 32 r.reset

/-- The word at an offset of the register file. Log: 10 (DESIGN CHOICE). -/
def Dev.rdOff (d : Dev) (off : Nat) : BitVec 32 := tget resetOf d.regs off

/-- Write a word of the register file. Log: 10 (DESIGN CHOICE). -/
def Dev.wrOff (d : Dev) (off : Nat) (v : BitVec 32) : Dev := { d with regs := tset resetOf d.regs off v }

/-- The value of instance `i` of a register. -/
def Dev.rd (d : Dev) (r : RegDesc) (i : Nat) : Nat := (d.rdOff (r.addr i)).toNat

/-- Write instance `i` of a register. -/
def Dev.wr (d : Dev) (r : RegDesc) (i v : Nat) : Dev := d.wrOff (r.addr i) (BitVec.ofNat 32 v)

/-- The value of a field of instance `i`. -/
def Dev.get (d : Dev) (f : Field) (i : Nat) : Nat := bitsOf (d.rd f.reg i) f.lo f.width

/-- Write a field of instance `i`. -/
def Dev.set (d : Dev) (f : Field) (i v : Nat) : Dev := d.wr f.reg i (setBits (d.rd f.reg i) f.lo f.width v)

/-- A 64-bit value in a low and a high register (R9). -/
def Dev.get64 (d : Dev) (lo hi : RegDesc) (i : Nat) : Nat := d.rd lo i + 2 ^ 32 * d.rd hi i

/-- Write a 64-bit value into its two registers. -/
def Dev.set64 (d : Dev) (lo hi : RegDesc) (i v : Nat) : Dev := (d.wr lo i v).wr hi i (v / 2 ^ 32)

/-- Count events in an event counter, which saturates (R14). -/
def Dev.count (d : Dev) (r : RegDesc) (i n : Nat) : Dev := d.wr r i (min (d.rd r i + n) 0xFFFFFFFF)

/-- Add to a 64-bit counter, modulo 2^64. Log: 186 (DESIGN CHOICE). -/
def Dev.count64 (d : Dev) (lo hi : RegDesc) (i n : Nat) : Dev :=
  d.set64 lo hi i ((d.get64 lo hi i + n) % 2 ^ 64)

/-- TIME_NOW (R400). -/
def Dev.now (d : Dev) : Nat := d.get64 TIME_NOW_LO TIME_NOW_HI 0

/-- Draw a free 32-bit value: one that the manual leaves undefined. Log: 13 (DESIGN CHOICE). -/
def Dev.freeWord (d : Dev) : Nat := (Config.freeWord d.free).toNat

/-- Advance the counter of free values. Log: 13 (DESIGN CHOICE). -/
def Dev.drew (d : Dev) : Dev := { d with free := d.free + 1 }

/-- Record something sent. Log: 5 (DESIGN CHOICE). -/
def Dev.send (d : Dev) (e : OutEv) : Dev := { d with out := e :: d.out }

/-! ## The register window -/

/-- The blocks that are served in Recess: SYS, INT, FLT, AGE, PWR, THM and TIME (R562, Table 21-1). Log: 28 (DEDUCED). -/
def recessBlock (off : Nat) : Bool := decide (off < 0x200000) || decide (0x1B00000 ≤ off)

/-- A function exists and reaches its register window: from READY the physical function and the virtual functions that NumVFs
enables (R574, R575), and where no firmware was accepted the physical function (R571). Log: 12 (DEDUCED). -/
def Dev.window (d : Dev) (fn : Nat) : Bool :=
  match d.boot.stage with
  | .ready => decide (fn ≤ d.boot.numVfs)
  | .failed => fn == 0
  | _ => false

/-- A function's access to an offset of the window is served: after a failed boot the SYS block alone (R571), outside AWAKE the
blocks of R562. Log: 27 (DEDUCED); 28 (DEDUCED). -/
def Dev.windowServed (d : Dev) (fn off : Nat) : Bool :=
  d.window fn && (if d.boot.stage = .failed then decide (off < 0x100000)
    else d.get PWR_RECESS.STATE 0 == 0 || recessBlock off)

/-! ## Memory -/

/-- What a byte of memory that nothing has written reads as: 0 in the fast tier and in Spindle storage from READY (R573),
and 0 in the capacity tier (log 6). Log: 6 (DESIGN CHOICE). -/
def memDefault (_ : Nat) : BitVec 8 := 0

/-- Memory's canonical form: addresses strictly rising, no entry equal to what an unlisted address reads as. -/
def Memory.wf (m : List Host.Cell) : Bool := twf memDefault m

/-- One byte of memory. Log: 6 (DESIGN CHOICE). -/
def Dev.rdByte (d : Dev) (a : Nat) : BitVec 8 := tget memDefault d.mem a

/-- `n` bytes of memory from an address upward. -/
def Dev.rdBytes (d : Dev) (a : Nat) : Nat → List (BitVec 8)
  | 0 => []
  | n + 1 => d.rdByte a :: d.rdBytes (a + 1) n

/-- A little-endian value of `n` bytes (R6). -/
def Dev.rdLe (d : Dev) (a n : Nat) : Nat := ofLe (d.rdBytes a n)

/-- Write bytes into a memory from an address upward. -/
def memWrite (m : List Host.Cell) (a : Nat) : List (BitVec 8) → List Host.Cell
  | [] => m
  | b :: t => memWrite (tset memDefault m a b) (a + 1) t

/-- The address ranges of the two tiers (R314): the addressable fast tier, its spare region, the capacity tier. -/
def ftEnd : Nat := 0x0017A00000000
def spareEnd : Nat := 0x0018000000000
def ctBase : Nat := 0x0040000000000
def ctEnd : Nat := 0x0080000000000

/-- The channel that holds a device physical address, none where it is unmapped (R314). -/
def channelOf (a : Nat) : Option Nat :=
  if a < ftEnd then some (a / 2048 % 384)
  else if a < spareEnd then some ((a - ftEnd) / 2048 % 384)
  else if a < ctBase then none
  else if a < ctEnd then some (384 + (a - ctBase) / 8192 % 64)
  else none

/-- The extent of a channel in which a device physical address lies (2 MiB of channel-local offset, R314). -/
def extentOf (a : Nat) : Nat :=
  if a < ftEnd then a / 2048 / 384 * 2048 / 2097152
  else if a < spareEnd then 2016 + (a - ftEnd) / 2048 / 384 * 2048 / 2097152
  else (a - ctBase) / 8192 / 64 * 8192 / 2097152

/-- The 64-byte sectors that a range touches (R319). -/
def sectorsOf (a n : Nat) : List Nat := if n = 0 then [] else (List.range ((a + n - 1) / 64 - a / 64 + 1)).map fun k => 64 * (a / 64 + k)

/-- The name of the extent in which an address lies: 65,536 × channel + extent (R314). -/
def extentKey (a : Nat) : Option Nat := (channelOf a).map fun c => 65536 * c + extentOf a

/-- The channel that holds an extent now: its own, or the one that it was redirected to (R338). -/
def Dev.extentHome (d : Dev) (k : Nat) : Nat := tget (fun j => j / 65536) d.memx.redir k

/-- The channel that holds an address now, none where it is unmapped (R314, R338). -/
def Dev.homeOf (d : Dev) (a : Nat) : Option Nat := (extentKey a).map d.extentHome

/-- The channel that serves an address is DEAD (R333, R342). -/
def Dev.deadAt (d : Dev) (a : Nat) : Bool := !d.memx.dead.isEmpty && (d.homeOf a).any d.memx.dead.contains

/-- A sector lies in an extent that has become unreadable (R333, R335, R340). -/
def MemSt.badExtent (x : MemSt) (s : Nat) : Bool :=
  (extentKey s).any fun k => x.bad.any fun b => decide (b.1 ≤ k) && decide (k < b.2)

/-- A sector lies in an extent that the migration in progress has still to copy (R338). -/
def MemSt.moving (x : MemSt) (s : Nat) : Bool :=
  match x.mig with
  | some m => (extentKey s).any fun k => m.todo.any fun p => p.1 == k
  | none => false

/-- A sector reads as poison: marked (R328), in an extent that has become unreadable and not written whole since, or on a
DEAD channel (R333, R342). -/
def Dev.badSector (d : Dev) (s : Nat) : Bool :=
  d.poison.contains s || (d.memx.badExtent s && !d.memx.cleaned.contains s) || d.deadAt s

/-- A range reaches a DEAD channel (R333, R342). -/
def Dev.deadRange (d : Dev) (a n : Nat) : Bool :=
  !d.memx.dead.isEmpty && (sectorsOf a n).any d.deadAt

/-- The sectors that a range covers whole. -/
def wholeSectors (a n : Nat) : List Nat := (sectorsOf a n).filter fun s => decide (a ≤ s) && decide (s + 64 ≤ a + n)

/-- Sectors that clean data cover whole lose their mark (R328); in an unreadable extent they read again, and during a
migration both places hold them (R338). -/
def Dev.cleanSectors (d : Dev) (a n : Nat) : Dev :=
  let x := d.memx
  let d1 := { d with poison := d.poison.filter fun s => !(decide (a ≤ s) && decide (s + 64 ≤ a + n)) }
  if x.bad.isEmpty && x.mig.isNone then d1 else
  let whole := wholeSectors a n
  { d1 with memx := { x with
    cleaned := (whole.filter x.badExtent).foldl (fun l s => sins s l) x.cleaned
    both := (whole.filter x.moving).foldl (fun l s => sins s l) x.both } }

/-- Write bytes to memory that is there. A write of a whole 32-bit word of Spindle storage clears its poison (R519), and a
clean write of a whole sector clears the sector's mark (R328). -/
def Dev.putBytes (d : Dev) (a : Nat) (bs : List (BitVec 8)) : Dev :=
  let n := bs.length
  ({ d with
    mem := memWrite d.mem a bs
    poisonW := d.poisonW.filter fun w => !(decide (a ≤ w) && decide (w + 4 ≤ a + n)) }).cleanSectors a n

/-- Write bytes to memory. The sectors of a DEAD channel take none of them (R319, R333, R342). -/
def Dev.wrBytes (d : Dev) (a : Nat) (bs : List (BitVec 8)) : Dev :=
  if d.deadRange a bs.length then
    (sectorsOf a bs.length).foldl (fun (e : Dev) s =>
      let lo := max s a
      if d.deadAt s then e else e.putBytes lo ((bs.drop (lo - a)).take (s + 64 - lo))) d
  else d.putBytes a bs

/-- Write a little-endian value of `n` bytes (R6). -/
def Dev.wrLe (d : Dev) (a n v : Nat) : Dev := d.wrBytes a (toLe n v)

/-- Make `n` bytes read as zero. -/
def Dev.zero (d : Dev) (a n : Nat) : Dev := { d with mem := terase d.mem a n }

/-- Copy `n` bytes. -/
def Dev.copy (d : Dev) (src dst n : Nat) : Dev := { d with mem := tcopy memDefault d.mem src dst n }

/-- Exchange two ranges of `n` bytes that do not overlap. -/
def Dev.swap (d : Dev) (a b n : Nat) : Dev :=
  let ra := trange d.mem a n
  let rb := trange d.mem b n
  let m := terase (terase d.mem a n) b n
  let m := ra.foldl (fun acc p => tset memDefault acc (p.1 - a + b) p.2) m
  { d with mem := rb.foldl (fun acc p => tset memDefault acc (p.1 - b + a) p.2) m }

/-- A range meets a poisoned word of Spindle storage (R519). -/
def Dev.poisonedW (d : Dev) (a n : Nat) : Bool :=
  d.poisonW.any fun w => decide (w < a + n) && decide (a < w + 4)

/-- A range meets a poisoned sector (R319, R328). -/
def Dev.poisoned (d : Dev) (a n : Nat) : Bool :=
  if d.poison.isEmpty && d.memx.bad.isEmpty && d.memx.dead.isEmpty then false else (sectorsOf a n).any d.badSector

/-- A Room's windows: base and bytes of each tier (R316). -/
def Dev.ftWin (d : Dev) (r : Nat) : Nat × Nat :=
  (d.get64 MEM_FT_BASE_LO MEM_FT_BASE_HI r, d.get MEM_FT_SIZE.UNITS r * 2097152)
def Dev.ctWin (d : Dev) (r : Nat) : Nat × Nat :=
  (d.get64 MEM_CT_BASE_LO MEM_CT_BASE_HI r, d.get MEM_CT_SIZE.UNITS r * 2097152)

/-- A range of `n` bytes lies wholly inside a window. -/
def inside (w : Nat × Nat) (a n : Nat) : Bool := decide (w.1 ≤ a) && decide (a + n ≤ w.1 + w.2)

/-- A range lies wholly inside one of a Room's windows (R317). -/
def Dev.inWindows (d : Dev) (r a n : Nat) : Bool := inside (d.ftWin r) a n || inside (d.ctWin r) a n

/-- Base of a Spindle's Desk window (R73). -/
def deskBase (i : Nat) : Nat := 0x1000000000000 + i * 0x1000000

/-- Offsets of the Desk window (Table 02-11). -/
def offBobbin : Nat := 0x800000
def offAcc (k : Nat) : Nat := 0x840000 + k * 0x10000
def offActive : Nat := 0x860000
def offStandby : Nat := 0x880000
/-- Bytes of a configuration plane (R38). -/
def planeBytes : Nat := 98304

/-- The balance of a regulator (`2 × Room + tier`) in tenths of a byte (R321). -/
def Dev.bal (d : Dev) (k : Nat) : Int := tget (fun _ => (0 : Int)) d.memx.bal k

/-- Set a balance, and show it in MEM_REG_BAL in whole bytes. -/
def Dev.setBal (d : Dev) (k : Nat) (b : Int) : Dev :=
  let d1 := d.wr MEM_REG_BAL k (ofSigned 32 (b / 10))
  { d1 with memx := { d1.memx with bal := tset (fun _ => (0 : Int)) d1.memx.bal k b } }

/-- The tier of an address: 0 fast, 1 capacity (R313). -/
def tierOf (a : Nat) : Nat := if a < spareEnd then 0 else 1

/-- The charge of a request in bytes (R322). -/
def chargeOf (write : Bool) (a n : Nat) : Nat :=
  ((sectorsOf a n).map fun s => if write && !(decide (a ≤ s) && decide (s + 64 ≤ a + n)) then 128 else 64).foldl (· + ·) 0

/-- Charge a Room's regulator, whatever its balance (R147, R322). -/
def Dev.charge (d : Dev) (room : Option Nat) (a bytes : Nat) : Dev :=
  match room with
  | some r => let k := 2 * r + tierOf a; d.setBal k (d.bal k - 10 * (bytes : Int))
  | none => d

/-! ## Interrupts -/

/-- The interrupt sources (Tables 21-6, 21-7): register, mask of its source bits, whether they belong to a Room's set
(instance = Room), and the group. DMA channels are handled apart (R593). -/
def intTable : List (RegDesc × Nat × Bool × Nat) :=
  [(CFG_STATUS, 0xE0000, true, 0), (ROOM_STATUS, 0x10000, true, 1), (ROOM_PHASE_STAT, 0x18, true, 1),
   (NUM_STATUS, 0x1F, true, 2), (SKN_STAT, 0x1FF, true, 3), (MEM_ROOM_STAT, 3, true, 4), (STR_ROOM_STAT, 1, true, 5),
   (KL_RC_STAT, 0x4000, true, 7), (RED_STAT, 0xC, true, 8), (UPD_STAT, 7, true, 9), (MED_STAT, 0xFFF, true, 10),
   (MED_PREP_STAT, 7, true, 11), (VC_STAT, 7, true, 12),
   (TT_BELL_STAT, 2, false, 1), (MEM_STATUS, 0x3F, false, 2), (KL_PORT_STAT, 0x38000000, false, 3),
   (TIME_STAT, 0x18, false, 4), (RED_CHECK_STAT, 7, false, 5), (FLT_STAT, 0x1F, false, 6), (AGE_STAT, 0xF, false, 7),
   (PWR_STAT, 0x7C00, false, 8), (THM_STAT, 0x3F, false, 9)]

/-- The summary set and group of a source bit of a register's instance (R591, R593). -/
def Dev.groupOf (d : Dev) (r : RegDesc) (i mask : Nat) : Option (Nat × Nat) :=
  if r.base = DMA_CH_STAT.base then
    if mask &&& 0x38 = 0 then none
    else if d.get DMA_CH_CTL.ROOM_EN i = 1 then some (1 + d.get DMA_CH_CTL.ROOM i, 6) else some (0, 0)
  else
    intTable.findSome? fun e =>
      if e.1.base = r.base && e.2.1 &&& mask != 0 then some (if e.2.2.1 then (1 + i, e.2.2.2) else (0, e.2.2.2)) else none

/-- Send an MSI-X message, or hold it as pending while its vector or its function is masked (R594). Log: 29 (PRESUMED). -/
def Dev.msix (d : Dev) (fn vec : Nat) : Dev :=
  if d.irq.openFns.contains fn && d.irq.openVecs.contains (2048 * fn + vec) then d.send (.msix fn vec)
  else { d with irq := { d.irq with held := sins (2048 * fn + vec) d.irq.held } }

/-- Set a summary bit of one view and send its message when an unmasked bit goes from 0 to 1 (R592, R594). -/
def Dev.summary (d : Dev) (status mask : RegDesc) (i g fn vec : Nat) : Dev :=
  let old := d.rd status i
  let d1 := d.wr status i (old ||| 2 ^ g)
  if bitAt old g || bitAt (d.rd mask i) g then d1 else d1.msix fn vec

/-- The summary effects of a hardware set of a source of group `g` of set `s` (R592). Log: 11 (DEDUCED). -/
def Dev.notify (d : Dev) (s g : Nat) : Dev :=
  let d1 := d.summary INT_STATUS INT_MASK s g 0 s
  if s = 0 then d1 else d1.summary INT_VSTATUS INT_VMASK (s - 1) g s 0

/-- Set the bits `v` of a field by hardware, with the summary effects where the field is an interrupt source (R592).
Log: 11 (DEDUCED). -/
def Dev.raiseBits (d : Dev) (f : Field) (i v : Nat) : Dev :=
  let d1 := d.set f i (d.get f i ||| v)
  match d.groupOf f.reg i (v * 2 ^ f.lo) with
  | none => d1
  | some (s, g) => d1.notify s g

/-- Set a one-bit status field by hardware. -/
def Dev.raise (d : Dev) (f : Field) (i : Nat) : Dev := d.raiseBits f i 1

/-- Whether a source bit of group `g` of set `s` is 1 in some instance among the first `n` of a register (R592). -/
def Dev.anySource (d : Dev) (r : RegDesc) (mask : Nat) : Nat → Bool
  | 0 => false
  | n + 1 => d.rd r n &&& mask != 0 || d.anySource r mask n

/-- DMA channels below `n` whose sources count in set `s` now (R593). -/
def Dev.anyDma (d : Dev) (s : Nat) : Nat → Bool
  | 0 => false
  | n + 1 =>
    (d.rd DMA_CH_STAT n &&& 0x38 != 0
      && (if d.get DMA_CH_CTL.ROOM_EN n = 1 then decide (s = 1 + d.get DMA_CH_CTL.ROOM n) else decide (s = 0)))
    || d.anyDma s n

/-- INT_LEVEL of set `s` (R592): computed from the source bits. Log: 10 (DESIGN CHOICE). -/
def Dev.intLevel (d : Dev) (s : Nat) : Nat :=
  let base := if d.anyDma s 128 then (if s = 0 then 1 else 2 ^ 6) else 0
  intTable.foldl (fun acc e =>
    let live := if e.2.2.1 then decide (s ≠ 0) && d.rd e.1 (s - 1) &&& e.2.1 != 0
      else decide (s = 0) && d.anySource e.1 e.2.1 (if e.1.stride = 0 then 1 else e.1.count)
    if live then acc ||| 2 ^ e.2.2.2 else acc) base

/-! ## Rooms and Spindles -/

/-- The engine state of a Room. -/
def Dev.room (d : Dev) (r : Nat) : RoomSt := tget (fun _ => RoomSt.init) d.que.rooms r

/-- Replace the engine state of a Room. -/
def Dev.setRoom (d : Dev) (r : Nat) (x : RoomSt) : Dev :=
  { d with que := { d.que with rooms := tset (fun _ => RoomSt.init) d.que.rooms r x } }

/-- Room states (Table 04-1). -/
def stEmpty : Nat := 0
def stLoading : Nat := 1
def stLoaded : Nat := 2
def stHeld : Nat := 3
def stUnloading : Nat := 4

/-- The state of a Room. -/
def Dev.roomState (d : Dev) (r : Nat) : Nat := d.get ROOM_STATUS.STATE r

/-- The physical index of a logical Spindle, where one serves it (R47, Table 02-13). -/
def Dev.physOf (d : Dev) (l : Nat) : Option Nat :=
  if d.get SPX_REMAP.MAPPED l = 1 then some (64 * (l / 60) + d.get SPX_REMAP.PHYS l) else none

/-- The logical index that a physical Spindle serves (Table 02-15). -/
def Dev.logicalOf (d : Dev) (i : Nat) : Nat := 60 * (i / 64) + d.get SPX_STATE.LPOS i

/-- The logical Spindles of a Room, ascending (R43). -/
def Dev.roomLogicals (d : Dev) (r : Nat) : List Nat :=
  (d.room r).benches.flatMap fun b => [4 * b, 4 * b + 1, 4 * b + 2, 4 * b + 3]

/-- The physical Spindles of a Room. -/
def Dev.roomSpindles (d : Dev) (r : Nat) : List Nat := (d.roomLogicals r).filterMap d.physOf

/-- The Room that a physical Spindle is bound to. -/
def Dev.spindleRoom (d : Dev) (i : Nat) : Option Nat :=
  if d.get SPX_STATE.BOUND i = 1 then some (d.get SPX_STATE.ROOM i) else none

/-- Put a Room into HELD with a cause, or change the cause of a HELD Room; entry and each change set HELD_EV (R125). -/
def Dev.hold (d : Dev) (r cause : Nat) : Dev :=
  let same := decide (d.roomState r = stHeld) && decide (d.get ROOM_STATUS.HOLD_CAUSE r = cause)
  let d1 := (d.set ROOM_STATUS.STATE r stHeld).set ROOM_STATUS.HOLD_CAUSE r cause
  if same then d1 else d1.raise ROOM_STATUS.HELD_EV r

/-- End a hold of cause 1 or 2 (R125): to LOADED, or into a host hold that waits. -/
def Dev.unhold (d : Dev) (r : Nat) : Dev :=
  if d.get ROOM_CTL.HOLD r = 1 then d.hold r 1
  else ((d.set ROOM_STATUS.STATE r stLoaded).set ROOM_STATUS.HOLD_CAUSE r 0).setRoom r { d.room r with due := true }

/-- The slots usable in a Room's save area (R126). -/
def Dev.slotsOf (d : Dev) (r : Nat) : Nat :=
  let u := d.get CFG_SAVE_REQ.UNITS r
  if u = 0 then 0 else min 3 (d.get ROOM_SAVE_SIZE.UNITS r / u)

/-! ## Commands -/

/-- A field of a command's packet (Table 04-2). -/
def Cmd.word (c : Cmd) (n : Nat) : Nat := nth 0 c.words n
def Cmd.opcode (c : Cmd) : Nat := bitsOf (c.word 0) 0 8
def Cmd.irq (c : Cmd) : Bool := bitAt (c.word 0) 8
def Cmd.fence (c : Cmd) : Bool := bitAt (c.word 0) 9
def Cmd.seq (c : Cmd) : Nat := bitsOf (c.word 0) 16 16
def Cmd.vector (c : Cmd) : Nat := bitsOf (c.word 1) 0 11
def Cmd.cplHost (c : Cmd) : Bool := bitAt (c.word 1) 11
def Cmd.cplAddr (c : Cmd) : Nat := c.word 2 + 2 ^ 32 * c.word 3
/-- Word `n` of ARGS. -/
def Cmd.arg (c : Cmd) (n : Nat) : Nat := c.word (8 + n)
/-- A 64-bit value in ARGS words `n` and `n + 1`. -/
def Cmd.arg64 (c : Cmd) (n : Nat) : Nat := c.arg n + 2 ^ 32 * c.arg (n + 1)

/-- A fetched command by its number. -/
def Dev.cmd? (d : Dev) (id : Nat) : Option Cmd := d.que.cmds.find? fun c => c.id == id

/-- Change a fetched command. -/
def Dev.setCmd (d : Dev) (c : Cmd) : Dev :=
  { d with que := { d.que with cmds := d.que.cmds.map fun x => if x.id == c.id then c else x } }

/-- Forget a fetched command. -/
def Dev.dropCmd (d : Dev) (id : Nat) : Dev :=
  { d with que := { d.que with cmds := d.que.cmds.filter fun x => x.id != id } }

/-- The completion record (R133). -/
def complRecord (c : Cmd) (status detail now : Nat) : List (BitVec 8) :=
  toLe 4 (status % 2 ^ 16 + 2 ^ 16 * c.seq)
    ++ toLe 4 (c.queue % 2 ^ 14 + 2 ^ 14 * (c.level % 4) + 2 ^ 16 * (detail % 2 ^ 16)) ++ toLe 8 now

/-- The completion address lies where the Room may write: in host memory, or within the Room's fast-tier window (R317). -/
def Dev.cplOk (d : Dev) (c : Cmd) : Bool := c.cplHost || inside (d.ftWin c.room) c.cplAddr 16

/-- Complete a command (R132, R133): the record in one write, then the MSI-X message if IRQ is 1; the command leaves the
queue engine and is counted. -/
def Dev.complete (d : Dev) (c : Cmd) (status detail : Nat) : Dev :=
  let fn := 1 + c.room
  let rec16 := complRecord c status detail d.now
  let d1 := if c.cplHost then d.send (.hostWrite fn c.cplAddr rec16)
    else if d.cplOk c then (d.wrBytes c.cplAddr rec16).charge (some c.room) c.cplAddr (chargeOf true c.cplAddr 16)
    else d.raise MEM_ROOM_STAT.WIN_EV c.room
  let d2 := if c.irq then d1.msix fn c.vector else d1
  ((d2.dropCmd c.id).count QUE_DONE_CNT c.queue 1)

/-- Complete a command whose DETAIL the manual does not state: a free value. Log: 14 (DEDUCED). -/
def Dev.finish (d : Dev) (c : Cmd) (status : Nat) : Dev := (d.complete c status d.freeWord).drew

/-- The running RUN command of a Room (ROOM_RUN, R135). -/
def Dev.running (d : Dev) (r : Nat) : Option Cmd :=
  if d.get ROOM_RUN.VALID r = 1 then
    d.que.cmds.find? fun c => c.room == r && c.opcode == 1 && c.phase == .started
  else none

/-! ## The fault log -/

/-- Write a FLT_LOG record (R529, R530): the record, the count of records, an overwrite of an unread record, REC_EV.
Log: 149 (DEDUCED). -/
def Dev.writeLog (d : Dev) (kind cls action : Nat) (room : Option Nat) (strikes unit sub addr code time : Nat) : Dev :=
  let n := d.rd FLT_LOG_WR 0
  let w0 := kind % 256 + 2 ^ 8 * (cls % 4) + 2 ^ 10 * (action % 16)
    + (match room with | some r => 2 ^ 14 * (r % 16) + 2 ^ 18 | none => 0) + 2 ^ 19 * (min strikes 7)
  let w1 := unit % 2 ^ 16 + 2 ^ 16 * (sub % 2 ^ 16)
  let k := 8 * (n % 512)
  let lost := decide ((n + 2 ^ 32 - d.rd FLT_LOG_RD 0) % 2 ^ 32 ≥ 512)
  let d1 := if lost then (d.count FLT_LOST_CNT 0 1).raise FLT_STAT.OVF_EV 0 else d
  let d2 := ((d1.wr FLT_LOG k w0).wr FLT_LOG (k + 1) w1).wr FLT_LOG (k + 2) (time % 2 ^ 32)
  let d3 := ((d2.wr FLT_LOG (k + 3) (time / 2 ^ 32)).wr FLT_LOG (k + 4) (addr % 2 ^ 32)).wr FLT_LOG (k + 5) (addr / 2 ^ 32 % 2 ^ 20)
  let d4 := ((d3.wr FLT_LOG (k + 6) (code % 2 ^ 16)).wr FLT_LOG (k + 7) n).wr FLT_LOG_WR 0 ((n + 1) % 2 ^ 32)
  let cnt := tget (fun _ => ((0, 0) : Nat × Nat)) d4.flt.faults kind
  let cnt' := if cls = 1 then (cnt.1 + 1, cnt.2) else if cls = 2 then (cnt.1, cnt.2 + 1) else cnt
  let d5 := { d4 with flt := { d4.flt with faults := tset (fun _ => ((0, 0) : Nat × Nat)) d4.flt.faults kind cnt' } }
  d5.raise FLT_STAT.REC_EV 0

/-- A FLT_LOG record falls due: it is written, or waits for the end of a controller restart (R528). -/
def Dev.log (d : Dev) (kind cls action : Nat) (room : Option Nat) (strikes unit sub addr code : Nat) : Dev :=
  if d.flt.wdogBusy then
    { d with flt := { d.flt with deferred := d.flt.deferred ++ [.record kind cls action room strikes unit sub addr code d.now] } }
  else d.writeLog kind cls action room strikes unit sub addr code d.now

/-- Write a retirement into the one-time-programmable array (R531). -/
def Dev.burn (d : Dev) (p : Part) : Dev :=
  { d with flt := { d.flt with otp := if d.flt.otp.contains p then d.flt.otp else d.flt.otp ++ [p] } }

/-- The window within which a unit's strikes count, in ns (R432, R520). -/
def Dev.strikeWindow (d : Dev) (p : Part) : Nat :=
  match p with
  | .adder _ => d.get RED_CHECK_CTL.WIN_S 0 * 1000000000
  | _ => d.get FLT_CTL.WIN_S 0 * 1000000000

/-- The strikes of a unit within its window of now (R432, R520). -/
def Dev.strikesOf (d : Dev) (p : Part) : Nat :=
  (d.flt.strikes.filter fun s => s.1 == p && decide (d.now ≤ s.2 + d.strikeWindow p)).length

/-- Show a unit's strike count in its register. -/
def Dev.showStrikes (d : Dev) (p : Part) : Dev :=
  match p with
  | .spindle i => d.set FLT_SPX_STAT.STRIKES i (min 7 (d.strikesOf p))
  | .engine k => d.set FLT_ENG_STAT.STRIKES k (min 7 (d.strikesOf p))
  | .adder a => d.set RED_ADDER_STAT.STRIKES a (min 7 (d.strikesOf p))
  | _ => d

/-- Add a strike to a unit (R520). -/
def Dev.addStrike (d : Dev) (p : Part) : Dev :=
  ({ d with flt := { d.flt with strikes := d.flt.strikes ++ [(p, d.now)] } }).showStrikes p

/-- Logical positions below `960` that are mapped, and Benches whose four positions are (Table 21-3). -/
def Dev.mappedCount (d : Dev) : Nat → Nat
  | 0 => 0
  | n + 1 => d.get SPX_REMAP.MAPPED n + d.mappedCount n

def Dev.benchCount (d : Dev) : Nat → Nat
  | 0 => 0
  | n + 1 =>
    (if [4 * n, 4 * n + 1, 4 * n + 2, 4 * n + 3].all fun l => d.get SPX_REMAP.MAPPED l == 1 then 1 else 0) + d.benchCount n

/-- Write SYS_CAP0.N_ACTIVE and BENCHES (Table 21-3). -/
def Dev.showActive (d : Dev) : Dev :=
  (d.set SYS_CAP0.N_ACTIVE 0 (d.mappedCount 960)).set SYS_CAP0.BENCHES 0 (d.benchCount 240)

end Sys2Proof.Machine
end

