-- ==== Sys2Proof/Machine/Recovery.lean ====
section
/-! DEFINITION. Faults, aborts, strikes, retirements and FATAL (Faults, spares, ageing and margins), and the alert
causes of the management port. -/

namespace Sys2Proof.Machine

/-- Set an alert cause (R581, Table 20-7). -/
def Dev.alert (d : Dev) (b : Nat) : Dev :=
  { d with mgmt := { d.mgmt with causes := d.mgmt.causes ||| 2 ^ b } }

/-- ALERT_N is asserted: some unmasked cause is set (R581). -/
def Dev.alertAsserted (d : Dev) : Bool := d.mgmt.causes &&& d.mgmt.unmasked != 0

/-- The engine state of a Spindle. -/
def Dev.sp (d : Dev) (i : Nat) : SpindleSt := tget (fun _ => SpindleSt.init) d.spx i

/-- Replace the engine state of a Spindle. -/
def Dev.setSp (d : Dev) (i : Nat) (x : SpindleSt) : Dev := { d with spx := tset (fun _ => SpindleSt.init) d.spx i x }

/-- SYS_STATUS.DEGRADED (R588). -/
def Dev.degraded (d : Dev) : Bool := d.get FLT_DEGRADED.POOLS 0 != 0 || d.get FLT_STAT.FATAL 0 == 1

/-- Set a pool's bit of FLT_DEGRADED, with DEGRADED_EV and its alert cause (R526, Table 18-6). -/
def Dev.degrade (d : Dev) (b : Nat) : Dev :=
  let old := d.get FLT_DEGRADED.POOLS 0
  let d1 := (d.set FLT_DEGRADED.POOLS 0 (old ||| 2 ^ b)).raise FLT_STAT.DEGRADED_EV 0
  if bitAt old b then d1 else d1.alert 3

/-- The Reel of a Spindle. -/
def Dev.reel (d : Dev) (i : Nat) : ReelSt := tget (fun _ => ReelSt.init) d.reels i
def Dev.setReel (d : Dev) (i : Nat) (x : ReelSt) : Dev := { d with reels := tset (fun _ => ReelSt.init) d.reels i x }

/-! ## Writes to a Spindle's Desk -/

/-- Keep what a write of `n` bytes at an address of a Spindle's Desk overwrites while a tile is in the array, with the steps that the
array has read by then: free, and never fewer than at the write before (R256). Log: 180 (DEDUCED). -/
def Dev.journal (d : Dev) (i a n : Nat) : Dev :=
  let x := d.sp i
  match x.arr with
  | none => d
  | some t =>
    let lo := a / 4 * 4
    let len := (a + n + 3) / 4 * 4 - lo
    let some' := fun (t : Tile) (k : Nat) => max k (1 + d.freeWord % t.kt)
    let last := fun (f : Overwrite → Nat) => ((x.rewrites.map f).getLast?).getD 0
    let o : Overwrite := ⟨lo, d.rdBytes lo len, d.poisonW.filter fun w => decide (lo ≤ w) && decide (w < lo + len),
      if x.arr2.isSome then t.kt else some' t (last Overwrite.fed),
      match x.arr2 with | some u => some' u (last Overwrite.fed2) | none => 0⟩
    (d.setSp i { x with rewrites := x.rewrites ++ [o] }).drew

/-- The same for several ranges. -/
def Dev.journalAll (d : Dev) (i : Nat) (rs : List (Nat × Nat)) : Dev := rs.foldl (fun (e : Dev) r => e.journal i r.1 r.2) d

/-- Write bytes to a Spindle's Desk. -/
def Dev.wrDesk (d : Dev) (i a : Nat) (bs : List (BitVec 8)) : Dev := (d.journal i a bs.length).wrBytes a bs

/-- Put back what stood where a write went. -/
def Dev.undo (d : Dev) (o : Overwrite) : Dev :=
  let d1 := d.wrBytes o.addr o.old
  { d1 with poisonW := o.bad.foldl (fun (l : List Nat) w => sins w l) d1.poisonW }

/-- The Desk as step `k` of the tile in the array read it (R256). -/
def Dev.viewAt (d : Dev) (i k : Nat) : Dev :=
  ((d.sp i).rewrites.filter fun o => decide (k < o.fed)).foldr (fun (o : Overwrite) (e : Dev) => e.undo o) d

/-! ## The Reel program -/

/-- Address of the active plane's Reel program (Table 12-1). -/
def reelBase (i : Nat) : Nat := deskBase i + offActive + 0xC000

/-- A field of a stream entry of the active Reel program (Table 12-2). -/
def Dev.stf (d : Dev) (i s off n : Nat) : Nat := d.rdLe (reelBase i + 0x40 + 128 * s + off) n

/-- Bytes per row, rows per unit, units, buffers in the ring. -/
def Dev.stRow (d : Dev) (i s : Nat) : Nat := d.stf i s 0x24 4
def Dev.stUnitRows (d : Dev) (i s : Nat) : Nat := d.stf i s 0x28 4
def Dev.stUnits (d : Dev) (i s : Nat) : Nat := d.stf i s 0x2C 4
def Dev.stBufs (d : Dev) (i s : Nat) : Nat := d.stf i s 8 1
def Dev.stFlag (d : Dev) (i s k : Nat) : Bool := bitAt (d.stf i s 1 1) k

/-- Σ c_d × STRIDE_d for row `j` (R354). -/
def Dev.rowSum (d : Dev) (i s j : Nat) : Int :=
  let c := fun k => d.stf i s (0x30 + 4 * k) 4
  let t := fun k => toSigned 32 (d.stf i s (0x40 + 4 * k) 4)
  let i0 := j % c 0
  let i1 := j / c 0 % c 1
  let i2 := j / c 0 / c 1 % c 2
  let i3 := j / c 0 / c 1 / c 2 % c 3
  (i0 : Int) * t 0 + (i1 : Int) * t 1 + (i2 : Int) * t 2 + (i3 : Int) * t 3

/-- Address of row `j`, or of its block (R354, R355). -/
def Dev.rowAddr (d : Dev) (i s j : Nat) : Nat :=
  ((d.stf i s 0x10 8 : Int) + (if d.stFlag i s 0 then 4112 else 1) * d.rowSum i s j).toNat

/-- Bytes that row `j` occupies in its buffer (R355). -/
def Dev.rowLen (d : Dev) (i s j : Nat) : Nat :=
  let rows := d.stUnitRows i s * d.stUnits i s
  if d.stFlag i s 0 && j + 1 == rows then d.stf i s 0x50 4 - 4096 * (rows - 1) else d.stRow i s

/-- Bytes of unit `u`. -/
def Dev.unitLen (d : Dev) (i s u : Nat) : Nat :=
  let n := d.stUnitRows i s
  if d.stFlag i s 0 then ((List.range n).map fun k => d.rowLen i s (u * n + k)).foldl (· + ·) 0 else n * d.stRow i s

/-- Desk window address of unit `u`'s buffer (R359). -/
def Dev.bufAddr (d : Dev) (i s u : Nat) : Nat :=
  let e := d.stf i s 6 2 + u % max 1 (d.stBufs i s)
  deskBase i + 64 * (d.rdLe (reelBase i + 0x2040 + 8 * e) 4 % 131072)

/-- Bytes that have come into, or been acknowledged for, unit `u`. -/
def StreamSt.have (x : StreamSt) (u : Nat) : Nat := tget (fun _ => 0) x.got u

/-- Units of a read stream whose buffers are filling: not yet waited on, asked for at least in part, and not all there. -/
def Dev.filling (d : Dev) (i s : Nat) (x : StreamSt) : List Nat :=
  if x.read then
    ((List.range (d.stBufs i s + 1)).map fun k => x.waited + k).filter fun u =>
      (decide (u < x.unit) || (decide (u = x.unit) && (x.row != 0 || x.off != 0))) && decide (x.have u < d.unitLen i s u)
  else []

/-- What an abort leaves in the buffers of a Reel that were filling is undefined (R366): free bytes. Log: 13 (DESIGN CHOICE). -/
def Dev.spoilBuffers (d : Dev) (i : Nat) : Dev :=
  ((d.reel i).streams.zipIdx).foldl (fun (e : Dev) (p : StreamSt × Nat) =>
    (d.filling i p.2 p.1).foldl (fun (g : Dev) u =>
      (g.wrBytes (d.bufAddr i p.2 u) ((List.range (d.unitLen i p.2 u)).map (Config.freeByte g.free))).drew) e) d

/-! ## Cancelling and halting -/

/-- Bytes of a stream's buffers that have not been waited on (R369). -/
def StreamSt.unused (s : StreamSt) : Nat :=
  if s.read then ((s.got.filter fun p => decide (s.waited ≤ p.1)).map fun p => p.2).foldl (· + ·) 0 else 0

/-- Count bytes discarded by a cancellation for the Room of a Spindle (R369). -/
def Dev.waste (d : Dev) (i n : Nat) : Dev :=
  match d.spindleRoom i with
  | some r => if n = 0 then d else d.count64 STR_WASTE_BYTES_LO STR_WASTE_BYTES_HI r n
  | none => d

/-- A block gives up its reference to a table slot (R301). -/
def Dev.slotDrop (d : Dev) (r : Nat) (slot : Option Nat) : Dev :=
  match slot with
  | some s => d.set SKN_TABLE_SLOT.REFS (4 * r + s) (d.get SKN_TABLE_SLOT.REFS (4 * r + s) - 1)
  | none => d

/-- Blocks give up their references to table slots (R301, R310). -/
def Dev.unref (d : Dev) (i : Nat) (bs : List SkBlock) : Dev :=
  match d.spindleRoom i with
  | some r => bs.foldl (fun (e : Dev) b => e.slotDrop r b.slot) d
  | none => d

/-- The generation that a write's tag keeps once its Reel was aborted, so that only its return counts (R366), and once its
stream has started anew, so that its acknowledgment counts for the Room's completion only (R359, R362). Log: 89 (DEDUCED). -/
def staleGen : Nat := 256
def pastGen : Nat := 257

/-- A Reel cancels its outstanding reads and its buffers that have not been waited on (R369): the generation advances and
the bytes are counted. With `all`, as in an abort (R366), data not yet issued is discarded as well and no answer to a Note
request is awaited. Log: 89 (DEDUCED). -/
def Dev.cancelReel (d : Dev) (i : Nat) (all : Bool) : Dev :=
  let x := d.reel i
  let gone := x.blocks.filter fun b => all || !b.write
  let d1 := ((d.waste i (x.streams.foldl (fun n s => n + s.unused) 0)).unref i gone).set STR_STAT.GEN i ((d.get STR_STAT.GEN i + 1) % 256)
  let d2 := d1.setReel i { x with
    streams := if all then [] else x.streams.map fun s => if s.read then StreamSt.start true s.waited else s
    blocks := x.blocks.filter fun b => !(all || !b.write)
    tags := if all then x.tags.map fun t => if t.write then { t with gen := staleGen } else t else x.tags
    pend := if all then [] else x.pend }
  { d2 with net := { d2.net with notes := d2.net.notes.map fun q =>
      if q.src = i && (all || (q.stream.isSome && !q.write)) then { q with stale := true } else q } }

/-- A Spindle's WAIT ends without its condition (R366, R257): the cycles that it was blocked are counted, how many is free.
Log: 181 (DEDUCED). -/
def Dev.waitCut (d : Dev) (i : Nat) : Dev :=
  if d.get SPX_VX_STAT.WAITING i = 0 then d
  else ((d.count SPX_VX_WAIT_CNT i d.freeWord).drew).set SPX_VX_STAT.WAITING i 0

/-- Stop a Spindle without a checkpoint and without a save (R366): its sequencer, the tile in its array and its Reel, whose
outstanding reads are cancelled by advancing the generation (R369). A drain in progress goes on. Log: 80 (DEDUCED). -/
def Dev.haltSpindle (d : Dev) (i : Nat) : Dev :=
  let d1 := (((d.waitCut i).set SPX_VX_STAT.RUNNING i 0).set SPX_VX_STAT.STOPPED i 0).set SPX_VX_STAT.DEPTH i 0
  let d2 := ((d1.set SPX_MX_STAT.BUSY i 0).set SPX_MX_STAT.IN_USE0 i 0).set SPX_MX_STAT.IN_USE1 i 0
  let d3 := ((d2.set STR_STAT.RUNNING i 0).set STR_STAT.QUIESCING i 0).cancelReel i true
  let x := d3.sp i
  let y := { SpindleSt.init with drn := x.drn.map fun t => { t with num := 2 ^ 40 }, drainq := x.drainq, groups := x.groups, argmax := x.argmax }
  d3.setSp i (if x.drn.isSome then { y with acc0 := x.acc0, acc1 := x.acc1 } else y)

/-- A Spindle's Yarn ports are empty, and its Note requests are given up. -/
def Dev.unloadNet (d : Dev) (i : Nat) : Dev :=
  let out := fun {α : Type} (t : List (Nat × α)) => t.filter fun p => p.1 / 4 != i
  { d with net := { d.net with
    notes := d.net.notes.filter fun q => q.src != i
    wires := out d.net.wires
    bufs := out d.net.bufs
    credits := out d.net.credits
    marks := out d.net.marks
    placed := out d.net.placed } }

/-- A Spindle leaves its Room: nothing of its engines goes on, its drain included, and set 0 is active (R209). -/
def Dev.clearSpindle (d : Dev) (i : Nat) : Dev :=
  (((d.haltSpindle i).wr SPX_MX_STAT i 0).setSp i SpindleSt.init).unloadNet i

/-- Stop every Spindle of a Room. -/
def Dev.haltRoom (d : Dev) (r : Nat) : Dev := (d.roomSpindles r).foldl Dev.haltSpindle d

/-- Complete the Room's running RUN command, if there is one. -/
def Dev.endRun (d : Dev) (r code detail : Nat) : Dev :=
  match d.running r with
  | none => d
  | some c => (d.wr ROOM_RUN r 0).complete c code detail

/-- End a Room's RUN command with a code whose DETAIL the manual does not state (R161, R183, R187, R207): every Spindle
stops and the command completes. Log: 14 (DEDUCED). -/
def Dev.endWith (d : Dev) (r code : Nat) : Dev :=
  match d.running r with
  | none => d
  | some c => (((d.haltRoom r).setRoom r { (d.haltRoom r).room r with trap := 0, ending := none }).wr ROOM_RUN r 0).finish c code

/-- An unload of the Room is in progress. -/
def Dev.unloads (d : Dev) (r : Nat) : Bool := d.que.op.any fun o => o.kind == .unload && o.room == r

/-- A stream fault (R366, R367): the latches on the first abort after ABORT_EV was cleared, then the abort. During an unload the Room's
Spindles stop, and the unload completes the command (R382). Log: 90 (DEDUCED). -/
def Dev.streamFaultAt (d : Dev) (abort : Dev → Nat → Nat → Nat → Dev) (i code stream unit addr : Nat) : Dev :=
  match d.spindleRoom i with
  | none => d
  | some r =>
    if (d.running r).isNone then d
    else if d.unloads r then d.haltRoom r
    else
    let l := d.logicalOf i
    let d1 := if d.get STR_ROOM_STAT.ABORT_EV r = 1 then d else
      (((d.wr STR_ERR_INFO r (code % 2 ^ 16 + stream % 64 * 2 ^ 16 + l % 1024 * 2 ^ 22)).wr STR_ERR_UNIT r unit).set64
        STR_ERR_ADDR_LO STR_ERR_ADDR_HI r addr).raise STR_ROOM_STAT.ABORT_EV r
    abort d1 r code l

/-- Abort a Room's RUN command (R366): every Spindle and Reel stops, the command completes with the fault's code and
DETAIL, and the abort is counted. Nothing happens where no RUN command runs. -/
def Dev.abortRun (d : Dev) (r code detail : Nat) : Dev :=
  match d.running r with
  | none => d
  | some _ =>
    let d0 := (d.roomSpindles r).foldl Dev.spoilBuffers d
    let d1 := ((d0.haltRoom r).endRun r code detail).count STR_ABORT_CNT r 1
    d1.setRoom r { d1.room r with trap := 0, ending := none }

/-- A stream fault of a Spindle's Reel (R366, R367). -/
def Dev.streamFault (d : Dev) (i code stream unit addr : Nat) : Dev :=
  d.streamFaultAt Dev.abortRun i code stream unit addr

/-- The lowest free spare of a die (R48), by physical index. -/
def Dev.freeSpare (d : Dev) (die : Nat) : Option Nat :=
  ([60, 61, 62, 63].map fun p => 64 * die + p).find? fun s => d.get SPX_STATE.STATE s == 1

/-- A Spindle retired with no spare free on its die (R524). `code` is the code its Room's running command gets.
Log: 133 (DEDUCED). -/
def Dev.retireNoSpare (d : Dev) (i code : Nat) : Dev :=
  let l := d.logicalOf i
  let die := i / 64
  let room := d.spindleRoom i
  let d1 := (d.set SPX_REMAP.MAPPED l 0).set SPX_STATE.STATE i 2
  let d2 := (d1.set SPX_DIE_STAT.RETIRED die (d1.get SPX_DIE_STAT.RETIRED die + 1)).set SPX_DIE_STAT.DEGRADED die 1
  let d3 := (d2.degrade 0).showActive
  match room with
  | none => d3
  | some r => ((d3.endRun r code l).haltRoom r).hold r 6

/-- The Room of a retired Spindle is held for its substitution (R521). -/
def Dev.holdForSub (d : Dev) (i : Nat) : Dev :=
  match d.spindleRoom i with
  | some r => if d.roomState r = stLoaded || (d.roomState r = stHeld && d.get ROOM_STATUS.HOLD_CAUSE r = 1) then d.hold r 2 else d
  | none => d

/-- A preventive retirement whose Spindle reaches its strikes becomes a fault retirement (Table 18-11). -/
def Dev.becomeFault (d : Dev) (i : Nat) : Dev :=
  if !(d.flt.queue.any fun q => q.spindle == i && q.preventive) then d
  else
    let queue := d.flt.queue.map fun q => if q.spindle == i then ⟨i, false, false⟩ else q
    let op := d.que.op.filter fun o => !(o.kind == .substitution && o.spindle == i)
    ({ d with flt := { d.flt with queue := queue }, que := { d.que with op := op } }).holdForSub i

/-- Retire a Spindle (R520, R521, R523, R524): FLT_SPX_STAT.RETIRED, the fuse array, a log record, and either a
substitution that waits its turn (R104) or an unmapped position. A retired free spare leaves the spares of its die.
Log: 132 (DEDUCED). -/
def Dev.retireNow (d : Dev) (i : Nat) (preventive : Bool) (kind code : Nat) : Dev :=
  if d.get FLT_SPX_STAT.RETIRED i = 1 then (if preventive then d else d.becomeFault i) else
  let die := i / 64
  let l := d.logicalOf i
  let room := d.spindleRoom i
  let d1 := (d.set FLT_SPX_STAT.RETIRED i 1).burn (.spindle i)
  let strikes := d1.strikesOf (.spindle i)
  if d.get SPX_STATE.STATE i = 1 then
    let d2 := d1.log kind 2 5 room strikes i (if kind = 0x0D then die else 0xFFFF) 0 code
    ((d2.set SPX_STATE.STATE i 2).set SPX_DIE_STAT.SPARES_FREE die (d2.get SPX_DIE_STAT.SPARES_FREE die - 1)).set
      SPX_DIE_STAT.RETIRED die (d2.get SPX_DIE_STAT.RETIRED die + 1)
  else match d.freeSpare die with
  | some _ =>
    let d2 := d1.log kind 2 5 room strikes i (if kind = 0x0D then die else l) 0 code
    let d3 := { d2 with flt := { d2.flt with queue := d2.flt.queue ++ [⟨i, preventive, false⟩] } }
    if preventive then d3 else d3.holdForSub i
  | none => (d1.log kind 2 6 room strikes i (if kind = 0x0D then die else l) 0 code).retireNoSpare i (if preventive then 0x0B05 else code)

/-- A retirement falls due: it is carried out, or waits for the end of a controller restart (R528). -/
def Dev.retireSpindle (d : Dev) (i : Nat) (preventive : Bool) (kind code : Nat) : Dev :=
  if d.flt.wdogBusy then { d with flt := { d.flt with deferred := d.flt.deferred ++ [.retire i preventive kind code] } }
  else d.retireNow i preventive kind code

/-- Retire a Spindle when FLT_CTL.STRIKES strikes stand within the window (R520). Log: 131 (DEDUCED). -/
def Dev.atLimit (d : Dev) (i kind code : Nat) : Dev :=
  if d.get FLT_CTL.STRIKES 0 ≤ d.strikesOf (.spindle i) then d.retireSpindle i false kind code else d

/-- Strike a Spindle, and retire it at the limit (R520). -/
def Dev.strikeSpindle (d : Dev) (i kind code : Nat) : Dev := (d.addStrike (.spindle i)).atLimit i kind code

/-- Abort the running command of a Spindle's Room with a fault's code and DETAIL the logical index (R519). -/
def Dev.spindleStops (d : Dev) (i code : Nat) : Dev :=
  match d.spindleRoom i with
  | some r => d.abortRun r code (d.logicalOf i)
  | none => d

/-- A fault of a Spindle that aborts its Room's command (Table 18-1, R519): the abort and the log record. -/
def Dev.spindleAbort (d : Dev) (i kind code sub addr : Nat) : Dev :=
  let d1 := d.spindleStops i code
  d1.log kind 1 2 (d.spindleRoom i) (d1.strikesOf (.spindle i)) i sub addr code

/-- A fault whose abort itself adds the strike: 0x0B02, 0x0B03, 0x0B04 (R520). The record shows the strikes after it.
Log: 131 (DEDUCED). -/
def Dev.spindleFault (d : Dev) (i kind code sub addr : Nat) : Dev :=
  let d1 := (d.spindleStops i code).addStrike (.spindle i)
  (d1.log kind 1 2 (d.spindleRoom i) (d1.strikesOf (.spindle i)) i sub addr code).atLimit i kind code

/-! ## Storage errors -/

/-- Count a corrected word of a Spindle, with the strike of a second in which FLT_CTL.CE_THRESH are reached (R519, R520).
Log: 177 (DEDUCED). -/
def Dev.correctedWord (d : Dev) (i : Nat) : Dev :=
  let recent := ((tget (fun _ => []) d.flt.ceNow i).filter fun t => decide (d.now < t + 1000000000)) ++ [d.now]
  let d1 := d.count FLT_LOG_CE i 1
  if d1.get FLT_CTL.CE_THRESH 0 ≤ recent.length then
    let d2 := { d1 with flt := { d1.flt with ceNow := tset (fun _ => []) d1.flt.ceNow i [] } }
    let d3 := d2.log 1 3 1 (d2.spindleRoom i) (d2.strikesOf (.spindle i) + 1) i (d2.logicalOf i) 0 0
    d3.strikeSpindle i 1 0x0B01
  else { d1 with flt := { d1.flt with ceNow := tset (fun _ => []) d1.flt.ceNow i recent } }

/-- The Spindle whose storage holds a Desk window address (R73). -/
def spindleAt (a : Nat) : Nat := (a - 0x1000000000000) / 0x1000000

/-- A word of a Room's Spindles waits for its in-place test, before which the Room's next command does not start (R519). -/
def Dev.testing (d : Dev) (r : Nat) : Bool := d.flt.suspects.any fun b => d.spindleRoom (spindleAt b) == some r

/-- An error met as an engine reads Spindle storage at a Desk window offset (R519): a single-bit one is corrected, a
double-bit one aborts the Room's command and waits for its in-place test. -/
def Dev.storageError (d : Dev) (i off : Nat) (double : Bool) : Dev :=
  if !double then d.correctedWord i
  else
    let a := deskBase i + off / 4 * 4
    let d1 := d.spindleAbort i 1 0x0B01 (d.logicalOf i) (off % 2 ^ 24)
    { d1 with flt := { d1.flt with suspects := sins a d1.flt.suspects } }

/-- The key in `suspects` of a word of an input port's receive buffer, which has no address in the Desk window: it lies in the
reserved part of the Spindle's region. -/
def rxWord (i port k : Nat) : Nat := deskBase i + 0x8A0000 + 64 * port + 4 * k

/-- Mark the 32-bit words of a range of Spindle storage poisoned (R519). -/
def Dev.poisonWords (d : Dev) (a n : Nat) : Dev :=
  { d with poisonW := (List.range (n / 4)).foldl (fun l k => sins (a + 4 * k) l) d.poisonW }

/-- Errors of the 32-bit words of a 64-byte word as it leaves an input port's receive buffer (R42, R519, R520): those of `ce` are
corrected, one in `ue` aborts the Room's command once, and every word of `ue` is tested. -/
def Dev.receiveError (d : Dev) (i port : Nat) (ce ue : List Nat) : Dev :=
  let d1 := (ce.filter fun k => !ue.contains k).foldl (fun (e : Dev) _ => e.correctedWord i) d
  if ue.isEmpty then d1
  else
    let d2 := d1.spindleAbort i 1 0x0B01 (d1.logicalOf i) 0
    { d2 with flt := { d2.flt with suspects := ue.foldl (fun (l : List Nat) k => sins (rxWord i port k) l) d2.flt.suspects } }

/-! ## Ports, and FATAL -/

/-- Owe a credit (R392). -/
def PortSt.owe (x : PortSt) (key : Nat) : PortSt := { x with owed := tset (fun _ => 0) x.owed key (tget (fun _ => 0) x.owed key + 1) }

/-- A port's buffers are discarded (R395, R398): its replay buffer, what it has received, wherever that waits to go on, and what waits to
leave by it, whose buffers on other ports are free then. The time of a remote message whose last flit is lost runs from now (R399).
Log: 94 (DEDUCED). -/
def Dev.clearPort (d : Dev) (p : Nat) : Dev :=
  let at' := fun (ps : List (Nat × PortSt)) (q : Nat) => tget (fun _ => PortSt.init) ps q
  let gone := (at' d.kl.ports p).waitq
  let kept := d.kl.ports.map fun q => (q.1, { q.2 with waitq := q.2.waitq.filter fun f => f.via != some p })
  let owed := gone.foldl (fun (ps : List (Nat × PortSt)) f =>
    match f.via with
    | some q => if q = p then ps else
      tset (fun _ => PortSt.init) ps q ((at' ps q).owe (if f.typ < 8 then 8 else 2 * f.cls + f.vl))
    | none => ps) kept
  let x : KlSt := { d.kl with
    ports := tset (fun _ => PortSt.init) owed p PortSt.init
    paths := d.kl.paths.filter fun q => q.2 / 2 != p }
  { d with kl := gone.foldl (fun (x : KlSt) f =>
      match f.ask with
      | some id => x.sent id d.now
      | none => x) x }

/-- A Kaluf port goes DOWN (R398): its buffers are discarded; state, event, log record. -/
def Dev.portDown (d : Dev) (p : Nat) : Dev :=
  if d.get KL_PORT_STAT.STATE p = 4 then d
  else
    let d1 := d.clearPort p
    ((d1.set KL_PORT_STAT.STATE p 4).raise KL_PORT_STAT.DOWN_EV p).log 0x08 2 0 none 0 p 0xFFFF 0 0

/-- A Room's part in FATAL (R527): its started commands complete with 0x0B20 and it goes to HELD with cause 6.
Log: 136 (DEDUCED). -/
def Dev.fatalRoom (d : Dev) (r : Nat) : Dev :=
  if d.roomState r = stLoaded || d.roomState r = stHeld then
    let d1 := (d.haltRoom r).endRun r 0x0B20 0
    let d2 := (d1.que.cmds.filter fun c => c.room == r && c.phase == .started).foldl (fun e c => e.complete c 0x0B20 0) d1
    d2.hold r 6
  else d

/-- Enter FATAL (R527). Log: 136 (DEDUCED). -/
def Dev.fatal (d : Dev) (kind unit sub : Nat) : Dev :=
  if d.get FLT_STAT.FATAL 0 = 1 then d else
  let was := d.degraded
  let d1 := (List.range 16).foldl Dev.fatalRoom d
  let d2 := (List.range 12).foldl Dev.portDown d1
  let d3 := (d2.set FLT_STAT.FATAL 0 1).alert 1
  let d4 := if was then d3 else (d3.raise FLT_STAT.DEGRADED_EV 0).alert 3
  d4.log kind 2 0 none 0 unit sub 0 0x0B20

end Sys2Proof.Machine
end

