-- ==== Sys2Proof/Machine/Sched.lean ====
section
/-! DEFINITION. The scheduler's shared operations: levels and Lessons, which command may start, packet checks, the start
and the suspension of RUN commands, and the plane machinery of a Room (Rooms, queues, the Timetable and pre-emption;
Flaram images and partial reconfiguration). -/

namespace Sys2Proof.Machine

/-! ## Lessons and levels -/

/-- The Lesson that covers the present for a Room. -/
def Dev.lesson (d : Dev) (r : Nat) : Option Lesson :=
  match (d.room r).cur with
  | none => none
  | some k => (d.room r).lessons[k]?

/-- Show the current Lesson in ROOM_STATUS.KIND and CEILING (Table 04-12). -/
def Dev.showLesson (d : Dev) (r : Nat) : Dev :=
  let st := d.roomState r
  let live := st == stLoaded || st == stHeld
  match if live then d.lesson r else none with
  | some l =>
    (d.set ROOM_STATUS.KIND r l.kind).set ROOM_STATUS.CEILING r l.ceiling
  | none =>
    (d.set ROOM_STATUS.KIND r (if live || st == stUnloading then 3 else 0)).set ROOM_STATUS.CEILING r 0

/-- The level at which a queue counts, a raise included (R154). -/
def Dev.effLevel (d : Dev) (q lvl : Nat) : Nat :=
  minList lvl (lvl :: (d.que.raises.filter fun x => x.queue == q).map fun x => x.level)

/-- The present Lesson lets commands of a level start (R136, R138, Table 04-1). Log: 57 (DEDUCED). -/
def Dev.admits (d : Dev) (r lvl : Nat) : Bool :=
  d.roomState r == stLoaded && !(d.room r).unloadReq && (d.room r).holdReq == 0 && !(d.room r).due &&
    match d.lesson r with
    | some l => decide (l.kind ≤ 1) && decide (l.ceiling ≤ lvl)
    | none => false

/-- An earlier command of the same queue has not started, or with FENCE has not completed (R129). -/
def Dev.blocked (d : Dev) (c : Cmd) : Bool :=
  d.que.cmds.any fun x => x.queue == c.queue && decide (x.id < c.id) && (c.fence || x.phase == .waiting)

/-- The variant that is active, or that the plane switch in wait will make active (R113). -/
def Dev.comingVariant (d : Dev) (r : Nat) : Nat := (d.room r).switchTo.getD (d.get CFG_STATUS.ACTIVE_VAR r)

/-- A fetched command may start now, or a saved one be restored in its variant (R280); one saved at a variant change only at the start
of a Lesson (R281). While a word of the Room waits for its in-place test none starts (R519). -/
def Dev.ready (d : Dev) (c : Cmd) : Bool :=
  d.admits c.room (d.effLevel c.queue c.level) && !d.testing c.room &&
    ((c.phase == .waiting && !d.blocked c) || (c.phase == .saved && c.variant == d.comingVariant c.room && (!c.byPhase || (d.room c.room).fresh)))

/-- The round-robin choice among queues: the least above the last one served, else the least (R136). Log: 60 (DEDUCED). -/
def nextInTurn (last : Nat) (qs : List Nat) : Option Nat :=
  match qs.filter fun q => decide (last < q) with
  | [] => match qs with
    | [] => none
    | q :: t => some (minList q t)
  | q :: t => some (minList q (q :: t))

/-- The RUN command that the queue engine starts next in a Room: the most urgent ready level, round-robin across its
queues, ring order within a queue (R129, R136). Levels from `lvl` upward. Log: 60 (DEDUCED). -/
def Dev.pickRun (d : Dev) (r : Nat) : Nat → Nat → Option Cmd
  | 0, _ => none
  | fuel + 1, lvl =>
    let cs := d.que.cmds.filter fun c =>
      c.room == r && c.opcode == 1 && d.ready c && d.effLevel c.queue c.level == lvl
    match nextInTurn (nth 0 (d.room r).rr lvl) (cs.map fun c => c.queue) with
    | some q => cs.find? fun c => c.queue == q
    | none => d.pickRun r fuel (lvl + 1)

/-- The fetched command `id` that may start now, with its opcode (R129, R136). -/
def Dev.starts (d : Dev) (id op : Nat) : Option Cmd :=
  (d.cmd? id).filter fun c => c.opcode == op && c.phase == .waiting && d.ready c

/-- A command starts on its engine. -/
def Dev.begin (d : Dev) (c : Cmd) (phase : CmdPhase) (deadline : Nat) : Dev :=
  d.setCmd { c with phase := phase, deadline := deadline }

/-! ## Fetching -/

/-- Packets pending in a queue: from QUE_HEAD up to the tail, modulo the ring size (R128). -/
def Dev.pendingPackets (d : Dev) (q : Nat) : Nat :=
  let n := 2 ^ d.get QUE_SIZE.LOG2 q
  (d.get QUE_TAIL.TAIL q + n - d.get QUE_HEAD.HEAD q % n) % n

/-- The device fetches from a queue (Table 04-1, R127, R128). -/
def Dev.fetches (d : Dev) (q : Nat) : Bool :=
  let r := d.get QUE_CTL.ROOM q
  d.get QUE_CTL.BOUND q == 1 && d.get QUE_CTL.ENABLE q == 1 && d.get QUE_STAT.ERR q == 0
    && (d.roomState r == stLoaded || d.roomState r == stHeld) && d.pendingPackets q != 0

/-- Every queue bound to a Room. -/
def Dev.boundQueues (d : Dev) : List Nat := (List.range 16).flatMap fun r => (d.room r).queues

/-- The queue that the engine fetches from next: by level, then round-robin (R136). Log: 60 (DEDUCED). -/
def Dev.nextFetch (d : Dev) : Nat → Nat → Option Nat
  | 0, _ => none
  | fuel + 1, lvl =>
    let qs := d.boundQueues.filter fun q => d.fetches q && d.effLevel q (d.get QUE_CTL.LEVEL q) == lvl
    match nextInTurn (nth 0 d.que.rrFetch lvl) qs with
    | some q => some q
    | none => d.nextFetch fuel (lvl + 1)

/-- The words of a list from index `n` on are all 0. -/
def zeroFrom (ws : List Nat) (n : Nat) : Bool := (ws.drop n).all fun w => w == 0

/-- The opcodes of Table 04-3 that have a command. -/
def knownOpcode (op : Nat) : Bool :=
  [0x00, 0x01, 0x02, 0x03, 0x04, 0x10, 0x20, 0x21, 0x22, 0x23, 0x30, 0x31, 0x40, 0x41, 0x42, 0x50, 0x51].contains op

/-- The ARGS bits that an opcode's definition does not assign are 0, for the opcodes whose chapter gives no code of its
own for them (R131). Log: 59 (DEDUCED). -/
def argsOk (op : Nat) (a : List Nat) : Bool :=
  match op with
  | 0x00 => zeroFrom a 0
  | 0x01 => nth 0 a 0 == 0
  | 0x02 => decide (nth 0 a 0 < 4096) && zeroFrom a 2
  | 0x03 => decide (nth 0 a 0 < 4096) && zeroFrom a 1
  | 0x04 => zeroFrom a 2
  | 0x10 =>
    bitsOf (nth 0 a 0) 7 1 == 0 && bitsOf (nth 0 a 0) 9 23 == 0 && nth 0 a 1 == 0
      && (bitAt (nth 0 a 0) 8 || (nth 0 a 2 == 0 && nth 0 a 3 == 0)) && zeroFrom a 4
  | 0x42 => zeroFrom a 2
  | 0x50 => zeroFrom a 1
  | 0x51 => zeroFrom a 4
  | _ => true

/-- The check of a packet (R131): 0 for a good one, else the code with which it completes. Log: 59 (DEDUCED). -/
def packetCode (ws : List Nat) : Nat :=
  let op := bitsOf (nth 0 ws 0) 0 8
  if !knownOpcode op then 0x0001
  else if bitsOf (nth 0 ws 0) 10 6 != 0 || bitsOf (nth 0 ws 1) 12 20 != 0 || nth 0 ws 2 % 16 != 0
      || !((ws.drop 4).take 4).all (fun w => w == 0) || !argsOk op (ws.drop 8) then 0x0002
  else 0

/-- The 32 words of a packet's 128 bytes. -/
def wordsOf : Nat → List (BitVec 8) → List Nat
  | 0, _ => []
  | n + 1, bs => ofLe (bs.take 4) :: wordsOf n (bs.drop 4)

/-! ## Running -/

/-- Write the scalar line at the start of a RUN command (R249): line 247 of the Bobbin, S0 to S22 from ARGS words 1 to 23,
S23 the queue and ring index. -/
def Dev.scalarInit (d : Dev) (c : Cmd) (i : Nat) : Dev :=
  let line := deskBase i + offBobbin + 247 * 1024
  let d1 := d.wrBytes line ((((c.words.drop 9).take 23).map fun w => toLe 4 w).flatten)
  d1.wrLe (line + 92) 4 (c.queue % 2 ^ 14 + 2 ^ 14 * (c.index % 2 ^ 16))

/-- Kind of a stream of the active Reel program (Table 12-2). -/
def Dev.streamKind (d : Dev) (i s : Nat) : Nat := (d.rdByte (reelBase i + 0x40 + 128 * s)).toNat

/-- Start a Reel's streams, each at the unit that `unit` gives, with empty buffers (R362, R370). Tags held and blocks in writing go
on, their acknowledgments counting for no stream any more. -/
def Dev.startReel (d : Dev) (i : Nat) (unit : Nat → Nat) : Dev :=
  let n := min 64 (d.rdByte (reelBase i)).toNat
  let x := d.reel i
  let ss := (List.range n).map fun s =>
    let k := d.streamKind i s
    StreamSt.start (k == 1 || k == 3 || k == 4) (unit s)
  let past := fun (t : ReelTag) => if t.write && t.gen != staleGen then { t with gen := pastGen } else t
  let y := { x with streams := ss, turns := [0, 0, 0], pend := [], blocks := x.blocks.filter fun b => b.write, tags := x.tags.map past }
  (d.setReel i y).set STR_STAT.RUNNING i (bit (n != 0))

/-- Start a Spindle on the active variant's microsequence at slot 64 (R252), with no loop open, no stop requested,
TILE_SEQ 0 (R188) and set 0 active (R209). A drain of the command before goes on, and so does what the Lesson gathers. -/
def Dev.startSpindle (c : Cmd) (d : Dev) (i : Nat) : Dev :=
  let d1 := d.scalarInit c i
  let d2 := (d1.wr SPX_VX_STAT i (64 + 2 ^ 21)).set SPX_MX_STAT.ACTIVE i 0
  let x := d.sp i
  let y := { SpindleSt.init with drn := x.drn.map fun t => { t with num := 2 ^ 40 }, drainq := x.drainq, groups := x.groups, argmax := x.argmax }
  (d2.startReel i fun _ => 0).setSp i (if x.drn.isSome then { y with acc0 := x.acc0, acc1 := x.acc1 } else y)

/-- Start a RUN command on every Spindle of its Room (R135). Log: 162 (DEDUCED). -/
def Dev.startRun (d : Dev) (c : Cmd) : Dev :=
  let d0 := d.setRoom c.room { d.room c.room with monRate := d.get NUM_MON_CTL.RATE_LOG2 c.room }
  let d1 := (d.roomSpindles c.room).foldl (Dev.startSpindle c) d0
  let d2 := d1.setCmd { c with phase := .started }
  let lvl := d.effLevel c.queue c.level
  d2.wr ROOM_RUN c.room (c.queue % 2 ^ 14 + 2 ^ 14 * lvl + 2 ^ 16)

/-- Ask every Spindle of a Room to stop at its next checkpoint (R144, R257). Log: 82 (DEDUCED). -/
def Dev.requestStop (d : Dev) (r : Nat) : Dev :=
  (d.roomSpindles r).foldl (fun e i => e.setSp i { e.sp i with stopReq := .checkpoint }) d

/-- Stop one running Spindle at its next instruction, as at a Lesson end (R257): on a WAIT it stops on the WAIT, and an
instruction in progress completes first. -/
def Dev.stopSpindle (d : Dev) (i : Nat) : Dev :=
  if d.get SPX_VX_STAT.RUNNING i = 0 || d.get SPX_VX_STAT.STOPPED i = 1 then d
  else if !(d.sp i).yout.isEmpty then d.setSp i { d.sp i with stopReq := .next }
  else ((d.waitCut i).set SPX_VX_STAT.STOPPED i 1).setSp i { d.sp i with point := 0, stopReq := .none }

/-- Stop every Spindle of a Room at the Lesson-end point. Log: 56 (DEDUCED). -/
def Dev.stopAtLessonEnd (d : Dev) (r : Nat) : Dev := (d.roomSpindles r).foldl Dev.stopSpindle d

/-- Let every stopped Spindle of a Room run on. Log: 56 (DEDUCED). -/
def Dev.resumeSpindles (d : Dev) (r : Nat) : Dev :=
  (d.roomSpindles r).foldl (fun e i => (e.set SPX_VX_STAT.STOPPED i 0).setSp i { e.sp i with stopReq := .none }) d

/-- Every Spindle of a Room counts as stopped: its sequencer, the tile in its array and the drain (R220, R257). -/
def Dev.allStopped (d : Dev) (r : Nat) : Bool :=
  (d.roomSpindles r).all fun i =>
    (d.get SPX_VX_STAT.RUNNING i == 0 || d.get SPX_VX_STAT.STOPPED i == 1)
      && d.get SPX_MX_STAT.BUSY i == 0 && d.get SPX_MX_STAT.DRAINING i == 0

/-- Every Yarn of a Room is empty: no word in flight and none in a receive buffer (R62, R113). Log: 183 (DEDUCED). -/
def Dev.yarnsEmpty (d : Dev) (r : Nat) : Bool :=
  (d.roomSpindles r).all fun i => [0, 1, 2, 3].all fun p =>
    (tget (fun _ => []) d.net.bufs (4 * i + p)).isEmpty && (tget (fun _ => []) d.net.wires (4 * i + p)).isEmpty

/-- The microsequence of a plane from slot `n` up to its END holds a CKPT (Table 08-3); a TILE is followed by its tile
instruction in the next 2 slots, or 4 in CONV mode (R252). -/
def Dev.codeHasCkpt (d : Dev) (plane : Nat) : Nat → Nat → Bool
  | 0, _ => false
  | fuel + 1, n =>
    let op := (d.rdByte (plane + 0x3000 + 16 * n)).toNat
    if op = 5 then true
    else if op = 1 then false
    else if op = 6 then d.codeHasCkpt plane fuel (n + (if (d.rdByte (plane + 4)).toNat = 2 then 5 else 3))
    else d.codeHasCkpt plane fuel (n + 1)

/-- The active frames of a Room hold tile-boundary checkpoints (R125, R144). -/
def Dev.framesHaveCkpt (d : Dev) (r : Nat) : Bool :=
  (d.roomSpindles r).any fun i => d.codeHasCkpt (deskBase i + offActive) 2240 64

/-! ## Planes -/

/-- Exchange the active and standby planes of one Spindle (R113). -/
def Dev.swapPlanes (d : Dev) (i : Nat) : Dev :=
  d.swap (deskBase i + offActive) (deskBase i + offStandby) planeBytes

/-- A section of the Room's image: its offset and size, for a type and variant (R78, R79). -/
def Dev.section? (d : Dev) (img typ variant : Nat) : Nat → Nat → Option (Nat × Nat)
  | 0, _ => none
  | fuel + 1, k =>
    let e := img + 0x100 + 16 * k
    if d.rdLe e 2 == typ && (d.rdByte (e + 2)).toNat == variant then some (d.rdLe (e + 4) 4, d.rdLe (e + 8) 4)
    else d.section? img typ variant fuel (k + 1)

/-- A section of a Room's image. -/
def Dev.roomSection (d : Dev) (r typ variant : Nat) : Option (Nat × Nat) :=
  let img := (d.room r).imgAddr
  d.section? img typ variant (d.rdLe (img + 0x10) 2) 0

/-- The directory entry of the `k`-th Spindle in a FRAME or REEL section (R84): address and length of the frame or
program in memory. -/
def Dev.dirEntry (d : Dev) (r typ variant k : Nat) : Option (Nat × Nat) :=
  match d.roomSection r typ variant with
  | none => none
  | some (off, _) =>
    let base := (d.room r).imgAddr + off
    some (base + d.rdLe (base + 16 * k + 4) 4, d.rdLe (base + 16 * k + 8) 4)

/-- Write one plane of the `k`-th Spindle of a Room from the image (R83): the frame from offset 0, the Reel program from
offset 0xC000, zero elsewhere. -/
def Dev.writePlane (d : Dev) (r variant k plane : Nat) : Dev :=
  let d1 := d.zero plane planeBytes
  let d2 := match d.dirEntry r 2 variant k with
    | some (a, n) => d1.copy a plane (min n 49152)
    | none => d1
  match d.dirEntry r 3 variant k with
  | some (a, n) => d2.copy a (plane + 0xC000) (min n 49152)
  | none => d2

/-- Show ACC_MODE of a Spindle's active frame (Table 06-8). -/
def Dev.showAccMode (d : Dev) (i : Nat) : Dev := d.set SPX_MX_STAT.ACC_MODE i ((d.rdByte (deskBase i + offActive + 7)).toNat % 4)

/-- Write a plane of every Spindle of a Room, by position in the directory. -/
def Dev.writePlanes (d : Dev) (r variant off : Nat) : Dev :=
  let ls := d.roomLogicals r
  (ls.zip (List.range ls.length)).foldl (fun e p =>
    match e.physOf p.1 with
    | some i => (e.writePlane r variant p.2 (deskBase i + off)).showAccMode i
    | none => e) d

/-- The variant of a Lesson (R114): the latched one for a HOST_SEL Lesson. -/
def RoomSt.variantOf (x : RoomSt) (l : Lesson) : Nat :=
  if l.hostSel then x.latched.getD x.initVariant else l.variant

/-- The value CFG_VAR_SEL latches (Table 03-13). -/
def Dev.selVariant (d : Dev) (r : Nat) : Nat :=
  let v := d.get CFG_VAR_SEL.NEXT r
  if v < (d.room r).nVariants then v else (d.room r).initVariant

/-- Lessons in Round order from the one after index `k`, wrapping. -/
def RoomSt.after (x : RoomSt) (k : Nat) : List Lesson := x.lessons.drop (k + 1) ++ x.lessons.take (k + 1)

/-- The bytes of the sectors that `n` bytes at an address touch, the charge of reading them (R322). -/
def sectorBytes (a n : Nat) : Nat := if n = 0 then 0 else 64 * ((a + n + 63) / 64 - a / 64)

/-- The bytes that a preload, or the writing of a variant's planes, reads: the directories, frames and Reel programs
(R115, R119). Log: 161 (DEDUCED). -/
def Dev.planeReads (d : Dev) (r v : Nat) : Nat :=
  let n := (d.roomLogicals r).length
  (([2, 3] : List Nat).map fun t =>
    let dir := match d.roomSection r t v with
      | some (off, _) => sectorBytes ((d.room r).imgAddr + off) (16 * n)
      | none => 0
    (List.range n).foldl (fun (acc : Nat) k => match d.dirEntry r t v k with
      | some (a, len) => acc + sectorBytes a (min len 49152)
      | none => acc) dir).sum

/-- Start the preload of a variant: none of its reads has issued. Log: 161 (DEDUCED). -/
def Dev.openPreload (d : Dev) (r v : Nat) : Dev :=
  d.setRoom r { d.room r with preload := some v, reads := d.planeReads r v }

/-- A preload under way starts again for the whole Room (Table 03-8). Log: 161 (DEDUCED). -/
def Dev.restartPreload (d : Dev) (r : Nat) : Dev :=
  match (d.room r).preload with
  | some v => d.openPreload r v
  | none => d

/-- Lessons in Round order up to the first whose variant differs from `act`, with that one; `sel` is what a HOST_SEL Lesson takes. -/
def upToOther (sel act : Nat) : List Lesson → List Lesson
  | [] => []
  | l :: t => if (if l.hostSel then sel else l.variant) != act then [l] else l :: upToOther sel act t

/-- Begin the preload (R114): the variant of the first later Lesson in Round order that differs from the active one;
a HOST_SEL Lesson met on the way takes CFG_VAR_SEL.NEXT, latched now. No preload runs where that variant is already in standby.
Log: 54 (DEDUCED). Log: 160 (DEDUCED). -/
def Dev.beginPreload (d : Dev) (r k : Nat) : Dev :=
  let x := d.room r
  let act := d.get CFG_STATUS.ACTIVE_VAR r
  let sel := d.selVariant r
  let met := upToOther sel act (x.after k)
  let x1 := { x with latched := if met.any fun l => l.hostSel then some sel else x.latched }
  match met.find? fun l => (if l.hostSel then sel else l.variant) != act with
  | none => d.setRoom r x1
  | some l =>
    let v := if l.hostSel then sel else l.variant
    if d.get CFG_STATUS.STANDBY_VALID r = 1 && d.get CFG_STATUS.STANDBY_VAR r = v
    then d.setRoom r { x1 with preload := none, preloadFail := 0, reads := 0 }
    else ((d.set CFG_STATUS.STANDBY_VALID r 0).setRoom r { x1 with preloadFail := 0 }).openPreload r v

/-- A late switch (R116): LATE is set and counted, once for a boundary. Log: 54 (DEDUCED). -/
def Dev.late (d : Dev) (r : Nat) : Dev :=
  if (d.room r).lateDone then d
  else ((d.setRoom r { d.room r with lateDone := true }).raise CFG_STATUS.LATE r).count CFG_LATE_CNT r 1

/-- The plane switch of a Room (R113, Table 03-7): planes and switch-box banks exchange, the variants in CFG_STATUS with
them, the switch is counted, and the preload of the next variant begins (R114), unless the Room is being unloaded (R121). -/
def Dev.planeSwitch (d : Dev) (r : Nat) : Dev :=
  let d1 := (d.roomSpindles r).foldl Dev.swapPlanes d
  let a := d.get CFG_STATUS.ACTIVE_VAR r
  let b := d.get CFG_STATUS.STANDBY_VAR r
  let d2 := ((d1.set CFG_STATUS.ACTIVE_VAR r b).set CFG_STATUS.STANDBY_VAR r a).set CFG_STATUS.STANDBY_VALID r 1
  let x := d2.room r
  let d3 := (d2.count CFG_SWITCH_CNT r 1).setRoom r { x with switchTo := none, lateDone := false, bankA := x.bankS, bankS := x.bankA }
  if x.unloadReq then d3 else d3.beginPreload r (x.cur.getD 0)

/-! ## Completion of an operation of the loader -/

/-- End the operation in progress for a Room with a code (R104, R109): BUSY and GO clear, DONE or FAIL is set. -/
def Dev.endOp (d : Dev) (r code : Nat) : Dev :=
  let d1 := ((d.set CFG_STATUS.CODE r code).set CFG_STATUS.BUSY r 0).set CFG_LOAD.GO r 0
  let d2 := { d1 with que := { d1.que with op := none } }
  if code = 0 then d2.raise CFG_STATUS.DONE r else d2.raise CFG_STATUS.FAIL r

/-- Refuse a request at once: its code in CFG_STATUS of the Room where it is reported, with FAIL (R103, R104).
Log: 45 (DEDUCED). -/
def Dev.refuseCfg (d : Dev) (r code : Nat) : Dev :=
  (d.set CFG_STATUS.CODE r code).raise CFG_STATUS.FAIL r

end Sys2Proof.Machine
end

