-- ==== Sys2Proof/Machine/Transc.lean ====
section
/-! DEFINITION. The transcendental functions of Table 08-5. The manual bounds each result in ulps and leaves the bits within
the bound open (R262): the exact value is computed here to far more bits than FP32 holds, and the result is the value of
the opaque `Config.transc` where that lies within the bound, else the nearest FP32 value. -/

namespace Sys2Proof.Machine

/-- Fraction bits of the fixed-point arithmetic of this file. -/
def fx : Nat := 420

/-- One in fixed point. -/
def fxOne : Int := (2 ^ fx : Nat)

/-- Fixed-point product and quotient. -/
def fxMul (a b : Int) : Int := a * b / fxOne
def fxDiv (a b : Int) : Int := a * fxOne / b

/-- A finite value in fixed point. -/
def FVal.fixed (a : FVal) : Int :=
  match a with
  | .num s m e =>
    let k := e + fx
    let v := if 0 ≤ k then m * 2 ^ k.toNat else m / 2 ^ (-k).toNat
    signedMag s v
  | _ => 0

/-- A fixed-point number as a value. -/
def ofFixed (i : Int) : FVal := .num (decide (i < 0)) i.natAbs (-(fx : Int))

/-- The sum of the Taylor terms `t × z / k`, `k` from `k0` in steps given by `next`. -/
def expSeries (z : Int) : Nat → Nat → Int → Int → Int
  | 0, _, _, acc => acc
  | n + 1, k, t, acc => let t := fxMul t z / (k : Int); expSeries z n (k + 1) t (acc + t)

/-- `Σ t_j × step / ((k + 1)(k + 2))`, the alternating series of sine and cosine with `step = −x²`. -/
def trigSeries (step : Int) : Nat → Nat → Int → Int → Int
  | 0, _, _, acc => acc
  | n + 1, k, t, acc =>
    let t := fxMul t step / (((k + 1) * (k + 2) : Nat) : Int)
    trigSeries step n (k + 2) t (acc + t)

/-- `Σ z^(2j + 1) / (2j + 1)`, with `q` the ratio between powers. -/
def oddSeries (q : Int) : Nat → Nat → Int → Int → Int
  | 0, _, _, acc => acc
  | n + 1, k, p, acc => oddSeries q n (k + 2) (fxMul p q) (acc + p / (k : Int))

/-- The error function's series: `Σ (−x²)^j x / (j! (2j + 1))`. -/
def erfSeries (step : Int) : Nat → Nat → Int → Int → Int
  | 0, _, _, acc => acc
  | n + 1, j, p, acc => erfSeries step n (j + 1) (fxMul p step / ((j + 1 : Nat) : Int)) (acc + p / ((2 * j + 1 : Nat) : Int))

/-- ln 2, π and 2/√π in fixed point. -/
def fxLn2 : Int := 2 * oddSeries (fxOne / 9) 140 1 (fxOne / 3) 0
def fxPi : Int :=
  4 * (4 * oddSeries (-(fxOne / 25)) 100 1 (fxOne / 5) 0 - oddSeries (-(fxOne / 57121)) 40 1 (fxOne / 239) 0)
def fxTwoOverRootPi : Int := fxDiv (2 * fxOne) ((isqrt (fxPi * fxOne).toNat 430 0 : Nat) : Int)

/-- e^x for a fixed-point `x`, as a value: `2^k × e^r`. -/
def expVal (x : Int) : FVal :=
  let k := x / fxLn2
  (ofFixed (expSeries (x - k * fxLn2) 110 1 fxOne fxOne)).scale k

/-- ln of a positive `m × 2^e` in fixed point. -/
def lnFixed (m : Nat) (e : Int) : Int :=
  let l := Nat.log2 m
  let z := (FVal.num false m (-(l : Int))).fixed
  let w := fxDiv (z - fxOne) (z + fxOne)
  2 * oddSeries (fxMul w w) 140 1 w 0 + (e + l) * fxLn2

/-- sin and cos of a fixed-point `x`. -/
def fxSin (x : Int) : Int := let r := x % (2 * fxPi); trigSeries (-(fxMul r r)) 90 1 r r
def fxCos (x : Int) : Int := let r := x % (2 * fxPi); trigSeries (-(fxMul r r)) 90 0 fxOne fxOne

/-- `y` is so small that `x` itself serves as sin, tanh and a multiple of erf. -/
def tiny (m : Nat) (e : Int) : Bool := decide ((Nat.log2 m : Int) + e < -40)

/-- The exact value of a transcendental function at a finite nonzero argument, to more than 60 bits beyond FP32's. -/
def exactOf (op : Nat) (s : Bool) (m : Nat) (e : Int) : FVal :=
  let x := (FVal.num s m e).fixed
  let big := decide (0 ≤ (Nat.log2 m : Int) + e - 9)
  match op with
  | 0x30 => (FVal.num false 1 0).div (.num s m e)
  | 0x32 => ((FVal.num false 1 0).div (.num s m e)).sqrt
  | 0x33 => if big then (if s then .num false 1 (-500) else .num false 1 500) else expVal x
  | 0x34 => if big then (if s then .num false 1 (-500) else .num false 1 500) else expVal (fxMul x fxLn2)
  | 0x35 => ofFixed (lnFixed m e)
  | 0x36 => ofFixed (fxDiv (lnFixed m e) fxLn2)
  | 0x37 =>
    if tiny m e then .num s m e
    else if big then .num s (2 ^ 100 - 1) (-100)
    else
      let t := (expVal (-2 * x.natAbs : Int)).fixed
      let y := fxDiv (fxOne - t) (fxOne + t)
      ofFixed (if s then -y else y)
  | 0x38 =>
    if big then (if s then .num false 1 (-500) else .num false (2 ^ 100 - 1) (-100))
    else
      let t := expVal (-(x.natAbs : Int))
      let d := fxOne + t.fixed
      if s then ofFixed (fxDiv t.fixed d) else ofFixed (fxDiv fxOne d)
  | 0x39 =>
    if tiny m e then (ofFixed fxTwoOverRootPi).mul (.num s m e)
    else if decide (7 * fxOne < x.natAbs) then .num s (2 ^ 100 - 1) (-100)
    else ofFixed (fxMul fxTwoOverRootPi (erfSeries (-(fxMul x x)) 300 0 x 0))
  | 0x3A => if tiny m e then .num s m e else ofFixed (fxSin x)
  | _ => ofFixed (fxCos x)

/-- The bound of Table 08-5 in ulps. -/
def ulpBound (op : Nat) : Nat :=
  match op with
  | 0x30 => 1
  | 0x32 => 1
  | 0x34 => 1
  | 0x39 => 3
  | _ => 2

/-- FP32 code `c` lies within `b` ulp of the exact result (R262), of which `y` is known to 2^−16 ulp.
Log: 74 (DESIGN CHOICE). -/
def withinUlp (b : Nat) (y : FVal) (c : Nat) : Bool :=
  match y, elemRaw 0 c with
  | .num s m e, .num t n f =>
    let p := align m e n f
    let diff := (signedMag s p.1 - signedMag t p.2.1).natAbs
    let ulp := if m = 0 then (-149 : Int) else max ((Nat.log2 m : Int) + e) (-126) - 23
    magLe diff p.2.2 (b * 2 ^ 16 - 1) (ulp - 16)
  | _, _ => false

/-- A transcendental instruction on one FP32 lane (Table 08-5): the result's bits and what it counted.
Log: 70 (DEDUCED); 74 (DESIGN CHOICE). -/
def transc (op c : Nat) : Nat × Tally :=
  let nan := (0x7FC00000, Tally.none)
  let fin := fun (s : Bool) (m : Nat) (e : Int) =>
    let y := exactOf op s m e
    let near := conv 0 y
    let free := (Config.transc op (BitVec.ofNat 32 c)).toNat
    if near.2.sat ≠ 0 then near else (if withinUlp (ulpBound op) y free then free else near.1, Tally.none)
  match elemRaw 0 c with
  | .nan => nan
  | .inf s =>
    match op with
    | 0x30 => (bit s * 0x80000000, .none)
    | 0x31 => if s then nan else (c, .none)
    | 0x32 => if s then nan else (0, .none)
    | 0x33 => (if s then 0 else c, .none)
    | 0x34 => (if s then 0 else c, .none)
    | 0x35 => if s then nan else (c, .none)
    | 0x36 => if s then nan else (c, .none)
    | 0x37 => (bit s * 0x80000000 + 0x3F800000, .none)
    | 0x38 => (if s then 0 else 0x3F800000, .none)
    | 0x39 => (bit s * 0x80000000 + 0x3F800000, .none)
    | _ => (0x7FC00000, ⟨0, 1⟩)
  | .num s m e =>
    if m = 0 then
      match op with
      | 0x30 => (bit s * 0x80000000 + 0x7F7FFFFF, ⟨1, 0⟩)
      | 0x31 => (c, .none)
      | 0x32 => (bit s * 0x80000000 + 0x7F7FFFFF, ⟨1, 0⟩)
      | 0x33 => (0x3F800000, .none)
      | 0x34 => (0x3F800000, .none)
      | 0x35 => (0xFF7FFFFF, ⟨1, 0⟩)
      | 0x36 => (0xFF7FFFFF, ⟨1, 0⟩)
      | 0x38 => (0x3F000000, .none)
      | 0x3B => (0x3F800000, .none)
      | _ => (c, .none)
    else if s && (op == 0x31 || op == 0x32 || op == 0x35 || op == 0x36) then nan
    else if op = 0x31 then conv 0 (FVal.num s m e).sqrt
    else if (op == 0x3A || op == 0x3B) && !magLe m e 65536 0 then (0x7FC00000, ⟨0, 1⟩)
    else fin s m e

end Sys2Proof.Machine
end

