-- ==== Sys2Proof/Machine/Flags.lean ====
section
/-! DEFINITION. The flags of the numeric units: saturation and NaN counts and events, the traps, and the scale groups with
their controller (Number formats and training numerics). -/

namespace Sys2Proof.Machine

/-! ## Saturations, NaNs and traps -/

/-- Arm a trap of a Room (R178, R191): its running command ends at the next checkpoint, or at the Lesson end.
Log: 62 (DEDUCED). -/
def Dev.armTrap (d : Dev) (r code : Nat) : Dev :=
  if (d.room r).trap ≠ 0 || (d.running r).isNone then d else
  let d1 := d.setRoom r { d.room r with trap := code }
  if d1.framesHaveCkpt r then d1.requestStop r else d1

/-- Set an event bit of NUM_STATUS when it is clear (R177). -/
def Dev.numEvent (d : Dev) (f : Field) (r : Nat) : Dev := if d.get f r = 1 then d else d.raise f r

/-- Count saturations and NaNs of a Room, with their events and traps (R177, R178). -/
def Dev.tally (d : Dev) (r : Nat) (t : Tally) : Dev :=
  let d1 := if t.sat = 0 then d else
    let e := (d.count NUM_SAT_CNT r t.sat).numEvent NUM_STATUS.SAT_EV r
    if e.get NUM_TRAP_CTL.SAT_TRAP r = 1 then e.armTrap r 0x0205 else e
  if t.nan = 0 then d1 else
    let e := (d1.count NUM_NAN_CNT r t.nan).numEvent NUM_STATUS.NAN_EV r
    if e.get NUM_TRAP_CTL.NAN_TRAP r = 1 then e.armTrap r 0x0206 else e

/-- Count for the Room of a Spindle. -/
def Dev.tallyAt (d : Dev) (i : Nat) (t : Tally) : Dev :=
  match d.spindleRoom i with
  | some r => d.tally r t
  | none => d

/-- End the running command of a Spindle's Room with a numerics code. -/
def Dev.endAt (d : Dev) (i code : Nat) : Dev :=
  match d.spindleRoom i with
  | some r => d.endWith r code
  | none => d

/-! ## Scale groups -/

/-- Address of a group's entry (R183). -/
def Dev.groupAddr (d : Dev) (r g : Nat) : Nat := d.get64 NUM_SCALE_BASE_LO NUM_SCALE_BASE_HI r + 128 * g

/-- A conversion may name a group (R183): below NUM_SCALE_GROUPS, in a table wholly inside the Room's fast-tier window. -/
def Dev.groupOk (d : Dev) (r g : Nat) : Bool :=
  decide (g < d.get NUM_SCALE_GROUPS.COUNT r)
    && inside (d.ftWin r) (d.groupAddr r 0) (128 * d.get NUM_SCALE_GROUPS.COUNT r)

/-- TT_ROUND_CNT[31:0], the Round that groups gather (Table 05-7). -/
def Dev.roundNo (d : Dev) : Nat := d.rd TT_ROUND_CNT_LO 0

/-- The system-wide values of a group have arrived, or are not needed (R187). -/
def Dev.groupAgreed (d : Dev) (a : Nat) : Bool :=
  d.rdLe (a + 8) 4 == 0xFFFFFFFF || !bitAt (d.rdLe a 1) 0 || d.rdLe (a + 0x20) 4 == d.rdLe (a + 8) 4

/-- The magnitude of a nonnegative FP32 code. -/
def magOf (c : Nat) : Nat × Int := (fmtOf 0).elim (0, 0) fun x => x.mag (c % 2 ^ 31)

/-- The greatest of the newest `n` entries of the history ring, `hpos` the next slot. FP32 magnitudes order as their
codes. -/
def Dev.histMax (d : Dev) (a hpos : Nat) : Nat → Nat
  | 0 => 0
  | n + 1 => max (d.rdLe (a + 0x40 + 4 * ((hpos + 15 - n) % 16)) 4) (d.histMax a hpos n)

/-- The advance of a group at its first use in Round `n` (R186). -/
def Dev.groupAdvance (d : Dev) (r a n : Nat) : Dev :=
  let d1 := if d.rdLe (a + 8) 4 = 0xFFFFFFFF then d else
    let shared := bitAt (d.rdLe a 1) 0
    let am := if shared then d.rdLe (a + 0x24) 4 else d.rdLe (a + 0x10) 4
    let ovf := if shared then d.rdLe (a + 0x28) 1 else d.rdLe (a + 0x14) 1
    let hpos := d.rdLe (a + 3) 1 % 16
    let scale : Int := (d.rdLe (a + 2) 1 : Int) - 127
    let hpos' := (hpos + 1) % 16
    let hcount := min (d.rdLe (a + 4) 1 + 1) 16
    let e1 := ((d.wrLe (a + 0x40 + 4 * hpos) 4 am).wrLe (a + 3) 1 hpos').wrLe (a + 4) 1 hcount
    let len := if d.get NUM_SCALE_CTL.HIST r = 0 then 16 else d.get NUM_SCALE_CTL.HIST r
    let top := e1.histMax a hpos' (min hcount len)
    let e := if top = 0 then scale
      else emin (magOf top) (maxfOf (d.rdLe (a + 1) 1)) + d.get NUM_SCALE_CTL.HEADROOM r
    let e := if ovf = 0 then e else max e (scale + ovf + d.get NUM_SCALE_CTL.OVF_EXTRA r)
    e1.wrLe (a + 2) 1 (clampScale (e + 127))
  (((d1.wrLe (a + 8) 4 n).wrLe (a + 0x0C) 4 0).wrLe (a + 0x10) 4 0).wrLe (a + 0x14) 1 0

/-- What a Spindle's read of a group's scale answers (R185 to R187). -/
inductive ScaleRead where
  /-- the scale, with the state after the read -/
  | scale (d : Dev) (c : Nat)
  /-- the command ends with a code -/
  | ends (code : Nat)
  /-- the system-wide values have not arrived -/
  | wait

/-- A Spindle reads a group's SCALE: once per Round, at its first conversion for the group (R185). -/
def Dev.scaleRead (d : Dev) (r i g : Nat) : ScaleRead :=
  if !d.groupOk r g then .ends 0x0202 else
  let n := d.roundNo
  match (d.sp i).groups.find? fun u => u.group == g && u.round == n with
  | some u => .scale d u.scale
  | none =>
    let a := d.groupAddr r g
    if !blockScaled (d.rdLe (a + 1) 1) then .ends 0x0201
    else if d.rdLe (a + 8) 4 ≠ n && !d.groupAgreed a then .wait
    else
      let d1 := if d.rdLe (a + 8) 4 = n then d else d.groupAdvance r a n
      let c := d1.rdLe (a + 2) 1
      .scale (d1.setSp i { d1.sp i with groups := (d1.sp i).groups ++ [⟨g, n, c, 0, 0, 0⟩], scaleWait := none }) c

/-- A Spindle gathers what its conversions for a group met (R185). Log: 73 (DEDUCED). -/
def Dev.gather (d : Dev) (i g : Nat) (bs : List Block) : Dev :=
  let n := d.roundNo
  let sat := bs.foldl (fun t b => t + b.tally.sat) 0
  let am := bs.foldl (fun m b => max m (conv 0 (.num false b.amax.1 b.amax.2)).1) 0
  let ovf := bs.foldl (fun m b => max m b.ovf) 0
  d.setSp i { d.sp i with groups := (d.sp i).groups.map fun u =>
    if u.group == g && u.round == n then { u with sat := u.sat + sat, amax := max u.amax am, ovf := max u.ovf ovf } else u }

/-- Merge one Spindle's gathering into an entry (R185). -/
def Dev.mergeUse (r : Nat) (d : Dev) (u : GroupUse) : Dev :=
  let a := d.groupAddr r u.group
  ((d.wrLe (a + 0x0C) 4 (min (d.rdLe (a + 0x0C) 4 + u.sat) 0xFFFFFFFF)).wrLe (a + 0x10) 4 (max (d.rdLe (a + 0x10) 4) u.amax)).wrLe
    (a + 0x14) 1 (max (d.rdLe (a + 0x14) 1) u.ovf)

/-- A Spindle merges what it has gathered (R185). -/
def Dev.mergeSpindle (r : Nat) (d : Dev) (i : Nat) : Dev :=
  let us := (d.sp i).groups
  let d1 := us.foldl (Dev.mergeUse r) d
  d1.setSp i { d1.sp i with groups := us.map fun u => { u with sat := 0, amax := 0, ovf := 0 } }

/-- At a Lesson end a Spindle merges what it gathered; what a drain still gathers, it merges at the drain's end (R185). -/
def Dev.mergeAtEnd (r : Nat) (d : Dev) (i : Nat) : Dev :=
  let e := Dev.mergeSpindle r d i
  let x := e.sp i
  e.setSp i { x with mergeDue := x.drn.isSome || x.willDrain }

/-- Every Spindle of a Room merges (R185). -/
def Dev.mergeRoom (d : Dev) (r : Nat) : Dev := (d.roomSpindles r).foldl (Dev.mergeAtEnd r) d

/-- An instruction begins to wait for a group's system-wide values (R187). -/
def Dev.beginScaleWait (d : Dev) (r i g : Nat) : Dev :=
  match (d.sp i).scaleWait with
  | some _ => d
  | none => d.setSp i { d.sp i with scaleWait := some (g, d.now + 1000 * d.get NUM_SCALE_WAIT.WAIT_US r) }

/-- The wait for a group's system-wide values expires (R187). An arrival counts when it has come. -/
def Dev.scaleWaitExpire (d : Dev) (i : Nat) : Dev :=
  match (d.sp i).scaleWait, d.spindleRoom i with
  | some (g, dl), some r =>
    if d.now < dl then d
    else if d.groupAgreed (d.groupAddr r g) then d.setSp i { d.sp i with scaleWait := none }
    else ((d.raise NUM_STATUS.AGREE_EV r).count NUM_AGREE_CNT r 1).endWith r 0x0203
  | _, _ => d

/-- Convert lanes to a block-scaled format by blocks of 32 (R171 to R173, R617). A disabled lane takes part as zero.
`scale` is the RUNNING scale, none for BLOCK_MAX. -/
def convBlocks (f : Nat) (scale : Option Nat) (vs : List FVal) : List Block :=
  (chunks 32 (ceilDiv vs.length 32) vs).map fun b =>
    match scale with
    | some c => convWith f c b
    | none => convBlockMax f b

/-! ## The Monitor's table -/

/-- The Monitor table lies wholly inside the Room's fast-tier window (R190). -/
def Dev.monOk (d : Dev) (r : Nat) : Bool := inside (d.ftWin r) (d.get64 NUM_MON_BASE_LO NUM_MON_BASE_HI r) 65536

/-- One sampled row of a layer, with a bound disagreement of some ratio (an FP32 code) or a fault (R189 to R191).
Log: 190 (DESIGN CHOICE). -/
def Dev.monitorRow (d : Dev) (r layer : Nat) (ratio : Option Nat) (fault : Bool) : Dev :=
  let a := d.get64 NUM_MON_BASE_LO NUM_MON_BASE_HI r + 16 * layer
  let add := fun (e : Dev) (o n : Nat) => e.wrLe (a + o) 4 (min (e.rdLe (a + o) 4 + n) 0xFFFFFFFF)
  let d1 := if d.monOk r then
      let e := add (add (add d 0 1) 4 (bit ratio.isSome)) 8 (bit fault)
      match ratio with
      | some q => e.wrLe (a + 12) 4 (max (e.rdLe (a + 12) 4) q)
      | none => e
    else d.numEvent NUM_STATUS.MON_EV r
  let d2 := if ratio.isSome then
      let e := (d1.count NUM_MON_DIS_CNT r 1).setRoom r { d1.room r with monRound := (d1.room r).monRound + 1 }
      if d1.get NUM_MON_CTL.THRESH r ≤ (e.room r).monRound then
        let e := e.numEvent NUM_STATUS.MON_EV r
        if e.get NUM_TRAP_CTL.MON_TRAP r = 1 then e.armTrap r 0x0207 else e
      else e
    else d1
  if fault then (d2.count NUM_MON_FAULT_CNT r 1).numEvent NUM_STATUS.FAULT_EV r else d2

end Sys2Proof.Machine
end

