-- ==== Sys2Proof/Machine/FrameCheck.lean ====
section
/-! DEFINITION. The loader's checks of what one Spindle's frame and Reel program hold for one variant: the mode fields, the
Bobbin map, the descriptors, the streams and buffers, and the microsequence, walked from slot 64 to END in the order in
which it will issue, every iteration of every loop (R85, R199, R202, R225, R234, R250 to R259, R352 to R363, R421). A walk
is possible because neither data nor ARGS change the order (R32, R253). -/

namespace Sys2Proof.Machine

/-- What the checks look at: address and length of the frame and of the Reel program, the output ports that the Spindle
drives and the input ports that a Yarn feeds (R92), and the Room's split weights (R81). -/
structure FrameCtx where
  a : Nat
  n : Nat
  ra : Nat
  rn : Nat
  outs : List Nat
  ins : List Nat
  split : List Nat
  deriving DecidableEq, Repr

/-- A byte of a frame or program of length `n` at address `a`, zero beyond its end (R83). Log: 46 (DEDUCED). -/
def Dev.fb (d : Dev) (a n off : Nat) : Nat := if off < n then (d.rdByte (a + off)).toNat else 0

/-- A little-endian value of `k` bytes of the frame. -/
def Dev.fLe (d : Dev) (c : FrameCtx) (o k : Nat) : Nat :=
  (List.range k).foldr (fun j acc => d.fb c.a c.n (o + j) + 256 * acc) 0

/-- A little-endian value of `k` bytes of the Reel program. -/
def Dev.pLe (d : Dev) (c : FrameCtx) (o k : Nat) : Nat :=
  (List.range k).foldr (fun j acc => d.fb c.ra c.rn (o + j) + 256 * acc) 0

/-- Bytes `[o, o + k)` of the Reel program are zero. Log: 48 (DEDUCED). -/
def Dev.pZero (d : Dev) (c : FrameCtx) (o k : Nat) : Bool := (List.range k).all fun j => d.fb c.ra c.rn (o + j) == 0

/-! ## Header, allocations and Bobbin map -/

/-- FP8 E4M3, FP8 E5M2 or FP6 E3M2. -/
def isF8 (f : Nat) : Bool := decide (3 ≤ f) && decide (f ≤ 5)

/-- BF16 or FP16. -/
def isF16 (f : Nat) : Bool := f == 1 || f == 2

/-- A combination that Table 06-2 lists. -/
def comboOk (fa fb acc : Nat) : Bool :=
  match acc with
  | 0 =>
    (isF8 fa && isF8 fb) || (fa == 6 && isF8 fb) || (isF8 fa && fb == 6) || (fa == 6 && fb == 6)
      || (isF16 fa && isF16 fb) || (fa == 0 && fb == 0)
  | 1 => isF8 fa && isF8 fb
  | 2 => fa == 7 && fb == 7
  | _ => false

/-- The mode fields of a frame header (R199, R225). -/
def modeOk (mm fa fb acc cm : Nat) : Bool :=
  match mm with
  | 0 => fa == 0 && fb == 0 && acc == 0 && cm == 0
  | 1 => cm == 0 && comboOk fa fb acc
  | 2 => decide (0 < cm) && decide (cm < 16) && comboOk fa fb acc
  | _ => false

/-- The Desk allocation entries of a frame (R86): start, size and KIND. Log: 46 (DEDUCED). -/
def Dev.frameAllocs (d : Dev) (c : FrameCtx) : List (Nat × Nat × Nat) :=
  (List.range (d.fLe c 9 1)).map fun k =>
    (d.fLe c (0x100 + 32 * k) 4, d.fLe c (0x104 + 32 * k) 4, d.fLe c (0x108 + 32 * k) 1)

/-- A Desk range lies wholly within one allocation entry of a KIND that `kinds` lists (R202, R259). -/
def deskOk (as : List (Nat × Nat × Nat)) (kinds : List Nat) (a n : Nat) : Bool :=
  as.any fun e => kinds.contains e.2.2 && inside (e.1, e.2.1) a n

/-- Every KIND of R86. -/
def anyKind : List Nat := [0, 1, 2, 3, 4]

/-- The used entries of the Bobbin map (R250): first line and number of lines. -/
def Dev.bobMap (d : Dev) (c : FrameCtx) : List (Nat × Nat) :=
  ((List.range 64).map fun k => (d.fLe c (0x1900 + 32 * k) 2, d.fLe c (0x1902 + 32 * k) 2)).filter fun p => p.2 != 0

/-- No two ranges of a list overlap. -/
def disjoint : List (Nat × Nat) → Bool
  | [] => true
  | p :: t => t.all (fun q => decide (p.1 + p.2 ≤ q.1) || decide (q.1 + q.2 ≤ p.1)) && disjoint t

/-- The Bobbin map keeps R250. -/
def Dev.bobMapOk (d : Dev) (c : FrameCtx) : Bool :=
  (List.range 64).all (fun k => (List.range 27).all fun j => d.fb c.a c.n (0x1905 + 32 * k + j) == 0)
    && (d.bobMap c).all (fun p => decide (p.1 + p.2 ≤ 247)) && disjoint (d.bobMap c)

/-- Lines `[v, v + n)` exist, and those of them in 0 to 246 lie together within one region (R248, R250). -/
def linesOk (bs : List (Nat × Nat)) (v n : Nat) : Bool :=
  decide (v + n ≤ 256) && (decide (247 ≤ v) || bs.any fun p => inside p v (min (v + n) 247 - v))

/-! ## The walk -/

/-- Where the walk stands: the next slot, the open loops, the tiles issued and DRAIN of the last of them, the active set,
the tile that filled the shadow set, the tiles whose drains a WAIT has covered, the panels expanded since the last
checkpoint (A_ADDR with the words that describe them), the CH_BLK of the argmax run that is open, the POINTs met with their
slots, and the units of each stream waited on and released. -/
structure Walk where
  ip : Nat
  loops : List LoopSt
  tiles : Nat
  last : Option Bool
  active : Nat
  filled : Option Nat
  covered : Nat
  panels : List (List Nat)
  run : Option Nat
  points : List (Nat × Nat)
  units : List (Nat × Nat)
  deriving DecidableEq, Repr

/-- The walk at the start of a RUN command (R209, R252). -/
def Walk.start : Walk := ⟨64, [], 0, none, 0, none, 0, [], none, [], List.replicate 64 (0, 0)⟩

/-- Slot `n` of the frame's microsequence, 128 bits (R252). -/
def Dev.frameSlot (d : Dev) (c : FrameCtx) (n : Nat) : Nat := d.fLe c (0x3000 + 16 * n) 16

/-- What descriptor `e` gives at the open loops (R254). -/
def Dev.frameDesc (d : Dev) (c : FrameCtx) (ls : List LoopSt) (e : Nat) : Int :=
  let w := d.frameSlot c e
  toSigned 32 (ofSigned 32 (((List.range (min 6 ls.length)).map fun l =>
    toSigned 16 (bitsOf w (19 + 16 * l) 16) * ((nth ⟨0, 0, 0⟩ ls l).index : Int)).foldl (· + ·) (bitsOf w 2 17 : Int)))

/-- The KIND of descriptor `e` (R254). -/
def Dev.frameKind (d : Dev) (c : FrameCtx) (e : Nat) : Nat := bitsOf (d.frameSlot c e) 0 2

/-- Reserved bits of the descriptor table are 0; LO belongs to masks (R254). Log: 49 (DEDUCED). -/
def Dev.descsOk (d : Dev) (c : FrameCtx) : Bool :=
  (List.range 64).all fun e =>
    bitsOf (d.frameSlot c e) 124 4 == 0 && (d.frameKind c e == 3 || bitsOf (d.frameSlot c e) 115 9 == 0)

/-- The place that a descriptor operand gives now, when the descriptor exists, has the KIND asked for and is in range
(R253, R254, R259). Log: 50 (DEDUCED). -/
def Dev.place (d : Dev) (c : FrameCtx) (w : Walk) (v kind top : Nat) : Option Nat :=
  let x := v % 256
  let p := d.frameDesc c w.loops x
  if decide (x < 64) && d.frameKind c x == kind && decide (0 ≤ p) && decide (p < top) then some p.toNat else none

/-- A line operand of `n` lines: mode 0 or 1 (R253, R259). -/
def Dev.lineOk (d : Dev) (c : FrameCtx) (w : Walk) (v n : Nat) : Bool :=
  match v / 256 with
  | 0 => linesOk (d.bobMap c) v n
  | 1 => match d.place c w v 1 256 with
    | some p => linesOk (d.bobMap c) p n
    | none => false
  | _ => false

/-- A source of an element-wise instruction: a line or a scalar word (R253). -/
def Dev.sourceOk (d : Dev) (c : FrameCtx) (w : Walk) (v : Nat) : Bool := v / 256 == 2 || d.lineOk c w v 1

/-- A Desk operand that covers `n` bytes (R254, R259). -/
def Dev.deskOperandOk (d : Dev) (c : FrameCtx) (w : Walk) (v n : Nat) : Bool :=
  v / 256 == 1 && match d.place c w v 2 131072 with
    | some p => deskOk (d.frameAllocs c) anyKind (64 * p) n
    | none => false

/-- An operand field that the opcode does not use (R253). -/
def unusedOk (v : Nat) : Bool := v == 0 || v == 0x300

/-- Class of an opcode, for the fields it uses. -/
inductive OpKind where
  | seq
  | two
  | three
  | one
  | trans
  | reduce
  | cvt
  | int
  | idx
  | ld
  | st
  | accrd
  | nsig
  | ysend
  deriving DecidableEq, Repr

/-- The opcodes of Table 08-3; none for a reserved one. -/
def opKind (op : Nat) : Option OpKind :=
  if op ≤ 6 then some .seq
  else if op = 7 then some .nsig
  else if op = 8 then some .ysend
  else if [0x10, 0x11, 0x12, 0x14, 0x15, 0x18, 0x19].contains op then some .two
  else if [0x13, 0x1A, 0x1B].contains op then some .three
  else if op = 0x16 ∨ op = 0x17 then some .one
  else if op = 0x20 then some .cvt
  else if 0x28 ≤ op ∧ op ≤ 0x2C then some .int
  else if op = 0x2D then some .idx
  else if 0x30 ≤ op ∧ op ≤ 0x3B then some .trans
  else if 0x40 ≤ op ∧ op ≤ 0x42 then some .reduce
  else if op = 0x48 then some .ld
  else if op = 0x49 then some .st
  else if op = 0x4A then some .accrd
  else none

/-- LANES of an instruction (R253, R258, R259, Table 08-1). -/
def lanesOk (k : OpKind) (acc lanes : Nat) : Bool :=
  match k with
  | .seq => lanes == 0
  | .nsig => lanes == 0
  | .ysend => lanes == 0
  | .trans => lanes == 0
  | .reduce => lanes == 0 || lanes == 3
  | .int => lanes == 3
  | .idx => lanes == 3
  | .accrd => lanes == (if acc = 2 then 3 else 0)
  | .two => decide (lanes ≤ 3)
  | .three => decide (lanes ≤ 3)
  | .one => decide (lanes ≤ 3)
  | .cvt => decide (lanes ≤ 3)
  | .ld => decide (lanes ≤ 3)
  | .st => decide (lanes ≤ 3)

/-- The kind converts between lanes and FMT (R617). -/
def OpKind.converts (k : OpKind) : Bool := k == .cvt || k == .ld || k == .st

/-- A CVT between lane types of different widths, whose AUX[0] names a half (R617). -/
def halfCvt (lanes fmt : Nat) : Bool := !blockScaled fmt && fmtWidth fmt != 8 * laneBytes lanes

/-- AUX and COND of an instruction (R253, Tables 08-3 and 08-4). Loop counts, POINTs and the units of a Reel are checked
where the walk meets them. -/
def auxOk (op lanes fmt aux cond : Nat) : Bool :=
  match op with
  | 2 => cond == 0
  | 4 =>
    decide (cond % 16 ≤ 4) && decide (cond / 16 < (if cond % 16 = 1 then 4 else 1))
      && (aux == 0 || cond % 16 == 0 || cond % 16 == 2)
  | 5 => cond == 0 && decide (1 ≤ aux) && decide (aux ≤ 0xFFFE)
  | 7 => decide (aux < 16) && decide (cond < 4096)
  | 8 => decide (cond < 16)
  | 0x20 => cond == 0 && (aux == 0 || (aux == 1 && halfCvt lanes fmt))
  | 0x48 => cond == 0
  | 0x49 => cond == 0
  | 0x4A => cond == 0 && decide (aux < 128)
  | _ => aux == 0 && cond == 0

/-- The operand fields of an instruction in the present iteration (R250, R253, R254, R259, R617). -/
def Dev.operandsOk (d : Dev) (c : FrameCtx) (w : Walk) (k : OpKind) (x : Nat) : Bool :=
  let n := vAux x + 1
  let line := d.lineOk c w
  let src := d.sourceOk c w
  let lanes := lineLanes (vLanes x)
  let bytes := 1024 * vAux x + lanes * fmtWidth (vFmt x) / 8
  let scales := if blockScaled (vFmt x) then d.deskOperandOk c w (vSb x) (n * (lanes / 32)) else unusedOk (vSb x)
  match k with
  | .seq => unusedOk (vDst x) && unusedOk (vSa x) && unusedOk (vSb x) && unusedOk (vSc x)
  | .two => line (vDst x) 1 && src (vSa x) && src (vSb x) && unusedOk (vSc x)
  | .int => line (vDst x) 1 && src (vSa x) && src (vSb x) && unusedOk (vSc x)
  | .three => line (vDst x) 1 && src (vSa x) && src (vSb x) && src (vSc x)
  | .one => line (vDst x) 1 && src (vSa x) && unusedOk (vSb x) && unusedOk (vSc x)
  | .trans => line (vDst x) 1 && src (vSa x) && unusedOk (vSb x) && unusedOk (vSc x)
  | .cvt => line (vDst x) 1 && src (vSa x) && unusedOk (vSb x) && unusedOk (vSc x)
  | .reduce => src (vDst x) && src (vSa x) && unusedOk (vSb x) && unusedOk (vSc x)
  | .idx => line (vDst x) 1 && vSa x / 256 == 2 && unusedOk (vSb x) && unusedOk (vSc x)
  | .ld => line (vDst x) n && d.deskOperandOk c w (vSa x) bytes && scales && unusedOk (vSc x)
  | .st => d.deskOperandOk c w (vDst x) bytes && line (vSa x) n && scales && unusedOk (vSc x)
  | .accrd => line (vDst x) 1 && unusedOk (vSa x) && unusedOk (vSb x) && unusedOk (vSc x)
  | .nsig =>
    unusedOk (vDst x) && vSa x / 256 == 2 && vSb x / 256 == 2 && decide (vSb x % 256 + n ≤ 256) && unusedOk (vSc x)
  | .ysend => unusedOk (vDst x) && d.deskOperandOk c w (vSa x) (64 * n) && unusedOk (vSb x) && unusedOk (vSc x)

/-- One instruction against R253 and R259. Log: 48 (DEDUCED); 49 (DEDUCED). -/
def Dev.insOk (d : Dev) (c : FrameCtx) (w : Walk) (x : Nat) : Bool :=
  match opKind (vOp x) with
  | none => false
  | some k =>
    let block := k.converts && blockScaled (vFmt x)
    bitsOf x 18 14 == 0 && bitsOf x 62 2 == 0 && !bitAt x 79
      && lanesOk k (d.fLe c 7 1) (vLanes x)
      && (if vMaskEn x then !(k == .seq || k == .nsig || k == .ysend) && d.frameKind c (vMask x) == 3 else vMask x == 0)
      && (if k.converts then decide (vFmt x ≤ 8) else vFmt x == 0)
      && (!vRunning x || (block && k != .ld)) && (vRunning x || vGroup x == 0)
      && auxOk (vOp x) (vLanes x) (vFmt x) (vAux x) (vCond x)
      && d.operandsOk c w k x

/-! ## Tiles -/

/-- The tile instruction after slot `ip` of the frame. -/
def Dev.frameTile (d : Dev) (c : FrameCtx) (ip : Nat) : Tile :=
  let n := if d.fLe c 4 1 = 2 then 16 else 8
  ⟨(List.range n).map fun k => d.fLe c (0x3000 + 16 * (ip + 1) + 4 * k) 4, 0, 0⟩

/-- The Desk byte that a field in 64-byte units names. -/
def Tile.byte (t : Tile) (n : Nat) : Nat := 64 * bitsOf (t.w n) 0 17

/-- A panel, with its scale panel for a block-scaled format, or 0 in its place (R202, Table 06-4). -/
def panelOk (as : List (Nat × Nat × Nat)) (kinds : List Nat) (f kt a s : Nat) : Bool :=
  deskOk as kinds a (kt * 16 * fmtWidth f)
    && (if blockScaled f then kt % 32 == 0 && deskOk as kinds s (kt / 32 * 128) else s == 0)

/-- The bytes of an output tile (R212): 128 rows, and their scale bytes for a block-scaled format. Log: 47 (DEDUCED). -/
def Tile.outBytes (t : Tile) : Nat :=
  if t.raw then 65536 else 2048 * fmtWidth t.outFmt + (if blockScaled t.outFmt then 512 else 0)

/-- What Table 06-3 and R202 ask of words 4 to 7. Log: 47 (DEDUCED). -/
def Tile.outOk (t : Tile) (as : List (Nat × Nat × Nat)) (outs : List Nat) : Bool :=
  (List.range 5).all (fun n => decide (t.w n < 2 ^ 17)) && bitsOf (t.w 5) 29 3 == 0
    && bitsOf (t.w 6) 30 2 == 0 && bitsOf (t.w 7) 30 2 == 0 && t.init != 3 && (t.raw || decide (t.outFmt ≤ 7))
    && (t.running || t.group == 0)
    && (if t.init = 1 then deskOk as [0, 3] (t.byte 5) 65536 else t.byte 5 == 0)
    && (if t.toYarn then t.byte 4 == 0 && !t.ports.isEmpty && t.ports.all fun p => outs.contains p
        else t.ports.isEmpty && (!t.drain || deskOk as [0, 3] (t.byte 4) t.outBytes))

/-- The slab and its scale lines lie in allocations of KIND 0 or 1 (R227, R234). -/
def Tile.slabOk (t : Tile) (as : List (Nat × Nat × Nat)) (f channels : Nat) : Bool :=
  decide (t.validH ≤ t.slabH) && decide (t.validW ≤ t.slabW)
    && deskOk as [0, 1] (t.byte 13) (channels * t.slabH * (ceilDiv (t.slabW * fmtWidth f) 512 * 64))
    && (if blockScaled f then deskOk as [0, 1] (t.byte 14) (ceilDiv channels 32 * t.slabH * (ceilDiv t.slabW 64 * 64))
        else t.byte 14 == 0)

/-- AM_EN, AM_FIRST and AM_WRITE (Table 07-1). -/
def Tile.am (t : Tile) : Bool := t.words.length == 16 && bitAt (t.w 15) 17
def Tile.amFirst (t : Tile) : Bool := bitAt (t.w 15) 18
def Tile.amWrite (t : Tile) : Bool := bitAt (t.w 15) 19

/-- The argmax fields: 0 without AM_EN, and the index region of an AM_WRITE tile (R226, R242, R243). -/
def Tile.argOk (t : Tile) (as : List (Nat × Nat × Nat)) : Bool :=
  (t.am || (!t.amFirst && !t.amWrite && bitsOf (t.w 15) 22 10 == 0))
    && (if t.am && t.amWrite then deskOk as [0, 3] (t.byte 15) 512 else t.byte 15 == 0)

/-- The extension words of a CONV tile (R226 to R243, Table 07-3); `cm` is CONV_METHOD, `fa` and `fb` the formats.
Log: 49 (DEDUCED). -/
def Tile.convOk (t : Tile) (as : List (Nat × Nat × Nat)) (cm fa fb : Nat) : Bool :=
  let taps := t.fr * t.fs
  let noA := t.w 0 == 0 && t.w 2 == 0
  let noBins := bitsOf (t.w 9) 16 10 == 0
  let noPool := t.poolOp == 0
  let bOk := panelOk as [0, 1] fb t.kt (t.byte 1) (t.byte 3)
  let aOk := panelOk as [4] fa t.kt (t.byte 0) (t.byte 2)
  bitAt cm t.method && bitsOf (t.w 8) 27 5 == 0 && bitsOf (t.w 9) 26 6 == 0 && decide (t.w 13 < 2 ^ 17)
    && decide (t.w 14 < 2 ^ 17) && decide (t.kt ≤ 65536) &&
    match t.method with
    | 0 =>
      noA && noBins && noPool && !t.reuse && bOk && t.kt == taps * t.ct && (!blockScaled fa || t.ct % 32 == 0)
        && decide (bitsOf (t.w 8) 10 3 ≤ 1) && decide (bitsOf (t.w 8) 13 3 ≤ 1) && decide (t.th ≤ 4)
        && t.slabOk as fa t.ct && t.argOk as
    | 1 =>
      noBins && noPool && aOk && bOk && t.kt == taps * t.ct && (!blockScaled fa || t.ct % 32 == 0)
        && t.slabOk as fa t.ct && t.argOk as
    | 2 =>
      noA && noBins && !t.reuse && bitsOf (t.w 9) 0 16 == 0 && t.w 1 == 0 && t.w 3 == 0 && t.init == 0 && t.drain
        && decide (t.poolOp ≤ 2) && t.kt == taps && t.slabOk as fa t.cols && t.argOk as
    | _ =>
      bitsOf (t.w 8) 2 25 == 0 && t.w 10 == 0 && noPool && !t.am && !t.amFirst && !t.amWrite
        && bitsOf (t.w 15) 22 10 == 0 && aOk && bOk
        && t.kt == (bitsOf (t.w 9) 16 4 + 1) * (bitsOf (t.w 9) 20 4 + 1) * t.ct
        && t.slabOk as fa t.ct && deskOk as anyKind (t.byte 15) 2048

/-- What describes an expanded panel (R234): A_ADDR and words 8 to 14, REUSE apart. -/
def Tile.panelKey (t : Tile) : List Nat := t.byte 0 :: setBits (t.w 8) 26 1 0 :: (t.words.drop 9).take 6

/-- The argmax run after a tile (R242): `none` where the tile breaks the rule. -/
def Tile.argNext (t : Tile) (run : Option Nat) : Option (Option Nat) :=
  let blk := bitsOf (t.w 15) 22 10
  let next := if t.amWrite then none else some blk
  if !t.am then some run
  else match run with
    | none => if t.amFirst then some next else none
    | some b => if !t.amFirst && decide (b < blk) then some next else none

/-- A tile at the walk's place against R199, R202 and R234; the walk after it. Log: 47 (DEDUCED); 48 (DEDUCED); 49 (DEDUCED). -/
def Dev.tileOk (d : Dev) (c : FrameCtx) (w : Walk) : Option Walk :=
  let t := d.frameTile c w.ip
  let as := d.frameAllocs c
  let mm := d.fLe c 4 1
  let fa := d.fLe c 5 1
  let fb := d.fLe c 6 1
  let conv := mm == 2
  let order := match w.last with
    | none => t.init != 2
    | some drained => if drained then t.init != 2 else t.init == 2
  let form := if conv then t.convOk as (d.fLe c 8 1) fa fb
    else panelOk as [0, 1] fa t.kt (t.byte 0) (t.byte 2) && panelOk as [0, 1] fb t.kt (t.byte 1) (t.byte 3)
  let reuseOk := !(conv && t.reuse) || w.panels.contains t.panelKey
  match t.argNext w.run with
  | none => none
  | some run =>
    if mm != 0 && order && form && t.outOk as c.outs && reuseOk
        && decide (w.ip + (if conv then 4 else 2) ≤ 2303) then
      let n := w.tiles + 1
      let w1 := { w with ip := w.ip + (if conv then 5 else 3), tiles := n, last := some t.drain, run := run,
                         panels := if conv && t.method == 1 && !t.reuse then t.panelKey :: w.panels.filter (· != t.panelKey)
                                   else w.panels }
      some (if t.drain then { w1 with active := 1 - w.active, filled := some n } else w1)
    else none

/-! ## Streams -/

/-- Offset of stream entry `s` (Table 12-1). -/
def streamOff (s : Nat) : Nat := 0x40 + 128 * s

/-- N_STREAMS, at most 64. -/
def Dev.nStreams (d : Dev) (c : FrameCtx) : Nat := min 64 (d.pLe c 0 1)

/-- First buffer, number of buffers and N_UNITS of a stream. -/
def Dev.ringOf (d : Dev) (c : FrameCtx) (s : Nat) : Nat × Nat × Nat :=
  (d.pLe c (streamOff s + 6) 2, d.pLe c (streamOff s + 8) 1, d.pLe c (streamOff s + 0x2C) 4)

/-- The stream whose ring holds buffer table entry `b`. -/
def Dev.ownerOf (d : Dev) (c : FrameCtx) (b : Nat) : Option Nat :=
  (List.range (d.nStreams c)).find? fun s =>
    let r := d.ringOf c s
    d.pLe c (streamOff s) 1 != 0 && decide (r.1 ≤ b) && decide (b < r.1 + r.2.1)

/-- A WAIT on a Reel buffer, or its release, at the walk's place (R360, R363); the walk after it. -/
def Dev.reelWaitOk (d : Dev) (c : FrameCtx) (w : Walk) (aux : Nat) : Option Walk :=
  match d.ownerOf c (aux % 512) with
  | none => none
  | some s =>
    let r := d.ringOf c s
    let u := nth (0, 0) w.units s
    let k := if bitAt aux 15 then u.2 else u.1
    let ahead := if bitAt aux 15 then decide (u.2 < u.1) else decide (u.1 < r.2.2)
    if bitsOf aux 9 6 == 0 && ahead && aux % 512 == r.1 + k % r.2.1 then
      some { w with ip := w.ip + 1, units := setNth (if bitAt aux 15 then (u.1, u.2 + 1) else (u.1 + 1, u.2)) w.units s }
    else none

/-- The Desk ranges of a stream's buffers (R359). -/
def Dev.buffersOf (d : Dev) (c : FrameCtx) (s : Nat) : List (Nat × Nat) :=
  let r := d.ringOf c s
  let size := d.pLe c (streamOff s + 0x28) 4 * d.pLe c (streamOff s + 0x24) 4
  (List.range r.2.1).map fun k => (64 * bitsOf (d.pLe c (0x2040 + 8 * (r.1 + k)) 4) 0 17, size)

/-- The ACC fields of a REMOTE_ACC stream (R421, Table 14-4). -/
def Dev.accOk (d : Dev) (c : FrameCtx) (o : Nat) : Bool :=
  d.pLe c (o + 0x10) 8 == 0 && d.pLe c (o + 0x24) 4 * d.pLe c (o + 0x28) 4 == 8192
    && decide (d.pLe c (o + 0x68) 2 ≤ 32767) && decide (d.pLe c (o + 0x6A) 1 ≤ 1) && decide (d.pLe c (o + 0x6B) 1 ≤ 1)
    && decide (1 ≤ d.pLe c (o + 0x6E) 1) && decide (d.pLe c (o + 0x6E) 1 ≤ 64) && d.pZero c (o + 0x6F) 1
    && (d.pLe c (o + 0x6A) 1 == 1 || d.pZero c (o + 0x70) 4) && d.pZero c (o + 0x74) 12

/-- The rows of a stream: its counts, and the length of a Skein stream (R303, R354, R355, R357). -/
def Dev.rowsOk (d : Dev) (c : FrameCtx) (o kind : Nat) (skein : Bool) : Bool :=
  let rows := d.pLe c (o + 0x28) 4 * d.pLe c (o + 0x2C) 4
  let counts := [0, 1, 2, 3].map fun k => d.pLe c (o + 0x30 + 4 * k) 4
  let bytes := d.pLe c (o + 0x50) 4
  counts.all (fun x => decide (1 ≤ x)) && counts.foldl (· * ·) 1 == rows
    && (kind != 3 || (counts == [rows, 1, 1, 1] && d.pZero c (o + 0x44) 12))
    && (if skein then
          decide (4096 * (rows - 1) < bytes) && decide (bytes ≤ 4096 * rows) && bytes % 2 ^ d.pLe c (o + 2) 1 == 0
        else bytes == 0)

/-- PANEL and SCALES of a stream (R356, R363). -/
def Dev.panelStreamOk (d : Dev) (c : FrameCtx) (o kind : Nat) : Bool :=
  let flags := d.pLe c (o + 1) 1
  let fmt := d.pLe c (o + 4) 1
  let bits := 8 * d.pLe c (o + 0x24) 4
  let width := if bitAt flags 2 then 8 else fmtWidth fmt
  (!(bitAt flags 1 || bitAt flags 2) || kind == 1 || kind == 3)
    && (if bitAt flags 1 then
          decide (fmt ≤ 7) && (!bitAt flags 2 || fmt == 0) && d.pLe c (o + 0x28) 4 == 128 && bits % width == 0
            && (!blockScaled fmt || bits / width % 32 == 0)
        else fmt == 0)

/-- One stream entry that is in use (R353 to R363, Table 12-2). Log: 49 (DEDUCED). -/
def Dev.streamOk (d : Dev) (c : FrameCtx) (s : Nat) : Bool :=
  let o := streamOff s
  let kind := d.pLe c o 1
  let flags := d.pLe c (o + 1) 1
  let skein := bitAt flags 0
  let remote := decide (4 ≤ kind)
  let after := d.pLe c (o + 5) 1
  let r := d.ringOf c s
  let mine := d.buffersOf c s
  decide (kind ≤ 6) && decide (flags < 8)
    && (if skein then
          decide (d.pLe c (o + 2) 1 ≤ 2) && decide (d.pLe c (o + 3) 1 ≤ 3) && decide (kind ≤ 2) && !bitAt flags 1
            && d.pLe c (o + 0x24) 4 == 4096
        else d.pZero c (o + 2) 2)
    && (after == 0xFF || (after != s && decide (after < d.nStreams c) && d.pLe c (streamOff after) 1 == 2))
    && decide (2 ≤ r.2.1) && decide (r.2.1 ≤ 8) && decide (r.1 + r.2.1 ≤ 512) && d.pZero c (o + 9) 7
    && (kind == 3 || d.pZero c (o + 0x18) 8)
    && (if remote then decide (d.pLe c (o + 0x20) 2 < 32768) else d.pZero c (o + 0x20) 2) && d.pZero c (o + 0x22) 2
    && decide (1 ≤ d.pLe c (o + 0x24) 4) && decide (d.pLe c (o + 0x24) 4 ≤ 65536)
    && decide (1 ≤ d.pLe c (o + 0x28) 4) && decide (d.pLe c (o + 0x28) 4 ≤ 65536) && decide (1 ≤ r.2.2)
    && d.rowsOk c o kind skein && d.panelStreamOk c o kind && d.pZero c (o + 0x54) 12
    && (if kind = 6 then d.accOk c o else d.pZero c (o + 0x60) 32)
    && nth 0 c.split (if remote then 2 else if kind = 2 then 1 else 0) != 0
    && mine.all (fun p => deskOk (d.frameAllocs c) [2] p.1 p.2)
    && (List.range s).all fun q => d.pLe c (streamOff q) 1 == 0 ||
         mine.all fun p => (d.buffersOf c q).all fun b => decide (p.1 + p.2 ≤ b.1) || decide (b.1 + b.2 ≤ p.1)

/-- An unused stream entry (KIND 0): its reserved bits are 0, and so is every field that only other kinds or flags use (Table 12-2).
Log: 49 (DEDUCED). -/
def Dev.unusedOk (d : Dev) (c : FrameCtx) (s : Nat) : Bool :=
  let o := streamOff s
  d.pZero c (o + 1) 4 && d.pZero c (o + 9) 7 && d.pZero c (o + 0x18) 12 && d.pZero c (o + 0x50) 48

/-- The Reel program keeps R352, R363 and R370; a stream entry of KIND 0 is unused, and a program of no stream has no state block.
Log: 49 (DEDUCED). -/
def Dev.reelOk (d : Dev) (c : FrameCtx) : Bool :=
  let n := d.nStreams c
  let state := 64 * d.pLe c 4 4
  decide (d.pLe c 0 1 ≤ 64) && d.pZero c 1 3 && decide (d.pLe c 4 4 < 2 ^ 17) && d.pZero c 8 56
    && d.pZero c (streamOff n) (128 * (64 - n)) && d.pZero c 0x3040 0x8FC0
    && (d.fLe c 3 1 == 0 || n == 0)
    && (List.range 512).all (fun k => decide (d.pLe c (0x2040 + 8 * k) 4 < 2 ^ 17) && d.pZero c (0x2044 + 8 * k) 4)
    && (List.range n).all (fun s => if d.pLe c (streamOff s) 1 = 0 then d.unusedOk c s else d.streamOk c s)
    && (n == 0 || (state / 65536 == (state + 511) / 65536
        && (List.range (d.fLe c 10 1)).all fun k =>
             let e := 0x1100 + 32 * k
             d.fLe c e 2 == 0xFFFF || bitAt (d.fLe c (e + 8) 16) (state / 65536)))

/-! ## The microsequence -/

/-- What one step of the walk finds: a broken rule, END, or the walk's next place. -/
inductive WalkStep where
  | refuse
  | ended
  | on (w : Walk)
  deriving DecidableEq, Repr

/-- ENDLOOP: back to the loop's first slot while iterations remain, else on (R254). -/
def Walk.endLoop (w : Walk) : WalkStep :=
  match w.loops.getLast? with
  | none => .refuse
  | some l =>
    if l.index + 1 < l.count then
      .on { w with ip := l.start, loops := w.loops.dropLast ++ [{ l with index := l.index + 1 }] }
    else .on { w with ip := w.ip + 1, loops := w.loops.dropLast }

/-- A checkpoint (R244, R257, R259): no argmax run is open and its POINT is no other slot's; expanded panels end. -/
def Walk.checkpoint (w : Walk) (point : Nat) : WalkStep :=
  if w.run.isSome || w.points.any (fun p => p.1 == point && p.2 != w.ip) then .refuse
  else .on { w with ip := w.ip + 1, panels := [],
                    points := if w.points.contains (point, w.ip) then w.points else (point, w.ip) :: w.points }

/-- ACCRD (R258): AUX[6] names the shadow set, which a tile with DRAIN = 1 filled and a WAIT DRAIN has covered. -/
def Walk.accrd (w : Walk) (aux : Nat) : WalkStep :=
  match w.filled with
  | none => .refuse
  | some n =>
    if decide (n ≤ w.covered) && bitsOf aux 6 1 == 1 - w.active then .on { w with ip := w.ip + 1 } else .refuse

/-- One instruction of the walk. Log: 49 (DEDUCED). -/
def Dev.walkStep (d : Dev) (c : FrameCtx) (w : Walk) : WalkStep :=
  let x := d.frameSlot c w.ip
  let aux := vAux x
  let opt := fun (o : Option Walk) => match o with | some y => WalkStep.on y | none => WalkStep.refuse
  if decide (2303 < w.ip) || !d.insOk c w x then .refuse
  else match vOp x with
    | 1 => if w.loops.isEmpty && w.run.isNone then .ended else .refuse
    | 2 => if 6 ≤ w.loops.length then .refuse else .on { w with ip := w.ip + 1, loops := w.loops ++ [⟨w.ip + 1, aux + 1, 0⟩] }
    | 3 => w.endLoop
    | 4 =>
      match vCond x % 16 with
      | 0 => .on { w with ip := w.ip + 1, covered := max w.covered (w.tiles - aux) }
      | 1 => if c.ins.contains (vCond x / 16) then .on { w with ip := w.ip + 1 } else .refuse
      | 2 => opt (d.reelWaitOk c w aux)
      | _ => .on { w with ip := w.ip + 1 }
    | 5 => w.checkpoint aux
    | 6 => opt (d.tileOk c w)
    | 0x4A => w.accrd aux
    | _ => .on { w with ip := w.ip + 1 }

/-- Every used liveness entry is for the Lesson-end point or for a checkpoint that the walk has met (R89). Log: 48 (DEDUCED). -/
def Dev.livePointsOk (d : Dev) (c : FrameCtx) (w : Walk) : Bool :=
  (List.range (d.fLe c 10 1)).all fun k =>
    let point := d.fLe c (0x1100 + 32 * k) 2
    point == 0 || point == 0xFFFF || w.points.any fun p => p.1 == point

/-- The walk, for at most `fuel` instructions. Log: 50 (DEDUCED). -/
def Dev.walk (d : Dev) (c : FrameCtx) : Nat → Walk → Bool
  | 0, _ => false
  | fuel + 1, w =>
    match d.walkStep c w with
    | .refuse => false
    | .ended => d.livePointsOk c w
    | .on w1 => d.walk c fuel w1

/-- The mode fields, maps, descriptors and microsequence of a frame keep the rules of the vector and matrix engines. The
fuel is above any walk: 2,240 slots under six loops of at most 65,536 iterations (R252, R254). -/
def Dev.codeOk (d : Dev) (c : FrameCtx) : Bool :=
  modeOk (d.fLe c 4 1) (d.fLe c 5 1) (d.fLe c 6 1) (d.fLe c 7 1) (d.fLe c 8 1) && d.bobMapOk c && d.descsOk c
    && d.walk c (2240 * 2 ^ 96) Walk.start

end Sys2Proof.Machine
end

