-- ==== Sys2Proof/Machine/Image.lean ====
section
/-! DEFINITION. The checks of a Flaram image (R76 to R98, Tables 03-1 to 03-6), step by step as Table 03-5 orders them.
Each check function answers 0 when it passes and else the code of Table 03-6. -/

namespace Sys2Proof.Machine

/-- The first nonzero code of a list of checks. Log: 44 (DEDUCED). -/
def firstCode : List Nat → Nat
  | [] => 0
  | c :: t => if c = 0 then firstCode t else c

/-- A code when a condition fails. -/
def need (ok : Bool) (code : Nat) : Nat := if ok then 0 else code

/-- Bytes `[a, a + n)` of memory are all zero. -/
def Dev.isZero (d : Dev) (a n : Nat) : Bool := (trange d.mem a n).isEmpty

/-- One used entry of the section table (R78): type, variant, offset, size, CRC. -/
structure Section where
  typ : Nat
  variant : Nat
  off : Nat
  size : Nat
  crc : Nat
  deriving DecidableEq, Repr

/-- The used entries of the section table. -/
def Dev.sections (d : Dev) (img : Nat) : List Section :=
  (List.range (d.rdLe (img + 0x10) 2)).map fun k =>
    let e := img + 0x100 + 16 * k
    ⟨d.rdLe e 2, (d.rdByte (e + 2)).toNat, d.rdLe (e + 4) 4, d.rdLe (e + 8) 4, d.rdLe (e + 12) 4⟩

/-- Step 1: IMAGE_RANGE (Table 03-6). -/
def Dev.rangeCode (d : Dev) (r : Nat) : Nat :=
  let a := d.get64 CFG_IMG_ADDR_LO CFG_IMG_ADDR_HI r
  let n := d.get CFG_IMG_SIZE.SIZE r * 4096
  need (a % 4096 == 0 && decide (0 < n) && inside (d.ftWin r) a n && d.rdLe (a + 0x0C) 4 == n) 0x0104

/-- Step 2, header: FORMAT and TARGET (R77, Table 03-1). -/
def Dev.headerCode (d : Dev) (a : Nat) : Nat :=
  firstCode
    [need (d.rdLe a 4 == 0x4D524C46 && d.rdLe (a + 4) 2 == 2 && d.isZero (a + 0x0B) 1 && d.isZero (a + 0x16) 2
        && d.isZero (a + 0x28) 24 && d.isZero (a + 0x70) 144) 0x0110,
     need (d.rdLe (a + 8) 2 == 0x0960 && d.rdLe (a + 0x0A) 1 == 0xB1 && d.rdLe (a + 6) 1 == d.get NUM_GEN.GEN 0) 0x0111]

/-- Step 2, section table: STRUCTURE (R78, R79). -/
def Dev.tableCode (d : Dev) (a size : Nat) : Nat :=
  let ns := d.rdLe (a + 0x10) 2
  if ns = 0 ∨ 64 < ns then 0x0112 else
  let ss := d.sections a
  need (d.isZero (a + 0x100 + 16 * ns) (16 * (64 - ns))
    && (List.range ns).all (fun k => d.isZero (a + 0x100 + 16 * k + 3) 1)
    && ss.all (fun s => s.off % 256 == 0 && decide (0x500 ≤ s.off) && decide (s.off + s.size ≤ size - 128)
        && decide (1 ≤ s.typ) && decide (s.typ ≤ 6))
    && disjoint (ss.map fun s => (s.off, s.size))
    && [1, 5, 6].all fun t => (ss.filter fun s => s.typ == t).map (fun s => s.variant) == [0xFF]) 0x0112

/-- The offset and size of the section of a type that an image holds once. -/
def Dev.oneSection (d : Dev) (a typ : Nat) : Nat × Nat :=
  match (d.sections a).find? fun s => s.typ == typ with
  | some s => (s.off, s.size)
  | none => (0, 0)

/-- Benches of a BENCH_MAP, ascending. -/
def Dev.benchMap (d : Dev) (sec : Nat) : List Nat :=
  (List.range 240).filter fun b => bitAt (d.rdByte (sec + b / 8)).toNat (b % 8)

/-- The regulator profiles of a ROOM section. -/
def Dev.profilesOf (d : Dev) (sec : Nat) : List (Nat × Nat) :=
  (List.range (d.rdByte (sec + 0x30)).toNat).map fun k => (d.rdLe (sec + 0x40 + 4 * k) 2, d.rdLe (sec + 0x42 + 4 * k) 2)

/-- Step 2, ROOM section: STRUCTURE (R78, R81). -/
def Dev.roomSecCode (d : Dev) (a : Nat) : Nat :=
  match (d.sections a).find? fun s => s.typ == 1 with
  | none => 0x0112
  | some s =>
    let b := a + s.off
    let np := (d.rdByte (b + 0x30)).toNat
    let nb := d.rdLe (a + 0x14) 2
    need (s.size == 256 && crc32 (d.rdBytes b s.size) == s.crc && d.isZero (b + 30) 2
      && (d.benchMap b).length == nb && decide (1 ≤ nb) && decide (nb ≤ 240) && decide (1 ≤ np) && decide (np ≤ 4)
      && d.rdLe (b + 0x31) 1 + d.rdLe (b + 0x32) 1 + d.rdLe (b + 0x33) 1 == 100
      && d.isZero (b + 0x34) 12 && d.isZero (b + 0x40 + 4 * np) (16 - 4 * np) && d.isZero (b + 0x50) 176) 0x0112

/-- Step 2, VARIANT (R79): the variant count and the per-variant sections. -/
def Dev.variantCode (d : Dev) (a : Nat) : Nat :=
  let nv := (d.rdByte (a + 0x12)).toNat
  let ss := d.sections a
  need (decide (1 ≤ nv) && decide (nv ≤ 8) && decide ((d.rdByte (a + 0x13)).toNat < nv)
    && [2, 3, 4].all fun t =>
      let vs := (ss.filter fun s => s.typ == t).map fun s => s.variant
      vs.all (fun v => decide (v < nv)) && (List.range nv).all fun v => vs.count v == 1) 0x0142

/-- Benches that other Rooms have claimed. -/
def Dev.otherBenches (d : Dev) (r : Nat) : List Nat :=
  (List.range 16).flatMap fun q => if q = r then [] else (d.room q).benches

/-- The largest of a list. -/
def maxList (l : List Nat) : Nat := l.foldl max 0

/-- Step 2, claims: BENCH_TAKEN, BENCH_UNMAPPED, REGULATOR and MEMORY for the needs (R82, Table 03-3). -/
def Dev.claimCode (d : Dev) (r a : Nat) : Nat :=
  let b := a + (d.oneSection a 1).1
  let bs := d.benchMap b
  let ps := d.profilesOf b
  let others := (List.range 16).filter fun q => q != r
  let claimOk := fun (mine : Nat) (f : RoomSt → Nat) => decide (mine + (others.map fun q => f (d.room q)).sum ≤ 1000)
  firstCode
    [need (bs.all fun x => !(d.otherBenches r).contains x) 0x0120,
     need (bs.all fun x => [4 * x, 4 * x + 1, 4 * x + 2, 4 * x + 3].all fun l => d.get SPX_REMAP.MAPPED l == 1) 0x0121,
     need (ps.all (fun p => decide (1 ≤ p.1) && decide (p.1 ≤ 1000) && decide (1 ≤ p.2) && decide (p.2 ≤ 1000))
        && claimOk (maxList (ps.map fun p => p.1)) (fun x => x.ftClaim)
        && claimOk (maxList (ps.map fun p => p.2)) (fun x => x.ctClaim)) 0x0122,
     need (decide (d.rdLe (b + 0x20) 8 ≤ (d.ftWin r).2) && decide (d.rdLe (b + 0x28) 8 ≤ (d.ctWin r).2)) 0x0123]

/-- Every check of step 2, in the order of Table 03-5. Log: 44 (DEDUCED). -/
def Dev.step2Code (d : Dev) (r a size : Nat) : Nat :=
  firstCode [d.headerCode a, d.tableCode a size, d.roomSecCode a, d.variantCode a, d.claimCode r a]

/-- The bytes that DIGEST covers, with its own bytes taken as zero (R80). -/
def Dev.digestBytes (d : Dev) (a size : Nat) : List (BitVec 8) :=
  d.rdBytes a 0x40 ++ List.replicate 48 0 ++ d.rdBytes (a + 0x70) (size - 128 - 0x70)

/-- The state of a key slot (Table 03-14): 0 EMPTY, 1 ACTIVE, 2 REVOKED. -/
def Dev.keyState (d : Dev) (slot : Nat) : Nat := bitsOf (d.rd CFG_KEY_STAT 0) (2 * slot) 2

/-- An image may name a key slot: it is ACTIVE, or was when the Room's load was accepted (R102, R583). -/
def Dev.keyLoads (d : Dev) (r slot : Nat) : Bool :=
  decide (slot ≤ 3) && (d.keyState slot == 1 || bitsOf (d.room r).imgKeys (2 * slot) 2 == 1)

/-- The public key of a slot (R101). -/
def Dev.keyOf (d : Dev) (slot : Nat) : Nat :=
  if slot = 0 then Config.vendorKey else tget (fun _ => 0) d.mgmt.keys slot

/-- Step 3: KEY, then the digest (R80, R102). Log: 16 (DESIGN CHOICE). -/
def Dev.step3Code (d : Dev) (r a size : Nat) : Nat :=
  let slot := (d.rdByte (a + 7)).toNat
  firstCode
    [need (d.keyLoads r slot) 0x0113,
     need ((Config.sha384 (d.digestBytes a size)).toNat == d.rdLe (a + 0x40) 48) 0x0114]

/-- Step 4: the signature block (R80, R102). -/
def Dev.step4Code (d : Dev) (a size : Nat) : Nat :=
  let slot := (d.rdByte (a + 7)).toNat
  need (Config.ecdsaVerifies (d.keyOf slot) (Config.sha384 (d.digestBytes a size)) (d.rdBytes (a + size - 128) 96)
    && d.isZero (a + size - 32) 32) 0x0114

/-- Step 5: the CRCs of the other sections and the bytes outside every part (R76, R78). -/
def Dev.bytesCode (d : Dev) (a size : Nat) : Nat :=
  let ss := d.sections a
  let parts := (0, 0x500) :: (size - 128, 128) :: ss.map fun s => (s.off, s.size)
  need (ss.all (fun s => s.typ == 1 || crc32 (d.rdBytes (a + s.off) s.size) == s.crc)
    && (trange d.mem a size).all fun p => parts.any fun q => decide (a + q.1 ≤ p.1) && decide (p.1 < a + q.1 + q.2)) 0x0112

/-- Step 5, directories: VARIANT (R84): the logical indices are the Room's, ascending. -/
def Dev.dirCode (d : Dev) (a : Nat) (ls : List Nat) : Nat :=
  need ((d.sections a).all fun s =>
    if s.typ == 2 || s.typ == 3 then
      decide (16 * ls.length ≤ s.size)
        && ((List.range ls.length).map fun k => d.rdLe (a + s.off + 16 * k) 2) == ls
    else true) 0x0142

/-- The Yarn entries of a section. -/
def Dev.yarnList (d : Dev) (b : Nat) : List Nat := (List.range (d.rdLe b 4)).map fun k => d.rdLe (b + 4 + 8 * k) 8

/-- The destinations of a Yarn entry (R92): logical Spindle and input port. -/
def yarnDsts (e : Nat) : List (Nat × Nat) :=
  (List.range (bitsOf e 12 2 + 1)).map fun k => (bitsOf e (14 + 12 * k) 10, bitsOf e (24 + 12 * k) 2)

/-- The source of a Yarn entry: logical Spindle and output port. -/
def yarnSrc (e : Nat) : Nat × Nat := (bitsOf e 0 10, bitsOf e 10 2)

/-- A frame keeps R83, R85, R86, R89 and the rules of its microsequence, its Reel program those of the Reels. -/
def Dev.frameOk (d : Dev) (variant l : Nat) (c : FrameCtx) : Bool :=
  let a := c.a
  let n := c.n
  let f := d.fb a n
  let f2 := fun o => f o + 256 * f (o + 1)
  let f4 := fun o => f2 o + 65536 * f2 (o + 2)
  let nd := f 9
  let nl := f 10
  let descs := (List.range nd).map fun k => (f4 (0x100 + 32 * k), f4 (0x104 + 32 * k))
  let points := ((List.range nl).map fun k => f2 (0x1100 + 32 * k)).filter fun p => p != 0xFFFF
  (List.range 3840).all (fun k => f (0x2100 + k) == 0)
    && f2 0 == l && f 2 == variant && decide (f 3 ≤ 1) && decide (nd ≤ 128) && decide (nl ≤ 64)
    && (List.range 245).all (fun k => f (11 + k) == 0)
    && descs.all (fun p => p.1 % 64 == 0 && p.2 % 64 == 0 && decide (64 ≤ p.2) && decide (p.1 + p.2 ≤ 0x800000))
    && disjoint descs
    && (List.range nd).all (fun k => decide (f (0x108 + 32 * k) ≤ 4) && decide (f (0x109 + 32 * k) ≤ 1)
        && (List.range 22).all fun j => f (0x10A + 32 * k + j) == 0)
    && (List.range nl).all (fun k => decide (f2 (0x1102 + 32 * k) ≤ 7) && f4 (0x1104 + 32 * k) == 0
        && f4 (0x1118 + 32 * k) == 0 && f4 (0x111C + 32 * k) == 0)
    && decide (points.eraseDups.length = points.length)
    && d.codeOk c && d.reelOk c

/-- What the checks of the `k`-th Spindle of a Room look at, for one variant. -/
def Dev.frameCtx (d : Dev) (img variant l k : Nat) : FrameCtx :=
  let part := fun typ => match (d.sections img).find? fun s => s.typ == typ && s.variant == variant with
    | some s => img + s.off
    | none => img
  let place := fun b => (b + d.rdLe (b + 16 * k + 4) 4, d.rdLe (b + 16 * k + 8) 4)
  let fr := place (part 2)
  let rl := place (part 3)
  let ys := d.yarnList (part 4)
  let room := img + (d.oneSection img 1).1
  ⟨fr.1, fr.2, rl.1, rl.2, (ys.filter fun e => (yarnSrc e).1 == l).map fun e => (yarnSrc e).2,
   ((ys.flatMap yarnDsts).filter fun q => q.1 == l).map fun q => q.2,
   [0x31, 0x32, 0x33].map fun o => (d.rdByte (room + o)).toNat⟩

/-- Step 5, FRAME (R84 to R89, R352): every directory entry, frame and Reel program. Log: 46 (DEDUCED). -/
def Dev.frameCode (d : Dev) (a : Nat) (ls : List Nat) : Nat :=
  need ((d.sections a).all fun s =>
    if s.typ == 2 || s.typ == 3 then
      (ls.zip (List.range ls.length)).all fun p =>
        let e := a + s.off + 16 * p.2
        let off := d.rdLe (e + 4) 4
        let len := d.rdLe (e + 8) 4
        d.isZero (e + 2) 2 && decide (off + len ≤ s.size) && decide (len ≤ 49152)
          && crc32 (d.rdBytes (a + s.off + off) len) == d.rdLe (e + 12) 4
          && (s.typ == 3 || d.frameOk s.variant p.1 (d.frameCtx a s.variant p.1 p.2))
    else true) 0x0143

/-- Step 5, Yarn lists: YARN_LIMIT (R54, R92). -/
def Dev.yarnLimitCode (d : Dev) (a : Nat) : Nat :=
  need ((d.sections a).all fun s =>
    if s.typ == 4 then
      let b := a + s.off
      let n := d.rdLe b 4
      decide (4 ≤ s.size) && decide (n ≤ 3840) && s.size == 4 + 8 * n &&
        (let es := d.yarnList b
         es.all (fun e => bitsOf e 62 2 == 0 && (List.range 4).all fun k =>
             decide (k < bitsOf e 12 2 + 1) || bitsOf e (14 + 12 * k) 12 == 0)
           && decide ((es.map yarnSrc).eraseDups.length = es.length)
           && decide ((es.flatMap yarnDsts).eraseDups.length = (es.flatMap yarnDsts).length))
    else true) 0x0130

/-- Step 5, Yarn lists: YARN_FOREIGN (R92). -/
def Dev.yarnForeignCode (d : Dev) (a : Nat) (ls : List Nat) : Nat :=
  need ((d.sections a).all fun s =>
    if s.typ == 4 then
      (d.yarnList (a + s.off)).all fun e => ls.contains (yarnSrc e).1 && (yarnDsts e).all fun q => ls.contains q.1
    else true) 0x0131

/-- The queues that a QUEUE section binds: number and level (R95). -/
def Dev.queueList (d : Dev) (b : Nat) : List (Nat × Nat) :=
  (List.range (d.rdLe b 4)).map fun k =>
    let e := d.rdLe (b + 4 + 4 * k) 4
    (bitsOf e 0 14, bitsOf e 14 2)

/-- Step 5: QUEUE_BIND (R95). -/
def Dev.queueCode (d : Dev) (r a : Nat) : Nat :=
  let s := d.oneSection a 5
  let b := a + s.1
  let n := d.rdLe b 4
  need (decide (4 ≤ s.2) && decide (1 ≤ n) && decide (n ≤ 16384) && s.2 == 4 + 4 * n &&
    (let qs := (d.queueList b).map fun p => p.1
     (List.range n).all (fun k => d.rdLe (b + 6 + 4 * k) 2 == 0) && decide (qs.eraseDups.length = qs.length)
       && qs.all fun q => d.get QUE_CTL.BOUND q == 0 || d.get QUE_CTL.ROOM q == r)) 0x0140

/-- Insert a Lesson into a list ordered by START_NS. -/
def insLesson (l : Lesson) : List Lesson → List Lesson
  | [] => [l]
  | m :: t => if l.start ≤ m.start then l :: m :: t else m :: insLesson l t

/-- The Lessons of a TIMETABLE section, in Round order (R96). -/
def Dev.lessonList (d : Dev) (b : Nat) : List Lesson :=
  ((List.range (d.rdLe (b + 4) 4)).map fun k =>
    let e := b + 8 + 16 * k
    let w := d.rdLe (e + 8) 4
    (⟨d.rdLe e 4, d.rdLe (e + 4) 4, bitsOf w 0 3, bitAt w 3, bitsOf w 4 2, bitsOf w 6 2, bitsOf w 8 2⟩ : Lesson)).foldr
    insLesson []

/-- A Lesson that is followed by a Lesson of a different variant is at least 50 µs long (R98). -/
def lessonsLongEnough (ls : List Lesson) : Bool :=
  (ls.zip (ls.drop 1 ++ ls.take 1)).all fun p =>
    let same := if p.1.hostSel || p.2.hostSel then decide (ls.length = 1) else p.1.variant == p.2.variant
    same || decide (50000 ≤ p.1.len)

/-- Step 5: TIMETABLE (R96, R97, R98). -/
def Dev.timetableCode (d : Dev) (r a : Nat) : Nat :=
  let s := d.oneSection a 6
  let b := a + s.1
  let round := d.rdLe b 4
  let n := d.rdLe (b + 4) 4
  let nv := (d.rdByte (a + 0x12)).toNat
  let np := (d.rdByte (a + (d.oneSection a 1).1 + 0x30)).toNat
  let others := (List.range 16).any fun q => q != r && (d.roomState q == stLoaded || d.roomState q == stHeld)
  need (decide (8 ≤ s.2) && decide (1 ≤ n) && decide (n ≤ 256) && s.2 == 8 + 16 * n
    && decide (10000 ≤ round) && decide (round ≤ 4000000000) &&
    (let ls := d.lessonList b
     ls.all (fun l => decide (l.variant < nv) && decide (l.profile < np) && decide (l.start + l.len ≤ round))
       && (List.range n).all (fun k => bitsOf (d.rdLe (b + 16 + 16 * k) 4) 10 22 == 0 && d.rdLe (b + 20 + 16 * k) 4 == 0)
       && disjoint (ls.map fun l => (l.start, l.len))
       && (!others || d.rd TT_ROUND 0 == round) && decide (n ≤ d.get TT_FREE.FREE 0)
       && lessonsLongEnough ls)) 0x0141

/-- The live bytes S that a liveness entry marks (R90). -/
def liveBytes (mask flags : Nat) : Nat :=
  65536 * popcount 128 mask + 65536 * (bitsOf flags 0 1 + bitsOf flags 1 1) + 262144 * bitsOf flags 2 1

/-- The whole state of a Spindle (R90). -/
def fullBytes : Nat := 8781824

/-- The points of the CKPT instructions of a frame from slot `n` to its END (R89, R257). -/
def framePoints (f : Nat → Nat) : Nat → Nat → List Nat
  | 0, _ => []
  | fuel + 1, n =>
    match f (0x3000 + 16 * n) with
    | 1 => []
    | 5 => (f (0x3000 + 16 * n + 10) + 256 * f (0x3000 + 16 * n + 11)) :: framePoints f fuel (n + 1)
    | 6 => framePoints f fuel (n + (if f 4 = 2 then 5 else 3))
    | _ => framePoints f fuel (n + 1)

/-- The largest S over the points of one frame (R91): its checkpoints and its Lesson end, each full where the frame has no entry for it
(R90). -/
def Dev.frameSMax (d : Dev) (a n : Nat) : Nat :=
  let f := d.fb a n
  let le := fun o k => (List.range k).foldr (fun j acc => f (o + j) + 256 * acc) 0
  let es := ((List.range (f 10)).map fun k => 0x1100 + 32 * k).filter fun o => le o 2 != 0xFFFF
  let sizes := es.map fun o => liveBytes (le (o + 8) 16) (le (o + 2) 2)
  if (0 :: framePoints f 2240 64).all fun p => es.any fun o => le o 2 == p then maxList sizes else maxList (fullBytes :: sizes)

/-- S_max of an image (R91). -/
def Dev.imageSMax (d : Dev) (a : Nat) (ls : List Nat) : Nat :=
  maxList ((d.sections a).flatMap fun s =>
    if s.typ == 2 then
      (List.range ls.length).map fun k =>
        let e := a + s.off + 16 * k
        d.frameSMax (a + s.off + d.rdLe (e + 4) 4) (d.rdLe (e + 8) 4)
    else [])

/-- CFG_SAVE_REQ of an image (R91), in 64 KiB units. -/
def saveUnits (nSpindles sMax : Nat) : Nat := ceilDiv (65536 + nSpindles * (4096 + sMax)) 65536

/-- Step 5, last: the save area against CFG_SAVE_REQ (R91, R126). -/
def Dev.saveCode (d : Dev) (r units : Nat) : Nat :=
  let a := d.get64 ROOM_SAVE_ADDR_LO ROOM_SAVE_ADDR_HI r
  let n := d.get ROOM_SAVE_SIZE.UNITS r
  let usable := if inside (0, ftEnd) a (n * 65536) then n else 0
  need (decide (units ≤ usable)) 0x0123

/-- Every check of step 5, in the order of Table 03-5. Log: 44 (DEDUCED). -/
def Dev.step5Code (d : Dev) (r a size : Nat) (ls : List Nat) : Nat :=
  firstCode
    [d.bytesCode a size, d.dirCode a ls, d.frameCode a ls, d.yarnLimitCode a, d.yarnForeignCode a ls, d.queueCode r a,
     d.timetableCode r a, d.saveCode r (saveUnits ls.length (d.imageSMax a ls))]

end Sys2Proof.Machine
end

