-- ==== Sys2Proof/Machine/Fabric.lean ====
section
/-! DEFINITION. The fabric that carries Yarns and how the loader lays them: sites, dies and base tiles, tracks, bond gates and
cross-die circuits (Spindles, Benches, Yarns and the Note path, R45, R46, R55 to R58; R93). -/

namespace Sys2Proof.Machine

/-! ## Places -/

/-- The site of a physical position (Table 02-3). -/
def siteOf (p : Nat) : Nat :=
  if p ≤ 26 then p else if p ≤ 32 then p + 2 else if p ≤ 59 then p + 4 else if p ≤ 61 then p - 33 else p - 27

/-- The physical position at a site (Table 02-3). -/
def posAt (s : Nat) : Nat :=
  if s ≤ 26 then s else if s ≤ 28 then s + 33 else if s ≤ 34 then s - 2 else if s ≤ 36 then s + 27 else s - 4

/-- Panel row and column of a Spindle die (R46). -/
def dieRow (d : Nat) : Nat := d / 4
def dieCol (d : Nat) : Nat := d % 4

/-- The base tile to which a Spindle die is bonded (R46). -/
def tileOf (d : Nat) : Nat := 2 * (dieRow d / 2) + dieCol d / 2

/-- A site of the device, 64 × die + site: that of a physical Spindle, and the Spindle there (R45). -/
def nodeOf (i : Nat) : Nat := 64 * (i / 64) + siteOf (i % 64)
def spindleOn (n : Nat) : Nat := 64 * (n / 64) + posAt (n % 64)

/-- The neighbour of a site on its die: north, south, west, east by `k`. An edge of a site in a direction is `4 × node + k`. -/
def neighbour (n k : Nat) : Option Nat :=
  let row := n % 64 / 8
  let col := n % 8
  match k with
  | 0 => if row = 0 then none else some (n - 8)
  | 1 => if row = 7 then none else some (n + 8)
  | 2 => if col = 0 then none else some (n - 1)
  | _ => if col = 7 then none else some (n + 1)

/-! ## Tracks, gates and boundaries -/

/-- The 16 tracks of an edge (R55), and the bond gates of a site, one downward and one upward (R56), as numbers of one list. -/
def tracksOf (e : Nat) : List Nat := (List.range 16).map fun t => 16 * e + t
def downGate (n : Nat) : Nat := 65536 + n
def upGate (n : Nat) : Nat := 66560 + n

/-- The directed boundary from one base tile to an edge neighbour, in the order of Table 03-14. -/
def boundary (a b : Nat) : List Nat :=
  match a, b with
  | 0, 1 => [0]
  | 1, 0 => [1]
  | 0, 2 => [2]
  | 2, 0 => [3]
  | 1, 3 => [4]
  | 3, 1 => [5]
  | 2, 3 => [6]
  | 3, 2 => [7]
  | _, _ => []

/-- The boundaries that a circuit crosses (R56, R59): none within a tile, one to a neighbour, two to the diagonal tile, by the row
or by the column first. -/
def crossings (a b : Nat) (byRow : Bool) : List Nat :=
  if a = b then []
  else if a + b = 3 then
    let m := if byRow then 2 * (a / 2) + b % 2 else 2 * (b / 2) + a % 2
    boundary a m ++ boundary m b
  else boundary a b

/-! ## Paths on a die -/

/-- What a search for a path may use: sites whose switch boxes may be passed, edges with a track left, and gates left. -/
structure Fabric where
  site : Nat → Bool
  edge : Nat → Bool
  gate : Nat → Bool

/-- Sites reached, each with the edge that reached it, nearest first; the start has no edge. -/
abbrev Tree := List (Nat × Option Nat)

/-- Add what a tree's sites reach in one hop. -/
def Fabric.grow (f : Fabric) (t : Tree) : Tree :=
  t.foldl (fun (acc : Tree) (p : Nat × Option Nat) =>
    ([0, 1, 2, 3] : List Nat).foldl (fun (acc : Tree) k =>
      match neighbour p.1 k with
      | some n => if f.site n && f.edge (4 * p.1 + k) && !(acc.any fun q => q.1 == n) then acc ++ [(n, some (4 * p.1 + k))] else acc
      | none => acc) acc) t

/-- The sites within `n` hops of a site. -/
def Fabric.within (f : Fabric) (start : Nat) : Nat → Tree
  | 0 => if f.site start then [(start, none)] else []
  | n + 1 => f.grow (f.within start n)

/-- The edges from the start of a tree to a site. -/
def Tree.path (t : Tree) : Nat → Nat → List Nat
  | 0, _ => []
  | fuel + 1, n =>
    match t.find? fun p => p.1 == n with
    | some (_, some e) => e :: Tree.path t fuel (e / 4)
    | _ => []

/-- A tree reaches a site. -/
def Tree.has (t : Tree) (n : Nat) : Bool := t.any fun p => p.1 == n

/-! ## Laying one Yarn -/

/-- The upward gates through which a circuit reaches sites of one die within `h` hops: one for all where one serves, else one for
each; none where some site is out of reach. With them the edges used. -/
def Fabric.enter (f : Fabric) (die h : Nat) (ts : List Nat) : Option (List Nat × List Nat) :=
  let gates := ((List.range 64).map fun k => 64 * die + k).filter fun n => f.gate (upGate n)
  let try' := fun (ts : List Nat) => gates.findSome? fun n =>
    let t := f.within n h
    if ts.all t.has then some (upGate n, ts.flatMap (t.path 64)) else none
  match try' ts with
  | some (g, es) => some ([g], es)
  | none => ts.foldl (fun (acc : Option (List Nat × List Nat)) n =>
      match acc, try' [n] with
      | some (gs, es), some (g, more) => some (gs ++ [g], es ++ more)
      | _, _ => none) (some ([], []))

/-- A route of a Yarn from a site to sites (R57, R58): its edges, its gates, and the dies that it enters. On the source's die it goes
by tracks where it can; what is out of reach so is reached through the base tile, with at most 4 hops on the way.
Log: 173 (DEDUCED). -/
def Fabric.route (f : Fabric) (src : Nat) (ts : List Nat) : Option (List Nat × List Nat × List Nat) :=
  let home := f.within src 63
  let far := ts.filter fun n => n / 64 != src / 64 || !home.has n
  let es := (ts.filter fun n => !far.contains n).flatMap (home.path 64)
  if far.isEmpty then some (es, [], [])
  else
    match (f.within src 4).find? fun p => f.gate (downGate p.1) with
    | none => none
    | some (g, _) =>
      let exit := home.path 64 g
      let dies := (far.map fun n => n / 64).eraseDups
      dies.foldl (fun (acc : Option (List Nat × List Nat × List Nat)) die =>
        match acc, f.enter die (4 - exit.length) (far.filter fun n => n / 64 == die) with
        | some (es, gs, ds), some (gs', es') => some (es ++ es', gs ++ gs', ds ++ [die])
        | _, _ => none) (some (es ++ exit, [downGate g], []))

/-! ## Laying a Room's Yarns -/

/-- A Room's Yarns may pass the switch box of a site (R57): the site is its own, or holds a free spare or a retired Spindle, and the
switch box is usable. -/
def Dev.siteFor (d : Dev) (r n : Nat) : Bool :=
  let i := spindleOn n
  d.get SPX_STATE.SWBOX_OK i == 1 &&
    ((d.roomSpindles r).contains i || d.get SPX_STATE.STATE i == 1 || d.get SPX_STATE.STATE i == 2 || d.get FLT_SPX_STAT.RETIRED i == 1)

/-- The laying of one variant: the Yarns laid, the cross-die Yarns on each directed boundary, the first Yarn without a route and the
first that finds a boundary full. -/
structure Lay where
  done : List Laid
  xd : List Nat
  bad : Option Nat
  noRoom : Option Nat

/-- Count the boundaries that a Yarn crosses. -/
def addCross (xd cross : List Nat) : List Nat := xd.zipIdx.map fun (p : Nat × Nat) => p.1 + bit (cross.contains p.2)

/-- Lay the `k`-th Yarn of a variant (R57, R58): with the tracks, gates and way across the tiles that the loader prefers where they
give a route, else with any that are left. `taken` holds what other Rooms and kept Yarns use, `avail` the Room's cross-die
capacity. Log: 35 (DESIGN CHOICE). -/
def Dev.layYarn (d : Dev) (r : Nat) (taken avail : List Nat) (v : Lay) (k entry : Nat) : Lay :=
  let used := v.done.flatMap fun l => l.uses
  let open' := fun (n : Nat) => !taken.contains n && !used.contains n
  let left := fun (e : Nat) => (tracksOf e).find? open'
  let pick := Config.routeUse d.free entry
  let fabric := fun (p : Nat → Bool) => (⟨d.siteFor r, fun e => p e && (left e).isSome, fun g => p g && open' g⟩ : Fabric)
  let node := fun (l : Nat) => nodeOf ((d.physOf l).getD 0)
  let src := node (yarnSrc entry).1
  let ts := ((yarnDsts entry).map fun q => node q.1).eraseDups
  let found := match (fabric pick).route src ts with
    | some x => some x
    | none => (fabric fun _ => true).route src ts
  match found with
  | none => { v with bad := some (v.bad.getD k) }
  | some (es, gs, dies) =>
    let way := fun (byRow : Bool) => (dies.flatMap fun x => crossings (tileOf (src / 64)) (tileOf (x)) byRow).eraseDups
    let fits := fun (c : List Nat) => c.all fun b => decide (nth 0 v.xd b < nth 0 avail b)
    let first := way (pick 70000)
    let cross := if fits first then first else if fits (way !(pick 70000)) then way !(pick 70000) else first
    { v with
      done := v.done ++ [⟨entry, es.eraseDups.filterMap left ++ gs, cross⟩]
      xd := addCross v.xd cross
      noRoom := if fits cross then v.noRoom else some (v.noRoom.getD k) }

/-- Lay a variant's Yarns in the order of its list, those with a laying given kept as they are (R93, R521). -/
def Dev.layVariant (d : Dev) (r : Nat) (taken avail : List Nat) (ys : List (Nat × Option Laid)) : Lay :=
  let kept := ys.filterMap fun p => p.2
  let start : Lay := ⟨[], kept.foldl (fun (xd : List Nat) l => addCross xd l.cross) [0, 0, 0, 0, 0, 0, 0, 0], none, none⟩
  ys.zipIdx.foldl (fun (v : Lay) (p : (Nat × Option Laid) × Nat) =>
    match p.1.2 with
    | some l => { v with done := v.done ++ [l] }
    | none => d.layYarn r (taken ++ kept.flatMap fun l => l.uses) avail v p.2 p.1.1) start

/-- The tracks and gates that a Room holds, in any variant. -/
def RoomSt.tracks (x : RoomSt) : List Nat := x.lays.flatten.flatMap fun l => l.uses

/-- Tracks and gates that other Rooms hold (R57). -/
def Dev.otherTracks (d : Dev) (r : Nat) : List Nat :=
  (List.range 16).flatMap fun q => if q = r then [] else (d.room q).tracks

/-- The eight directed base-tile boundaries of CFG_XD_FREE (Table 03-14). -/
def xdFields : List Field :=
  [CFG_XD_FREE0.T0_T1, CFG_XD_FREE0.T1_T0, CFG_XD_FREE0.T0_T2, CFG_XD_FREE0.T2_T0,
   CFG_XD_FREE1.T1_T3, CFG_XD_FREE1.T3_T1, CFG_XD_FREE1.T2_T3, CFG_XD_FREE1.T3_T2]

/-- Give back (or, with `take`, reserve) cross-die capacity. -/
def Dev.xdMove (d : Dev) (take : Bool) (xd : List Nat) : Dev :=
  (xdFields.zip xd).foldl (fun e p => e.set p.1 0 (if take then e.get p.1 0 - p.2 else e.get p.1 0 + p.2)) d

/-- The larger of two lists, element by element. -/
def maxZip (a b : List Nat) : List Nat := (a.zip b).map fun p => max p.1 p.2

/-- Lay every variant's Yarns (R57, R58, R93), the Room's present reservation given back, and reserve on each boundary the most that
one variant needs: the device so laid, or ROUTE or CROSS_DIE_FULL with the number of the first Yarn that draws it. -/
def Dev.layAll (d : Dev) (r : Nat) (ys : List (List (Nat × Option Laid))) : Except (Nat × Nat) Dev :=
  let d1 := d.xdMove false (d.room r).xd
  let avail := xdFields.map fun f => d1.get f 0
  let vs := ys.map (d.layVariant r (d.otherTracks r) avail)
  match vs.findSome? fun v => v.bad with
  | some k => .error (0x0132, k)
  | none =>
    match vs.findSome? fun v => v.noRoom with
    | some k => .error (0x0133, k)
    | none =>
      let xd := vs.foldl (fun (a : List Nat) v => maxZip a v.xd) [0, 0, 0, 0, 0, 0, 0, 0]
      .ok ((d1.xdMove true xd).setRoom r { d1.room r with xd := xd, lays := vs.map fun v => v.done }).drew

/-- Write the Room's switch-box banks for its active variant and the one that stands by (R93). -/
def Dev.writeBanks (d : Dev) (r : Nat) : Dev :=
  let x := d.room r
  d.setRoom r { x with
    bankA := nth [] x.lays (d.get CFG_STATUS.ACTIVE_VAR r)
    bankS := if d.get CFG_STATUS.STANDBY_VALID r = 1 then nth [] x.lays (d.get CFG_STATUS.STANDBY_VAR r) else [] }

end Sys2Proof.Machine
end

