-- ==== Sys2Proof/Machine/Traffic.lean ====
section
/-! DEFINITION. What every access to the memory tiers shares: the check against a Room's windows, poison, corrections, the
wait for tokens and for a channel that retrains (Memory tiers). -/

namespace Sys2Proof.Machine

/-! ## Windows -/

/-- Check an access of a Room against its windows (R317); without a Room, against the tiers (R315). 0 when it may be
performed. An address outside every tier also lies outside the windows, and 0x0401 ranks first (R345, R21).
Log: 61 (DEDUCED). -/
def Dev.accessCode (d : Dev) (room : Option Nat) (a n : Nat) : Nat :=
  match room with
  | some r => need (d.inWindows r a n) 0x0401
  | none => need (decide (a + n ≤ ftEnd) || (decide (ctBase ≤ a) && decide (a + n ≤ ctEnd))) 0x0402

/-- A refused access of a Room sets WIN_EV (R317). -/
def Dev.winEv (d : Dev) (room : Option Nat) : Dev :=
  match room with
  | some r => d.raise MEM_ROOM_STAT.WIN_EV r
  | none => d

/-- WIN_EV of a Room where one of the ranges that its work would access lies outside its windows (R317). -/
def Dev.winCheck (d : Dev) (r : Nat) (ranges : List (Nat × Nat)) : Dev :=
  if ranges.all fun p => d.inWindows r p.1 p.2 then d else d.raise MEM_ROOM_STAT.WIN_EV r

/-! ## Poison -/

/-- The latches of the first poison mark after POISON_EV was cleared (R329): the channel, the kind and the sector. -/
def Dev.latchPoison (d : Dev) (s kind : Nat) : Dev :=
  if d.get MEM_STATUS.POISON_EV 0 = 1 then d else
    (((d.set MEM_ERR_INFO.CHAN 0 ((d.homeOf s).getD 0)).set MEM_ERR_INFO.KIND 0 kind).set64 MEM_ERR_ADDR_LO MEM_ERR_ADDR_HI 0 s).raise
      MEM_STATUS.POISON_EV 0

/-- Mark a sector poisoned (R328, R329): the latches on the first mark after POISON_EV was cleared, and the Rooms whose
windows hold the sector. -/
def Dev.markPoison (d : Dev) (s kind : Nat) : Dev :=
  let s := s / 64 * 64
  let d1 := { d with poison := sins s d.poison, memx := { d.memx with cleaned := srem s d.memx.cleaned } }
  (List.range 16).foldl (fun e r => if e.inWindows r s 64 then e.raise MEM_ROOM_STAT.POISON_EV r else e) (d1.latchPoison s kind)

/-- Mark every sector that a range of poisoned data touches (R328). A DEAD channel takes no write (R333). -/
def Dev.markRange (d : Dev) (a n : Nat) : Dev :=
  ((sectorsOf a n).filter fun s => !d.deadAt s).foldl (fun (e : Dev) s => e.markPoison s 2) d

/-- Write data to memory, marked poisoned or clean (R328). -/
def Dev.store (d : Dev) (a : Nat) (bs : List (BitVec 8)) (poisoned : Bool) : Dev :=
  let d1 := d.wrBytes a bs
  if poisoned then d1.markRange a bs.length else d1

/-- Some of a request's data are poisoned. -/
def MemReq.poisoned (q : MemReq) : Bool := !q.bad.isEmpty

/-- The ranges of `n` bytes at an address that read as poisoned, sector by sector (R328): first byte and length. -/
def Dev.badRanges (d : Dev) (a n : Nat) : List (Nat × Nat) :=
  ((sectorsOf a n).filter d.badSector).map fun s => (max s a - a, min (s + 64) (a + n) - max s a)

/-- Write data of which some ranges are poisoned: every sector that such a range touches is marked (R328). -/
def Dev.storeMarked (d : Dev) (a : Nat) (bs : List (BitVec 8)) (bad : List (Nat × Nat)) : Dev :=
  bad.foldl (fun (e : Dev) p => e.markRange (a + p.1) p.2) (d.store a bs false)

/-! ## Corrections -/

/-- Add a channel to those that need a retraining (R331). -/
def MemSt.wantTraining (x : MemSt) (ch : Nat) : MemSt :=
  { x with trainWait := if x.trainWait.contains ch then x.trainWait else x.trainWait ++ [ch] }

/-- Count corrected words of a channel, and ask for a retraining when those of the last second reach CE_THRESH (R326,
R331). Log: 164 (DEDUCED). -/
def Dev.corrected (d : Dev) (ch n : Nat) : Dev :=
  if n = 0 then d else
  let d1 := d.count MEM_CE_CNT ch n
  let recent := ((tget (fun _ => []) d1.memx.ceNow ch).filter fun p => decide (d1.now < p.1 + 1000000000)) ++ [(d1.now, n)]
  let x := d1.memx
  if d1.get MEM_RT_CTL.CE_THRESH 0 ≤ (recent.map fun p => p.2).sum then
    { d1 with memx := ({ x with ceNow := tset (fun _ => []) x.ceNow ch [] }).wantTraining ch }
  else { d1 with memx := { x with ceNow := tset (fun _ => []) x.ceNow ch recent } }

/-- An uncorrectable sector is counted and marked (R326). Log: 87 (DEDUCED). -/
def Dev.uncorrectable (d : Dev) (ch sector kind : Nat) : Dev := (d.count MEM_UE_CNT ch 1).markPoison sector kind

/-- What the controllers find in the sectors of a read (R326): corrected words by channel, uncorrectable sectors with their
kind. A sector that is poisoned already, or that no channel serves, has nothing to be found. -/
def Dev.meets (d : Dev) (ce ue : List (Nat × Nat)) : Dev :=
  let d1 := (ce.filter fun p => decide (p.1 < 448) && !d.memx.dead.contains p.1).foldl (fun (e : Dev) p => e.corrected p.1 p.2) d
  ue.foldl (fun (e : Dev) p =>
    match e.homeOf p.1 with
    | some ch => if e.badSector (p.1 / 64 * 64) then e else e.uncorrectable ch p.1 p.2
    | none => e) d1

/-! ## Tokens and holds -/

/-- The balance lets a request of a Room issue (R322). -/
def Dev.tokensFor (d : Dev) (room : Option Nat) (a : Nat) : Bool :=
  match room with
  | some r => decide (0 < d.bal (2 * r + tierOf a))
  | none => true

/-- Reads of a Room's image wait for tokens of the fast tier (R119, R322). Log: 161 (DEDUCED). -/
def Dev.readsWait (d : Dev) (k : Nat) : Bool := k % 2 == 0 && (d.room (k / 2)).reads != 0 && decide (d.bal k ≤ 0)

/-- A request of a Room waits for tokens of a tier (R322). -/
def Dev.tokensWanted (d : Dev) (k : Nat) : Bool :=
  (d.memx.reqs.any fun q => q.phase == .tokens && q.room == some (k / 2) && tierOf q.addr == k % 2)
    || (d.memx.dues.any fun x => x.room == k / 2 && decide (0 < if k % 2 = 0 then x.ft else x.ct))
    || d.readsWait k

/-- Show in MEM_REG_BUDGET.HELD of a regulator whether a request waits for its tokens (R322). -/
def Dev.showHeld (d : Dev) (k : Nat) : Dev := d.set MEM_REG_BUDGET.HELD k (bit (d.tokensWanted k))

/-- A channel that serves one of the ranges retrains (R332, R344). -/
def Dev.training (d : Dev) (ranges : List (Nat × Nat)) : Bool :=
  !d.memx.prior.isEmpty && ranges.any fun p => (sectorsOf p.1 p.2).any fun s =>
    (d.homeOf s).any fun ch => d.get MEM_CHAN_STATE.STATE ch == 1

/-- A single request of a Room that its requester holds: it waits for tokens, with HELD set, or for a channel (R322, R332). -/
def Dev.requestWaits (d : Dev) (room : Option Nat) (a n : Nat) : Bool := !d.tokensFor room a || d.training [(a, n)]

/-- HELD of the regulator that a request waits on (R322). -/
def Dev.heldAt (d : Dev) (room : Option Nat) (a : Nat) : Dev :=
  match room with
  | some r => if d.tokensFor room a then d else d.set MEM_REG_BUDGET.HELD (2 * r + tierOf a) 1
  | none => d

/-- A single request that its requester has not had to hold is charged (R322). -/
def Dev.payOne (d : Dev) (room : Option Nat) (write : Bool) (a n : Nat) : Dev :=
  let d1 := d.charge room a (chargeOf write a n)
  match room with
  | some r => d1.showHeld (2 * r + tierOf a)
  | none => d1

/-- The bytes that accesses (write, address, length) charge to a tier (R322). -/
def chargesOf (tier : Nat) (acc : List (Bool × Nat × Nat)) : Nat :=
  ((acc.filter fun p => tierOf p.2.1 == tier).map fun p => chargeOf p.1 p.2.1 p.2.2).sum

/-- Pay what is left of a due while the regulator's balance is above 0, 64 bytes at a time (R322): the state and what is left
then. -/
def Dev.payFrom (d : Dev) (k left : Nat) : Dev × Nat :=
  let n := min left (64 * (((d.bal k).toNat + 639) / 640))
  if n = 0 then (d, left) else (d.setBal k (d.bal k - 10 * (n : Int)), left - n)

/-- A piece of work makes its accesses (write, address, length): it waits while a channel that they need retrains, and issues
them as its Room's balances allow (R322, R332). Answers whether all of them have been made. Log: 165 (DEDUCED). -/
def Dev.gate (d : Dev) (p : Payer) (r : Nat) (acc : List (Bool × Nat × Nat)) : Dev × Bool :=
  let due := (d.memx.dues.find? fun x => x.payer == p).getD (⟨p, r, chargesOf 0 acc, chargesOf 1 acc⟩ : Due)
  let others := d.memx.dues.filter fun x => x.payer != p
  let d1 := d.payFrom (2 * r) due.ft
  let d2 := d1.1.payFrom (2 * r + 1) due.ct
  let done := d1.2 == 0 && d2.2 == 0 && !d.training (acc.map fun x => x.2)
  let d3 := { d2.1 with memx := { d2.1.memx with dues := if done then others else others ++ [(⟨p, r, d1.2, d2.2⟩ : Due)] } }
  ((d3.showHeld (2 * r)).showHeld (2 * r + 1), done)

/-- A piece of work that will make no more accesses forgets what it had still to pay. -/
def Dev.forgive (d : Dev) (p : Payer) : Dev :=
  match d.memx.dues.find? fun x => x.payer == p with
  | none => d
  | some x =>
    let d1 := { d with memx := { d.memx with dues := d.memx.dues.filter fun y => y.payer != p } }
    (d1.showHeld (2 * x.room)).showHeld (2 * x.room + 1)

/-- A Room's work forgets what it had still to pay (R111). -/
def Dev.dropDues (d : Dev) (r : Nat) : Dev :=
  let d1 := { d with memx := { d.memx with dues := d.memx.dues.filter fun x => x.room != r } }
  (d1.showHeld (2 * r)).showHeld (2 * r + 1)

end Sys2Proof.Machine
end

