-- ==== Sys2Proof/Machine/Loader.lean ====
section
/-! DEFINITION. The configuration commands: loading, cancelling and requesting an unload of a Room, the variant switch and
the standby preload (Flaram images and partial reconfiguration). -/

namespace Sys2Proof.Machine

/-- A meaning that always answers a next state, changing the device alone. Log: 2 (DESIGN CHOICE). -/
def State.onDev (s : State) (f : Dev → Dev) : Host.Outcome State Fault Refusal := .next { s with dev := f s.dev }

/-- What the register window keeps for a function (R9, R10). -/
def State.fnSt (s : State) (fn : Nat) : FnState := tget (fun _ => FnState.init) s.fns fn

/-- Replace it. -/
def State.setFn (s : State) (fn : Nat) (x : FnState) : State := { s with fns := tset (fun _ => FnState.init) s.fns fn x }

/-- A host write that a row of its own names, to a register of the window: it ends the function's snapshot and discards its held
low word (R9, R10), and has its effect where the access is served. -/
def State.onHost (s : State) (fn : Nat) (r : RegDesc) (f : Dev → Dev) : Host.Outcome State Fault Refusal :=
  .next { s with
    fns := if s.dev.window fn then tset (fun _ => FnState.init) s.fns fn FnState.init else s.fns
    dev := if s.dev.windowServed fn r.base then f s.dev else s.dev }

/-- A write through the doorbell window, which touches neither (R9, R10). Log: 28 (DEDUCED). -/
def State.onDoor (s : State) (fn : Nat) (f : Dev → Dev) : Host.Outcome State Fault Refusal :=
  s.onDev fun d => if d.windowServed fn QUE_TAIL.base then f d else d

/-- A meaning for unit `k` of `n`: a command that names no unit has no effect. Log: 3 (DESIGN CHOICE). -/
def State.onUnit (s : State) (n k : Nat) (f : Dev → Dev) : Host.Outcome State Fault Refusal :=
  s.onDev fun d => if k < n then f d else d

/-- A host write for unit `k` of `n`. Log: 3 (DESIGN CHOICE). -/
def State.onHostUnit (s : State) (fn : Nat) (r : RegDesc) (n k : Nat) (f : Dev → Dev) : Host.Outcome State Fault Refusal :=
  s.onHost fn r fun d => if k < n then f d else d

/-- The Room in which a request of function `fn` for Room `r` is reported (R103): the function's own for a foreign one.
Log: 45 (DEDUCED). -/
def reportRoom (fn r : Nat) : Nat := if fn = 0 then r else fn - 1

/-- The function may act for the Room (R103). Log: 12 (DEDUCED). -/
def mayAct (fn r : Nat) : Bool := fn == 0 || fn == r + 1

/-- Bind the queues of an image to a Room at their levels (R95), or unbind them. -/
def Dev.bindQueues (d : Dev) (r : Nat) (qs : List (Nat × Nat)) : Dev :=
  qs.foldl (fun e p => ((e.set QUE_CTL.LEVEL p.1 p.2).set QUE_CTL.ROOM p.1 r).set QUE_CTL.BOUND p.1 1) d

def Dev.unbindQueues (d : Dev) (qs : List Nat) : Dev :=
  qs.foldl (fun e q => ((e.set QUE_CTL.BOUND q 0).set QUE_CTL.ROOM q 0).set QUE_CTL.LEVEL q 0) d

/-- Write zero to both planes of every Spindle of a Room. -/
def Dev.zeroPlanes (d : Dev) (r : Nat) : Dev :=
  (d.roomSpindles r).foldl (fun e i => (e.zero (deskBase i + offActive) planeBytes).zero (deskBase i + offStandby) planeBytes) d

/-- End a load that failed a check or was cancelled (R105, R106): everything claimed is released, written planes are
zeroed, the Room returns to EMPTY; CFG_SAVE_REQ keeps its value. Log: 53 (DEDUCED). -/
def Dev.failLoad (d : Dev) (r code : Nat) : Dev :=
  let x := d.room r
  let d1 := (d.zeroPlanes r).setRoom r RoomSt.init
  let d2 := ((d1.set ROOM_STATUS.STATE r stEmpty).set ROOM_STATUS.SLOTS r 0).set ROOM_STATUS.HOLD_CAUSE r 0
  ((d2.xdMove false x.xd).showLesson r).endOp r code

/-- What step 2 claims (R82, R105): Benches and regulator shares. -/
def Dev.claimStep (d : Dev) (r a size : Nat) : Dev :=
  let b := a + (d.oneSection a 1).1
  let ps := d.profilesOf b
  d.setRoom r { RoomSt.init with
    imgAddr := a
    imgSize := size
    nVariants := (d.rdByte (a + 0x12)).toNat
    initVariant := (d.rdByte (a + 0x13)).toNat
    benches := d.benchMap b
    profiles := ps
    ftClaim := maxList (ps.map fun p => p.1)
    ctClaim := maxList (ps.map fun p => p.2)
    reads := size }

/-- What step 5 sets (R91): S_max and CFG_SAVE_REQ, with the slots of the save area (R126). -/
def Dev.saveStep (d : Dev) (r a : Nat) : Dev :=
  let ls := d.roomLogicals r
  let m := d.imageSMax a ls
  let d1 := (d.setRoom r { d.room r with sMax := m }).set CFG_SAVE_REQ.UNITS r (saveUnits ls.length m)
  d1.set ROOM_STATUS.SLOTS r (d1.slotsOf r)

/-- The Yarn entries of each variant of an image. -/
def Dev.variantYarns (d : Dev) (r a : Nat) : List (List Nat) :=
  (List.range (d.room r).nVariants).map fun v =>
    match (d.sections a).find? fun s => s.typ == 4 && s.variant == v with
    | some s => d.yarnList (a + s.off)
    | none => []

/-- Step 6 with its codes ROUTE and CROSS_DIE_FULL. -/
def Dev.layStep (d : Dev) (r : Nat) : Dev × Nat :=
  match d.layAll r ((d.variantYarns r (d.room r).imgAddr).map fun ys => ys.map fun y => (y, none)) with
  | .ok e => (e, 0)
  | .error (c, _) => (d, c)

/-- The variant that stands by at the start (Table 03-5, step 7): that of the first Lesson after INIT_VARIANT's in Round
order that differs from it; and whether a HOST_SEL Lesson was met on the way. -/
def RoomSt.firstStandby (x : RoomSt) (sel : Nat) : Option Nat × Bool :=
  let k := ((findIdx? (fun l => !l.hostSel && l.variant == x.initVariant) x.lessons 0).map fun p => p.1).getD 0
  let v := fun (l : Lesson) => if l.hostSel then sel else l.variant
  (((x.after k).find? fun l => v l != x.initVariant).map v, (upToOther sel x.initVariant (x.after k)).any fun l => l.hostSel)

/-- Step 7 (Table 03-5): planes written, queues bound, the Timetable section taken over. -/
def Dev.planeStep (d : Dev) (r : Nat) : Dev :=
  let x := d.room r
  let a := x.imgAddr
  let tt := d.oneSection a 6
  let qs := d.queueList (a + (d.oneSection a 5).1)
  let x1 := { x with lessons := d.lessonList (a + tt.1), queues := qs.map fun p => p.1 }
  let d1 := ((d.setRoom r x1).writePlanes r x.initVariant offActive).set CFG_STATUS.ACTIVE_VAR r x.initVariant
  let sel := d.selVariant r
  let first := x1.firstStandby sel
  let d2 := match first.1 with
    | some v => ((d1.writePlanes r v offStandby).set CFG_STATUS.STANDBY_VAR r v).set CFG_STATUS.STANDBY_VALID r 1
    | none => d1.set CFG_STATUS.STANDBY_VALID r 0
  let d3 := d2.setRoom r { d2.room r with latched := if first.2 then some sel else x.latched }
  (d3.writeBanks r).bindQueues r qs

/-- Step 8: the Room goes to LOADED (R97, R105, R108, Table 03-13). -/
def Dev.loadedStep (d : Dev) (r : Nat) : Dev :=
  let x := d.room r
  let a := x.imgAddr
  let b := a + (d.oneSection a 1).1
  let others := (List.range 16).any fun q => q != r && (d.roomState q == stLoaded || d.roomState q == stHeld)
  let d1 := if others then d else d.wr TT_ROUND 0 (d.rdLe (a + (d.oneSection a 6).1) 4)
  let d2 := (List.range 12).foldl (fun e k => e.wr CFG_DIGEST (12 * r + k) (d.rdLe (a + 0x40 + 4 * k) 4)) d1
  let d3 := (d.roomSpindles r).foldl (fun e i => (e.set SPX_STATE.BOUND i 1).set SPX_STATE.ROOM i r) d2
  let d4 := ((d3.set STR_SPLIT.RD r (d.rdByte (b + 0x31)).toNat).set STR_SPLIT.WR r (d.rdByte (b + 0x32)).toNat).set
    STR_SPLIT.RM r (d.rdByte (b + 0x33)).toNat
  let d5 := (d4.set TT_FREE.FREE 0 (d4.get TT_FREE.FREE 0 - x.lessons.length)).set ROOM_STATUS.STATE r stLoaded
  ((d5.set ROOM_STATUS.HOLD_CAUSE r 0).showLesson r).endOp r 0

/-- The reads of a Room's image issue, sector by sector, while the balance of its fast-tier regulator is above 0 (R119,
R322); what is left waits for tokens. Log: 161 (DEDUCED). -/
def Dev.issueReads (d : Dev) (r : Nat) : Dev :=
  let x := d.room r
  let b := d.bal (2 * r)
  if x.reads = 0 then d
  else
    let n := min x.reads (64 * ((b.toNat + 639) / 640))
    let d1 := (d.setBal (2 * r) (b - 10 * (n : Int))).setRoom r { x with reads := x.reads - n }
    d1.showHeld (2 * r)

/-- The reads of a Room's image have not all ended: some wait for tokens (R119, R322), or a channel that holds a part of the image retrains
(R332). Log: 161 (DEDUCED). -/
def Dev.readsGoOn (d : Dev) (r : Nat) : Bool := (d.room r).reads != 0 || d.training [((d.room r).imgAddr, (d.room r).imgSize)]

/-- The bytes that step 2 reads: header and section table, then the ROOM section where those pass (Table 03-5).
Log: 161 (DEDUCED). -/
def Dev.step2Reads (d : Dev) (a size : Nat) : Nat := if firstCode [d.headerCode a, d.tableCode a size] = 0 then 1536 else 1280

/-- The bytes that step 5 reads: all but what step 2 read (R76, R78, Table 03-5). Log: 161 (DEDUCED). -/
def step5Reads (size : Nat) : Nat := size - 1536

/-- The bytes that step 7 reads: the planes of INIT_VARIANT and of the variant that stands by (Table 03-5).
Log: 161 (DEDUCED). -/
def Dev.step7Reads (d : Dev) (r : Nat) : Nat :=
  let x := d.room r
  let x1 := { x with lessons := d.lessonList (x.imgAddr + (d.oneSection x.imgAddr 6).1) }
  d.planeReads r x.initVariant + (match (x1.firstStandby (d.selVariant r)).1 with
    | some v => d.planeReads r v
    | none => 0)

/-- Set what the loader's present step has still to read. -/
def Dev.toRead (d : Dev) (r n : Nat) : Dev := d.setRoom r { d.room r with reads := n }

/-- The end of a load's present step (R105), once its reads have issued (R119): its checks, then its effect and the next
step, or the failure. Step 2 reads before the Room has a claim, and waits for no tokens. A load that step 5 refuses leaves
CFG_SAVE_REQ as it was, unless only the save area is too small for it. Log: 53 (DEDUCED); 161 (DEDUCED). -/
def Dev.loadStep (d0 : Dev) (o : LoadOp) : Dev :=
  let r := o.room
  let d := d0.issueReads r
  let x := d.room r
  let go := fun (e : Dev) => { e with que := { e.que with op := some { o with step := o.step + 1 } } }
  if o.cancel then d0.failLoad r 0x0161
  else if d.readsGoOn r then d
  else match o.step with
  | 2 =>
    let a := x.imgAddr
    let size := x.imgSize
    let c := d.step2Code r a size
    let e := d.setBal (2 * r) (d.bal (2 * r) - 10 * (d.step2Reads a size : Int))
    if c = 0 then go (e.claimStep r a size) else e.failLoad r c
  | 3 => let c := d.step3Code r x.imgAddr x.imgSize; if c = 0 then go d else d.failLoad r c
  | 4 => let c := d.step4Code x.imgAddr x.imgSize; if c = 0 then go (d.toRead r (step5Reads x.imgSize)) else d.failLoad r c
  | 5 =>
    let e := d.saveStep r x.imgAddr
    let c := d.step5Code r x.imgAddr x.imgSize (d.roomLogicals r)
    if c = 0 then go e else if c = 0x0123 then e.failLoad r c else d.failLoad r c
  | 6 => let p := d.layStep r; if p.2 = 0 then go (p.1.toRead r (p.1.step7Reads r)) else d.failLoad r p.2
  | 7 => go (d.planeStep r)
  | _ => d.loadedStep r

/-- An operation of the loader is in progress, or a substitution waits whose turn comes first (R104). Log: 174 (DEDUCED). -/
def Dev.busy (d : Dev) : Bool := d.que.op.isSome || !d.flt.queue.isEmpty

/-- Accept an operation for a Room (R104): BUSY, GO and OP. -/
def Dev.acceptOp (d : Dev) (o : LoadOp) (op : Nat) : Dev :=
  let d1 := ((d.set CFG_LOAD.GO o.room 1).set CFG_LOAD.OP o.room op).set CFG_STATUS.BUSY o.room 1
  { d1 with que := { d1.que with op := some o } }

/-- The code of step 1 for a LOAD request (R103, R104, Table 03-5); 0 when it is accepted. -/
def Dev.loadReqCode (d : Dev) (fn r : Nat) : Nat :=
  firstCode [need (!d.busy) 0x0101, need (d.roomState r == stEmpty) 0x0102, need (mayAct fn r) 0x0103, d.rangeCode r]

/-- CFG_LOAD with OP = LOAD (R103 to R105): address and size are latched as the request is accepted, and the sector that step 1 read
is charged (R119). Log: 161 (DEDUCED). Log: 175 (DEDUCED). -/
def Dev.cfgLoad (d : Dev) (fn r : Nat) : Dev :=
  let c := d.loadReqCode fn r
  if c = 0 then
    let d1 := ((d.acceptOp ⟨.load, r, 2, false, 0⟩ 0).set ROOM_STATUS.STATE r stLoading).showLesson r
    let d2 := d1.setRoom r { d1.room r with
      imgAddr := d.get64 CFG_IMG_ADDR_LO CFG_IMG_ADDR_HI r
      imgSize := d.get CFG_IMG_SIZE.SIZE r * 4096
      imgKeys := d.rd CFG_KEY_STAT 0 }
    (d2.setBal (2 * r) (-640)).setBal (2 * r + 1) 0
  else d.refuseCfg (reportRoom fn r) c

/-- CFG_LOAD with OP = CANCEL (R106). A load that has reached step 8 stands (R121). -/
def Dev.cfgCancel (d : Dev) (fn r : Nat) : Dev :=
  if !mayAct fn r then d.refuseCfg (reportRoom fn r) 0x0103 else
  let d1 := d.set CFG_LOAD.OP r 3
  match d.que.op with
  | some o =>
    if o.kind = .load ∧ o.room = r then if o.step = 8 then d1 else { d1 with que := { d1.que with op := some { o with cancel := true } } }
    else d.refuseCfg r 0x0102
  | none => d.refuseCfg r 0x0102

/-- The code of an unload request (R104, Table 03-6); 0 when it is accepted. -/
def Dev.unloadReqCode (d : Dev) (fn r : Nat) : Nat :=
  firstCode [need (!d.busy) 0x0101, need (d.roomState r != stEmpty && d.roomState r != stLoading) 0x0102,
    need (mayAct fn r) 0x0103]

/-- A plane switch is under way: the Room has stopped for it, and its variant stands by (Table 03-7). -/
def Dev.planeGoing (d : Dev) (r : Nat) : Bool :=
  match (d.room r).switchTo with
  | some v => (d.running r).isNone && (d.room r).switch.isNone && d.get CFG_STATUS.STANDBY_VALID r == 1
      && d.get CFG_STATUS.STANDBY_VAR r == v && d.roomState r == stLoaded
  | none => false

/-- Begin an unload (R110, R121, R151): a drain lets the present Lesson go on to its end, an abort stops the Spindles at
the next tile boundary and abandons a switch; a preload is abandoned, and with it a plane switch that waits for it. A
drain of a HELD Room acts as an abort, and one in slack has no Lesson to finish. -/
def Dev.beginUnload (d : Dev) (r : Nat) (drain : Bool) : Dev :=
  let drain' := drain && d.roomState r != stHeld && (d.lesson r).isSome
  let d1 := d.acceptOp ⟨.unload, r, if drain' then 0 else 1, false, 0⟩ (if drain then 1 else 2)
  let x0 := d1.room r
  let x := { x0 with preload := none, reads := 0, switchTo := if d.planeGoing r then x0.switchTo else none }
  if drain' then d1.setRoom r x
  else ((d1.setRoom r { x with unloadReq := true, switch := none, before := none }).set ROOM_STATUS.SWITCHING r 0).requestStop r

/-- CFG_LOAD with OP = UNLOAD_DRAIN or UNLOAD_ABORT (R110). -/
def Dev.cfgUnload (d : Dev) (fn r : Nat) (drain : Bool) : Dev :=
  let c := d.unloadReqCode fn r
  if c = 0 then d.beginUnload r drain else d.refuseCfg (reportRoom fn r) c

/-- GO with a reserved OP (Table 03-10). -/
def Dev.cfgReserved (d : Dev) (fn r : Nat) : Dev :=
  d.refuseCfg (reportRoom fn r) (firstCode [need (!d.busy) 0x0101, 0x0102])

def execCfgLoad (fn r : Nat) (s : State) := s.onHostUnit fn CFG_LOAD 16 r fun d => d.cfgLoad fn r

def execLoadStepDone (s : State) := s.onDev fun d =>
  match d.que.op with
  | some o => if o.kind = .load then d.loadStep o else d
  | none => d

def execCfgCancel (fn r : Nat) (s : State) := s.onHostUnit fn CFG_LOAD 16 r fun d => d.cfgCancel fn r

def execCancelPoint (s : State) := s.onDev fun d =>
  match d.que.op with
  | some o => if o.kind = .load ∧ o.cancel then d.failLoad o.room 0x0161 else d
  | none => d

def execUnloadDrain (fn r : Nat) (s : State) := s.onHostUnit fn CFG_LOAD 16 r fun d => d.cfgUnload fn r true

def execUnloadAbort (fn r : Nat) (s : State) := s.onHostUnit fn CFG_LOAD 16 r fun d => d.cfgUnload fn r false

def execCfgLoadReservedOp (fn r op : Nat) (s : State) := s.onHostUnit fn CFG_LOAD 16 r fun d =>
  if op < 4 then d else (d.set CFG_LOAD.OP r (if mayAct fn r then op else d.get CFG_LOAD.OP r)).cfgReserved fn r

/-! ## Preload and drain -/

/-- A Room goes to HELD by the plane machinery (R116, R117): the code and FAIL in CFG_STATUS, a log record. -/
def Dev.planeHold (d : Dev) (r cause code : Nat) : Dev :=
  (((d.hold r cause).set CFG_STATUS.CODE r code).raise CFG_STATUS.FAIL r).log 0x0E 0 8 (some r) 0 r 0xFFFF 0 code

/-- The checks of a preload (R115): every directory entry read, its frame's CRC, and poison; 0 when they pass. -/
def Dev.preloadCode (d : Dev) (r v : Nat) : Nat :=
  let ls := d.roomLogicals r
  let img := (d.room r).imgAddr
  let parts := [2, 3].map fun t => (d.roomSection r t v).getD (0, 0)
  let ok := parts.all fun s => (ls.zip (List.range ls.length)).all fun p =>
    let e := img + s.1 + 16 * p.2
    let off := d.rdLe (e + 4) 4
    let len := d.rdLe (e + 8) 4
    d.rdLe e 2 == p.1 && d.isZero (e + 2) 2 && decide (off + len ≤ s.2) && decide (len ≤ 49152)
      && crc32 (d.rdBytes (img + s.1 + off) len) == d.rdLe (e + 12) 4
  let clean := parts.all fun s => (ls.zip (List.range ls.length)).all fun p =>
    let e := img + s.1 + 16 * p.2
    !d.poisoned e 16 && !d.poisoned (img + s.1 + d.rdLe (e + 4) 4) (d.rdLe (e + 8) 4)
  firstCode [need ok 0x0144, need clean 0x0145]

/-- The plane switch that waits cannot take place, its preload having failed: the Room goes to HELD (R117). -/
def Dev.planeFails (d : Dev) (r : Nat) : Dev :=
  let x := d.room r
  ((d.setRoom r { x with switchTo := none, lateDone := false, switch := none, before := none }).set ROOM_STATUS.SWITCHING r 0).planeHold r 4
    x.preloadFail

/-- The variant that a plane switch waits for has failed its preload (R117). -/
def RoomSt.switchFails (x : RoomSt) : Bool := x.preloadFail != 0 && x.switchTo == some x.failVar

/-- A standby preload ends (R115 to R117), once its reads have issued (R119). A failure takes effect at once where the boundary
that needs the variant has come, unless a save is in progress, which ends first. Log: 161 (DEDUCED). Log: 176 (DEDUCED). -/
def Dev.preloadDone (d0 : Dev) (r : Nat) : Dev :=
  match (d0.room r).preload with
  | none => d0
  | some v =>
    let d := d0.issueReads r
    if d.readsGoOn r then d else
    let c := d.preloadCode r v
    let x := { d.room r with preload := none, preloadFail := c, failVar := v }
    let d1 := d.setRoom r x
    let saves := match x.switch with | some w => w.phase != .restored | none => false
    if c = 0 then
      (((d1.writePlanes r v offStandby).set CFG_STATUS.STANDBY_VAR r v).set CFG_STATUS.STANDBY_VALID r 1).writeBanks r
    else if x.switchFails && !saves then d1.planeFails r
    else d1

def execPreloadDone (r : Nat) (s : State) := s.onUnit 16 r fun d => d.preloadDone r

/-- A Lesson-boundary switch has waited 100 µs for the Yarns to drain (R116). -/
def Dev.drainTimeout (d : Dev) (r : Nat) : Dev :=
  if (d.room r).switchTo.isSome && !d.yarnsEmpty r then
    (d.setRoom r { d.room r with switchTo := none, lateDone := false }).planeHold r 5 0x0150
  else d

def execDrainTimeout (r : Nat) (s : State) := s.onUnit 16 r fun d => d.drainTimeout r

end Sys2Proof.Machine
end

