-- ==== Sys2Proof/Machine/Memory.lean ====
section
/-! DEFINITION. The memory tiers: windows, regulators, requests, protection and poison, retraining, retirement and
migration (Memory tiers). -/

namespace Sys2Proof.Machine

/-! ## Regulators -/

/-- SHARE of a Room in a tier, with the profile in force (R321). -/
def Dev.share (d : Dev) (r tier : Nat) : Nat × Nat :=
  let x := d.room r
  let pick := fun (p : Nat × Nat) => if tier = 0 then p.1 else p.2
  let st := d.roomState r
  if st = stEmpty then (1, 0)
  else if st = stLoading then (if tier = 0 then x.ftClaim else x.ctClaim, 0)
  else
    let k := if st = stUnloading then 0 else match d.lesson r with
      | some l => l.profile
      | none => 0
    (pick (nth (0, 0) x.profiles k), k)

/-- Tenths of a byte per unit of SHARE and microsecond (Table 11-1, R321). -/
def perShare (tier : Nat) : Nat := if tier = 0 then 393216 else 18432

/-- One regulator's refill (R321), its register fields, the count of a period in which a request waited, and the end of a wait
that the requester keeps (R322). -/
def Dev.refillOne (d : Dev) (k : Nat) : Dev :=
  let p := d.share (k / 2) (k % 2)
  let rate : Int := (p.1 * perShare (k % 2) : Nat)
  let d1 := if d.tokensWanted k || d.get MEM_REG_BUDGET.HELD k == 1 then d.count MEM_REG_HOLD_CNT k 1 else d
  let d2 := ((d1.setBal k (min (d1.bal k + rate) (4 * rate))).set MEM_REG_BUDGET.SHARE k p.1).set MEM_REG_BUDGET.PROFILE k p.2
  if 0 < d2.bal k then d2.showHeld k else d2

/-! ## Requests -/

/-- Replace a request. -/
def Dev.setReq (d : Dev) (q : MemReq) : Dev :=
  { d with memx := { d.memx with reqs := d.memx.reqs.map fun x => if x.id == q.id then q else x } }

/-- A request by its number. -/
def Dev.req? (d : Dev) (id : Nat) : Option MemReq := d.memx.reqs.find? fun q => q.id == id

/-- The code with which a request has ended, none while it has not. Log: 61 (DEDUCED). -/
def Dev.endCode (d : Dev) (id : Nat) : Option Nat :=
  match d.req? id with
  | some q =>
    match q.phase with
    | .ended c => some c
    | _ => none
  | none => none

/-- Forget a request. -/
def Dev.dropReq (d : Dev) (id : Nat) : Dev :=
  { d with memx := { d.memx with reqs := d.memx.reqs.filter fun q => q.id != id } }

/-- The requests of the same Room that arrived at a request's channel before it and have not ended (R324). -/
def Dev.before (d : Dev) (q : MemReq) : List MemReq :=
  d.memx.reqs.filter fun x => x.room == q.room && d.homeOf x.addr == d.homeOf q.addr && x.arr != 0 && decide (x.arr < q.arr)
    && (x.phase == .held || x.phase == .queued || x.phase == .flight)

/-- Requests in the order in which they arrived. -/
def byArrival : List MemReq → List MemReq
  | [] => []
  | q :: t => let l := byArrival t; (l.filter fun x => decide (x.arr < q.arr)) ++ q :: (l.filter fun x => !decide (x.arr < q.arr))

/-- A write is performed, or discarded by a DEAD channel with 0x0411 (R333, R342). -/
def Dev.performWrite (d : Dev) (q : MemReq) : Dev :=
  if d.deadRange q.addr q.len then d.setReq { q with phase := .ended 0x0411 }
  else (d.storeMarked q.addr q.data q.bad).setReq { q with phase := .ended 0 }

/-- A request that its channel has taken is served (R324): a read flies; a write is performed once no earlier request of its Room
waits there. Log: 166 (DEDUCED). -/
def Dev.serve (d : Dev) (q : MemReq) : Dev :=
  if !q.write then d.setReq { q with phase := .flight }
  else if (d.before q).isEmpty then d.performWrite q
  else d.setReq { q with phase := .queued }

/-- An issued request reaches its channel (R332): it is held while the channel retrains, and returned from a full hold
queue; else it takes its place in the order of arrival. -/
def Dev.atChannel (d : Dev) (q : MemReq) : Dev :=
  let ch := (d.homeOf q.addr).getD 0
  let x := d.memx
  let q1 := if q.arr = 0 then { q with arr := x.arrivals + 1 } else q
  let d1 := if q.arr = 0 then { d with memx := { x with arrivals := x.arrivals + 1 } } else d
  if d.get MEM_CHAN_STATE.STATE ch = 1 then
    if (x.reqs.filter fun y => y.phase == .held && d.homeOf y.addr == some ch).length < 4096 then d1.setReq { q1 with phase := .held }
    else d.setReq { q with phase := .retry }
  else d1.serve q1

/-- The hold queue of a request's channel is full (R332). -/
def Dev.holdFull (d : Dev) (q : MemReq) : Bool :=
  let ch := (d.homeOf q.addr).getD 0
  d.get MEM_CHAN_STATE.STATE ch == 1 && decide (4096 ≤ (d.memx.reqs.filter fun x => x.phase == .held && d.homeOf x.addr == some ch).length)

/-- A request is checked and issued when its balance is positive (R317, R322); one that finds a full hold queue is returned
and carries no charge (R332). An earlier request of the Room and tier that waits keeps its turn. -/
def Dev.issueReq (d : Dev) (q : MemReq) : Dev :=
  let c := d.accessCode q.room q.addr q.len
  if c ≠ 0 then (d.winEv q.room).setReq { q with phase := .ended c }
  else if d.holdFull q then d.setReq { q with phase := .retry }
  else
    let ahead := d.memx.reqs.any fun x => x.phase == .tokens && decide (x.id < q.id) && x.room == q.room && tierOf x.addr == tierOf q.addr
    if ahead || !d.tokensFor q.room q.addr then
      let d1 := d.setReq { q with phase := .tokens }
      match q.room with
      | some r => d1.set MEM_REG_BUDGET.HELD (2 * r + tierOf q.addr) 1
      | none => d1
    else
      let d1 := (d.charge q.room q.addr (chargeOf q.write q.addr q.len)).send (.memReq q.write q.addr q.len)
      let d2 := d1.atChannel q
      match q.room with
      | some r => d2.showHeld (2 * r + tierOf q.addr)
      | none => d2

/-- Make a request and issue it if it may issue at once; answers its number. -/
def Dev.request (d : Dev) (owner : Owner) (room : Option Nat) (write : Bool) (a n : Nat) (data : List (BitVec 8))
    (bad : List (Nat × Nat)) : Dev × Nat :=
  let id := d.memx.nextReq
  let q : MemReq := ⟨id, owner, room, write, a, n, data, bad, .tokens, 0⟩
  let d1 := { d with memx := { d.memx with nextReq := id + 1, reqs := d.memx.reqs ++ [q] } }
  (d1.issueReq q, id)

/-- Serve the first requests that wait at a channel behind one that has ended, in order (R324). -/
def Dev.serveNext (d : Dev) (q : MemReq) : Dev :=
  (byArrival (d.memx.reqs.filter fun x => x.phase == .queued && x.room == q.room && d.homeOf x.addr == d.homeOf q.addr)).foldl
    (fun (e : Dev) x => e.serve x) d

/-! ## Corrections and retraining -/

/-- Channels of a tier. -/
def sameTier (a b : Nat) : Bool := decide (a < 384) == decide (b < 384)

/-- Some channel of the tier retrains. -/
def Dev.tierTraining (d : Dev) (ch : Nat) : Bool :=
  d.memx.prior.any fun p => sameTier p.1 ch

/-- A read completes at its controller, in its turn (R324, R326 to R329): `ce` and `ue` are what it finds in its sectors. A
transfer that failed the link check 4 times in a row leaves the channel due a retraining and is repeated after it, or meanwhile
where the retraining has to wait (R327, R331).
Log: 87 (DEDUCED); 166 (DEDUCED). -/
def Dev.readReturn (d : Dev) (id : Nat) (link : Bool) (ce ue : List (Nat × Nat)) : Dev :=
  match d.req? id with
  | none => d
  | some q =>
    if q.phase ≠ .flight || q.write || !(d.before q).isEmpty then d else
    let ch := (d.homeOf q.addr).getD 0
    if link then
      let d1 := { d with memx := d.memx.wantTraining ch }
      if d.tierTraining ch then d1 else d1.setReq { q with phase := .held }
    else
      let d1 := d.meets (ce.filter fun p => p.1 == ch) (ue.filter fun p => (sectorsOf q.addr q.len).contains p.1)
      (d1.setReq { q with phase := .ended 0, data := d1.rdBytes q.addr q.len, bad := d1.badRanges q.addr q.len }).serveNext q

/-- A read at a controller completes (R326, R327): that of a request, or, where none is named, one of an engine that reads in
the course of its own command. `link` are channels whose transfers failed the link check 4 times in a row.
Log: 87 (DEDUCED). -/
def Dev.readEnds (d : Dev) (id : Option Nat) (link : List Nat) (ce ue : List (Nat × Nat)) : Dev :=
  match id with
  | some n => d.readReturn n (((d.req? n).bind fun q => d.homeOf q.addr).any link.contains) ce ue
  | none =>
    let d1 := { d with memx := (link.filter fun ch => decide (ch < 448)).foldl MemSt.wantTraining d.memx }
    d1.meets ce ue

/-- A channel begins retraining while the device serves requests (R331, R332); in Recess it waits for the wake (R343). -/
def Dev.retrainStart (d : Dev) (ch : Nat) : Dev :=
  let st := d.get MEM_CHAN_STATE.STATE ch
  if d.get PWR_RECESS.STATE 0 ≠ 0 || !d.memx.trainWait.contains ch || d.tierTraining ch || st = 1 || st = 3 || st = 4 then d else
  let x := d.memx
  let d1 := { d with memx := { x with trainWait := srem ch x.trainWait, ceNow := tdel x.ceNow ch, prior := x.prior ++ [(ch, st)], trains := x.trains ++ [(ch, d.now)] } }
  let d2 := ((d1.set MEM_CHAN_STATE.STATE ch 1).raise MEM_STATUS.RETRAIN_EV 0).count MEM_RETRAIN_CNT ch 1
  d2.log (if ch < 384 then 6 else 7) 1 4 none 0 ch 0xFFFF 0 0

/-- Spare extents that a retirement of a channel needs (R336). -/
def Dev.needed (d : Dev) (ch : Nat) : Nat := 2016 + d.get MEM_CHAN_STATE.HOSTED ch

/-- A list of extents per host channel is a lawful assignment for a retirement (R336, R337). -/
def Dev.assignOk (d : Dev) (ch : Nat) (l : List Nat) : Bool :=
  let need := d.needed ch
  let most := ceilDiv need (383 - d.get MEM_SPARE_STAT.RETIRED 0)
  l.length == 384 && l.foldl (· + ·) 0 == need && nth 0 l ch == 0
    && (List.range 384).all fun c => decide (nth 0 l c ≤ most) && decide (nth 0 l c + d.get MEM_CHAN_STATE.HOSTED c ≤ 32)
      && (nth 0 l c == 0 || (d.get MEM_CHAN_STATE.STATE c != 3 && d.get MEM_CHAN_STATE.STATE c != 4))

/-- A spread that takes from each channel in turn, for a choice of the controller that is not lawful.
Log: 85 (DESIGN CHOICE). -/
def Dev.spread (d : Dev) (ch : Nat) : Nat → Nat → List Nat
  | 0, _ => []
  | n + 1, left =>
    let c := 383 - n
    let most := ceilDiv (d.needed ch) (383 - d.get MEM_SPARE_STAT.RETIRED 0)
    let free := 32 - d.get MEM_CHAN_STATE.HOSTED c
    let ok := c != ch && d.get MEM_CHAN_STATE.STATE c != 3 && d.get MEM_CHAN_STATE.STATE c != 4
    let k := if ok then min left (min most free) else 0
    k :: d.spread ch n (left - k)

/-- The assignment of spare extents: the Ryusen controller's free choice within R337. Log: 85 (DESIGN CHOICE). -/
def Dev.assignment (d : Dev) (ch : Nat) : List Nat :=
  let l := Config.spareAssign ch ((List.range 384).map fun c => d.get MEM_CHAN_STATE.HOSTED c)
  if d.assignOk ch l then l else d.spread ch 384 (d.needed ch)

/-- The extents that leave a channel when it retires: its own that it still holds, in ascending order, then those it hosts, and
those that the migration in progress would bring to it (R336, R338). Log: 86 (DEDUCED). -/
def Dev.leaving (d : Dev) (ch : Nat) : List Nat :=
  ((List.range 2016).map fun e => 65536 * ch + e).filter (fun k => d.extentHome k == ch)
    ++ ((d.memx.redir.filter fun p => p.2 == ch).map fun p => p.1)
    ++ (match d.memx.mig with
      | some m => (m.todo.filter fun p => p.2 == ch).map fun p => p.1
      | none => [])

/-- The channels of an assignment, each as often as it takes an extent. -/
def hostList (l : List Nat) : List Nat := l.zipIdx.flatMap fun p => List.replicate p.1 p.2

/-- Record an assignment: hosted extents, and the pool (R336); answers where each extent that leaves goes. -/
def Dev.assign (d : Dev) (ch : Nat) : Dev × List (Nat × Nat) :=
  let l := d.assignment ch
  let need := d.needed ch
  let own := 32 - d.get MEM_CHAN_STATE.HOSTED ch
  let d1 := (List.range 384).foldl (fun e c =>
    if nth 0 l c = 0 then e else e.set MEM_CHAN_STATE.HOSTED c (e.get MEM_CHAN_STATE.HOSTED c + nth 0 l c)) d
  ((d1.set MEM_CHAN_STATE.HOSTED ch 0).set MEM_SPARE_STAT.FREE 0 (d1.get MEM_SPARE_STAT.FREE 0 - own - need),
   (d.leaving ch).zip (hostList l))

/-- A channel reaches RETIRED (R338). -/
def Dev.retired (d : Dev) (ch : Nat) : Dev :=
  ((d.set MEM_CHAN_STATE.STATE ch 3).set MEM_SPARE_STAT.RETIRED 0 (d.get MEM_SPARE_STAT.RETIRED 0 + 1)).raise MEM_STATUS.RETIRE_EV 0

/-- Redirect extents to their new channels (R338). -/
def MemSt.redirect (x : MemSt) (ps : List (Nat × Nat)) : MemSt :=
  { x with redir := ps.foldl (fun l p => tset (fun j => j / 65536) l p.1 p.2) x.redir }

/-- Extents that are redirected with nothing copied read as poison, sector by sector, until a whole-sector write (R335, R338,
R340): the sectors `keep` were written at the new place already. -/
def MemSt.spoil (x : MemSt) (ks keep : List Nat) : MemSt :=
  let lost := fun (s : Nat) => (extentKey s).any ks.contains
  { x with
    bad := x.bad ++ ks.map fun k => (k, k + 1)
    cleaned := keep.foldl (fun l s => sins s l) (x.cleaned.filter fun s => !lost s) }

/-- Tell every Room with a window in the channel's tier of poison (R340, R342). -/
def Dev.poisonRooms (d : Dev) (ch : Nat) : Dev :=
  (List.range 16).foldl (fun e r =>
    let n := if ch < 384 then (e.ftWin r).2 else (e.ctWin r).2
    if n = 0 then e else e.raise MEM_ROOM_STAT.POISON_EV r) d

/-- A channel becomes DEAD (R333, R342). -/
def Dev.kill (d : Dev) (ch : Nat) : Dev :=
  let d1 := d.set MEM_CHAN_STATE.STATE ch 4
  let d2 := { d1 with memx := { d1.memx with dead := d1.memx.dead ++ [ch] } }
  let d3 := (d2.raise MEM_STATUS.DEAD_EV 0).degrade (if ch < 384 then 1 else 2)
  let d4 := if ch < 384 then d3 else (d3.poisonRooms ch).burn (.ctChannel ch)
  d4.log (if ch < 384 then 6 else 7) 2 6 none 0 ch 0xFFFF 0 0

/-- A retirement of a fast-tier channel is due (R334): FAILING with too few spares, waiting during a migration, else
MIGRATING with its assignment (R338). A channel that migrates is retiring already. During a controller restart the retirement
waits (R528). -/
def Dev.retireChannel (d : Dev) (ch : Nat) : Dev :=
  let st := d.get MEM_CHAN_STATE.STATE ch
  let migrating := d.memx.mig.any fun m => m.chan == ch
  if 384 ≤ ch || migrating || (st ≠ 0 && st ≠ 1) || d.memx.retireQ.contains ch then d
  else if d.flt.wdogBusy then { d with memx := { d.memx with retireQ := d.memx.retireQ ++ [ch] } }
  else if d.get MEM_SPARE_STAT.FREE 0 < d.needed ch then
    let d1 := if st = 1 then
        { d with memx := { d.memx with prior := d.memx.prior.map fun p => if p.1 = ch then (ch, 5) else p } }
      else d.set MEM_CHAN_STATE.STATE ch 5
    ((d1.raise MEM_STATUS.SPARE_EV 0).degrade 1).log 6 2 6 none 0 ch 0xFFFF 0 0
  else if d.memx.mig.isSome || st = 1 then
    { d with memx := { d.memx with retireQ := d.memx.retireQ ++ [ch] } }
  else
    let p := d.assign ch
    let d1 := (p.1.set MEM_CHAN_STATE.STATE ch 2).burn (.ftChannel ch)
    let d2 := ((d1.set MEM_MIG_STAT.CHAN 0 ch).set MEM_MIG_STAT.ACTIVE 0 1).set MEM_MIG_STAT.EXT_DONE 0 0
    ({ d2 with memx := { d2.memx with mig := some ⟨ch, p.2.length, p.2⟩, both := [] } }).log 6 2 5 none 0 ch 0xFFFF 0 0

/-- Begin the next retirement that waits and can (R338): the list is gone through in order. -/
def Dev.nextRetirement (d : Dev) : Dev :=
  d.memx.retireQ.foldl Dev.retireChannel { d with memx := { d.memx with retireQ := [] } }

/-- The requests that a channel's hold queue keeps, in arrival order (R332). -/
def Dev.heldBy (d : Dev) (ch : Nat) : List MemReq :=
  byArrival (d.memx.reqs.filter fun q => q.phase == .held && d.homeOf q.addr == some ch)

/-- Held requests go on in arrival order (R332), each to where its extent lies now (R333). -/
def Dev.release (d : Dev) (l : List MemReq) : Dev := l.foldl (fun (e : Dev) q => e.atChannel q) d

/-- Retrainings of a channel within WIN_MS of now (R334). -/
def Dev.trainCount (d : Dev) (ch : Nat) : Nat :=
  (d.memx.trains.filter fun t => t.1 == ch && decide (d.now ≤ t.2 + 1000000 * d.get MEM_RT_CTL.WIN_MS 0)).length

/-- The device physical address at which an extent of the fast tier begins (R314). -/
def extentAddr (k : Nat) : Nat := (k % 65536 * 1024 * 384 + k / 65536) * 2048

/-- A channel fails a retraining during its migration (R340): the extents not yet copied move at once and read as poison, but for
the sectors written to both places. -/
def Dev.migrationFails (d : Dev) (ch : Nat) (m : Migration) : Dev :=
  let ks := m.todo.map fun p => p.1
  let x := d.memx
  let d1 := ({ d with memx := { (x.redirect m.todo).spoil ks x.both with mig := none, both := [] } }).set MEM_MIG_STAT.ACTIVE 0 0
  let d2 := ((d1.retired ch).raise MEM_STATUS.DEAD_EV 0).latchPoison (minList (extentAddr (ks.headD 0)) (ks.map extentAddr)) 4
  ((d2.raise MEM_STATUS.POISON_EV 0).poisonRooms ch).nextRetirement

/-- The migration in progress takes new hosts for extents that a retiring channel would have hosted (R336): what was written
whole at the old place is not at the new one. -/
def MemSt.rehost (x : MemSt) (ps : List (Nat × Nat)) : MemSt :=
  match x.mig with
  | some m => { x with
      mig := some { m with todo := m.todo.map fun p => (ps.find? fun q => q.1 == p.1).getD p }
      both := x.both.filter fun s => !((extentKey s).any fun k => ps.any fun q => q.1 == k) }
  | none => x

/-- A failed channel retires with no migration (R333, R338): every extent that it holds moves and reads as poison until
written. -/
def Dev.retireAtOnce (d : Dev) (ch : Nat) : Dev :=
  let p := d.assign ch
  let x := p.1.memx
  let later := fun (q : Nat × Nat) => d.extentHome q.1 != ch
  let ps := p.2.filter fun q => !later q
  let d1 := { p.1 with memx := ((x.redirect ps).spoil (ps.map fun (q : Nat × Nat) => q.1) []).rehost (p.2.filter later) }
  ((d1.retired ch).burn (.ftChannel ch)).log 6 2 5 none 0 ch 0xFFFF 0 0

/-- A retraining ends FAIL (R333, R334, R340, R342). -/
def Dev.trainFail (d : Dev) (ch prior : Nat) : Dev :=
  if 384 ≤ ch then d.kill ch
  else match d.memx.mig.filter fun m => m.chan == ch with
  | some m => d.migrationFails ch m
  | none =>
    if prior = 5 || d.get MEM_SPARE_STAT.FREE 0 < d.needed ch then (d.kill ch).raise MEM_STATUS.SPARE_EV 0
    else d.retireAtOnce ch

/-- A channel retires after a retraining that ended MARGINAL, or that was its RETIRE_N-th within WIN_MS (R334). -/
def Dev.retireWorn (d : Dev) (ch result : Nat) : Dev :=
  if result = 1 || (result = 0 && decide (d.get MEM_RT_CTL.RETIRE_N 0 ≤ d.trainCount ch)) then d.retireChannel ch else d

/-- A retraining ends (R331 to R334): 0 PASS, 1 MARGINAL, 2 FAIL. -/
def Dev.retrainEnd (d : Dev) (ch result : Nat) : Dev :=
  match d.memx.prior.find? fun p => p.1 == ch with
  | none => d
  | some (_, st) =>
    let d0 := { d with memx := { d.memx with prior := d.memx.prior.filter fun p => p.1 != ch } }
    let d1 := (d0.set MEM_CHAN_STATE.STATE ch st).set MEM_CHAN_STATE.MARGINAL ch (bit (result == 1))
    let d2 := if 2 ≤ result then d1.trainFail ch st else d1
    let d3 := d2.release (d.heldBy ch)
    let d4 := d3.retireWorn ch result
    if d4.memx.mig.isNone then d4.nextRetirement else d4

/-- A request returned from a full hold queue is issued again (R332). -/
def Dev.holdRetry (d : Dev) (id : Nat) : Dev :=
  match d.req? id with
  | some q => if q.phase = .retry then d.issueReq q else d
  | none => d

/-- An extent has been copied (R338, R339): `bad` are the sectors found uncorrectable, whose mark goes to the new place. The
migration pauses in Recess and while its channel retrains (R343, R344). Log: 86 (DEDUCED). -/
def Dev.extentCopied (d : Dev) (bad : List Nat) : Dev :=
  match d.memx.mig with
  | none => d
  | some m =>
    if d.get PWR_RECESS.STATE 0 ≠ 0 || d.get MEM_CHAN_STATE.STATE m.chan = 1 then d else
    match m.todo with
    | [] => d
    | p :: t =>
      let d1 := (bad.filter fun s => extentKey s == some p.1 && !d.badSector (s / 64 * 64)).foldl (fun (e : Dev) s =>
        (e.count MEM_UE_CNT m.chan 1).markPoison s 3) d
      let d2 := { d1 with memx := { d1.memx.redirect [p] with mig := some { m with todo := t } } }
      let d3 := d2.set MEM_MIG_STAT.EXT_DONE 0 (m.need - t.length)
      if !t.isEmpty then d3
      else
        let d4 := ({ d3 with memx := { d3.memx with mig := none, both := [] } }).set MEM_MIG_STAT.ACTIVE 0 0
        ((d4.raise MEM_STATUS.MIG_DONE_EV 0).retired m.chan).nextRetirement

/-- The patrol scrub reads a sector (R330): `progress` as the pass stands. A channel out of service is not read. -/
def Dev.scrubRead (d : Dev) (sector ce : Nat) (ue : Option Nat) (progress : Nat) : Dev :=
  match d.homeOf sector with
  | none => d
  | some ch =>
    let st := d.get MEM_CHAN_STATE.STATE ch
    if d.get MEM_SCRUB_CTL.EN 0 = 0 || st = 3 || st = 4 then d else
    let d1 := d.meets [(ch, ce)] (match ue with
      | some kind => [(sector, kind)]
      | none => [])
    d1.set MEM_SCRUB_STAT.PROGRESS 0 (min progress 100)

/-! ## Window writes -/

/-- The windows that a Room would have are lawful (R316): aligned, within their tiers, and clear of other Rooms'. -/
def Dev.windowOk (d : Dev) (r : Nat) : Bool :=
  let ft := d.ftWin r
  let ct := d.ctWin r
  let clear := fun (w : Nat × Nat) (v : Nat × Nat) => v.2 == 0 || w.2 == 0 || decide (w.1 + w.2 ≤ v.1) || decide (v.1 + v.2 ≤ w.1)
  ft.1 % 2097152 == 0 && ct.1 % 2097152 == 0
    && (ft.2 == 0 || decide (ft.1 + ft.2 ≤ ftEnd)) && (ct.2 == 0 || (decide (ctBase ≤ ct.1) && decide (ct.1 + ct.2 ≤ ctEnd)))
    && (List.range 16).all fun q => q == r || (clear ft (d.ftWin q) && clear ct (d.ctWin q))

/-- A write of window registers of a Room, given as the state it would make: it stands only from the physical function,
while the Room is EMPTY, and if the windows are lawful; else nothing changes and WIN_EV is set (R316). -/
def Dev.windowWrite (d : Dev) (fn r : Nat) (made : Dev) : Dev :=
  if fn = 0 && d.roomState r == stEmpty && made.windowOk r then made else d.raise MEM_ROOM_STAT.WIN_EV r

/-! ## The commands -/

def execRefill (s : State) := s.onDev fun d =>
  let d1 := (List.range 32).foldl Dev.refillOne d
  d1.memx.reqs.foldl (fun e q => if q.phase = .tokens then e.issueReq q else e) d1

def execMemRequestIssue (id : Nat) (s : State) := s.onDev fun d =>
  match d.req? id with
  | some q => if q.phase = .tokens then d.issueReq q else d
  | none => d

def execMemReadReturn (id : Option Nat) (link : List Nat) (ce ue : List (Nat × Nat)) (s : State) := s.onDev fun d =>
  d.readEnds id link ce ue

def execRetrainStart (ch : Nat) (s : State) := s.onUnit 448 ch fun d => d.retrainStart ch

def execRetrainEnd (ch result : Nat) (s : State) := s.onUnit 448 ch fun d => d.retrainEnd ch result

def execHoldRetry (id : Nat) (s : State) := s.onDev fun d => d.holdRetry id

def execScrubRead (sector ce : Nat) (ue : Option Nat) (progress : Nat) (s : State) := s.onDev fun d => d.scrubRead sector ce ue progress

def execChanRetire (fn ch : Nat) (s : State) := s.onHost fn MEM_CHAN_CTL fun d => if fn = 0 then d.retireChannel ch else d

def execChanRetrain (fn ch : Nat) (s : State) := s.onHost fn MEM_CHAN_CTL fun d =>
  if fn = 0 && decide (ch < 448) && !d.memx.trainWait.contains ch then
    { d with memx := { d.memx with trainWait := d.memx.trainWait ++ [ch] } }
  else d

def execExtentCopyDone (bad : List Nat) (s : State) := s.onDev fun d => d.extentCopied bad

end Sys2Proof.Machine
end

