-- ==== Sys2Proof/Machine/Skein.lean ====
section
/-! DEFINITION. Skein compression: tables, slots, the block format, and the encoder and decoder (Skein compression). -/

namespace Sys2Proof.Machine

/-! ## Tables -/

/-- L(v) of a table (R298). -/
def skLen (t : List (BitVec 8)) (v : Nat) : Nat := bitsOf (nth 0 t (v / 2)).toNat (4 * (v % 2)) 4

/-- Lengths of all byte values. -/
def skLens (t : List (BitVec 8)) : List Nat := (List.range 256).map (skLen t)

/-- A table is valid (R298). -/
def skValid (t : List (BitVec 8)) : Bool :=
  let ls := (skLens t).filter (· != 0)
  !ls.isEmpty && decide ((ls.map fun l => 2 ^ (15 - l)).foldl (· + ·) 0 ≤ 32768)

/-- The canonical codes (R299) as (length, code, value), lengths from `l` on, `next` the first code of length `l`. -/
def skCodesFrom (ls : List Nat) : Nat → Nat → Nat → List (Nat × Nat × Nat)
  | 0, _, _ => []
  | fuel + 1, l, next =>
    let vs := (List.range 256).filter fun v => nth 0 ls v == l
    (vs.zip (List.range vs.length)).map (fun p => (l, next + p.2, p.1)) ++ skCodesFrom ls fuel (l + 1) (2 * (next + vs.length))

/-- All codes of a table. -/
def skCodes (t : List (BitVec 8)) : List (Nat × Nat × Nat) := skCodesFrom (skLens t) 15 1 0

/-! ## Blocks -/

/-- Symbol width in bytes of SYM (Table 10-1). -/
def symBytes (sym : Nat) : Nat := 2 ^ sym

/-- HCHK of header bytes 0 to 13 under a table identifier (R293). -/
def skCheck (head : List (BitVec 8)) (tableId : Nat) : Nat := crcMsb 16 0x1021 0xFFFF (head.take 14 ++ toLe 4 tableId)

/-- Split raw bytes into little-endian symbols of `w` bytes. -/
def symbols (w : Nat) : Nat → List (BitVec 8) → List Nat
  | 0, _ => []
  | n + 1, bs => ofLe (bs.take w) :: symbols w n (bs.drop w)

/-- First and last symbol index of a sub-stream (R295): symbols `i × q` up to `min (N, (i + 1) × q)`. -/
def subRange (n i : Nat) : Nat × Nat := let q := ceilDiv n 8; (min n (i * q), min n ((i + 1) * q))

/-- Bits of a code, most significant first (R296). -/
def codeBits : Nat → Nat → List Nat
  | 0, _ => []
  | l + 1, c => c / 2 ^ l % 2 :: codeBits l c

/-- Bits of a value, least significant first. -/
def lowBits : Nat → Nat → List Nat
  | 0, _ => []
  | n + 1, v => v % 2 :: lowBits n (v / 2)

/-- Pack bits from bit 0 of the first byte upward. -/
def packBits (bs : List Nat) : Nat := bs.foldr (fun b acc => b + 2 * acc) 0

/-- The code bits of one nonzero symbol (R296): the code of its top byte, then its other bytes, least significant first. -/
def symBits (cs : List (Nat × Nat × Nat)) (w s : Nat) : Option (List Nat) :=
  (cs.find? fun c => c.2.2 == s / 2 ^ (8 * (w - 1))).map fun c => codeBits c.1 c.2.1 ++ lowBits (8 * (w - 1)) s

/-- One sub-stream encoded (R296): mask, codes, zero bits to the next 4-byte boundary; none where a symbol has no code. -/
def encodeSub (cs : List (Nat × Nat × Nat)) (w : Nat) (ss : List Nat) : Option (List (BitVec 8)) :=
  if ss.isEmpty then some [] else
  let mask := toLe (ceilDiv ss.length 8) (packBits (ss.map fun s => if s = 0 then 0 else 1))
  let bits := ss.foldl (fun acc s => if s = 0 then acc else
    match acc, symBits cs w s with
    | some l, some b => some (l ++ b)
    | _, _ => none) (some [])
  bits.map fun b =>
    let body := mask ++ toLe (ceilDiv b.length 8) (packBits b)
    body ++ List.replicate (4 * ceilDiv body.length 4 - body.length) 0

/-- The header of a block (Table 10-1). -/
def skHeader (raw pay mode slot sym : Nat) (lens : List Nat) (tableId : Nat) : List (BitVec 8) :=
  let w0 := (raw - 1) + (pay - 1) * 2 ^ 12 + mode * 2 ^ 24 + slot * 2 ^ 25 + sym * 2 ^ 27 + 5 * 2 ^ 29
  let l := lens.foldr (fun x acc => x % 1024 + 1024 * acc) 0
  let h := toLe 4 w0 ++ toLe 10 l
  h ++ toLe 2 (skCheck h tableId)

/-- Encode a block (R297): its stored bytes, and whether it was stored raw. -/
def skEncode (table : Option (List (BitVec 8))) (slot sym : Nat) (raw : List (BitVec 8)) : List (BitVec 8) × Bool :=
  let w := symBytes sym
  let n := raw.length / w
  let ss := symbols w n raw
  let subs := table.bind fun t =>
    let cs := skCodes t
    (List.range 8).foldl (fun acc i =>
      let r := subRange n i
      match acc, encodeSub cs w ((ss.drop r.1).take (r.2 - r.1)) with
      | some l, some b => some (l ++ [b])
      | _, _ => none) (some ([] : List (List (BitVec 8))))
  match table, subs with
  | some t, some bs =>
    let pay := bs.flatten
    if pay.length < raw.length then
      (skHeader raw.length pay.length 1 slot sym (bs.map fun b => b.length / 4) (crc32 t) ++ pay, false)
    else (skHeader raw.length raw.length 0 0 sym [] 0 ++ raw, true)
  | _, _ => (skHeader raw.length raw.length 0 0 sym [] 0 ++ raw, true)

/-- A byte that holds one of the bits from `lo` up to `hi` is poisoned. -/
def badBits (p : Nat → Bool) (lo hi : Nat) : Bool := decide (lo < hi) && (List.range (ceilDiv hi 8 - lo / 8)).any fun k => p (lo / 8 + k)

/-- Read one code of the table from bit `start` on (R299): its value and length, or the failing code. `p` tells the poisoned
bytes. -/
def readCode (cs : List (Nat × Nat × Nat)) (p : Nat → Bool) (v bits start : Nat) : Nat → Nat → Nat → Nat ⊕ (Nat × Nat)
  | 0, _, _ => .inl 0x0507
  | fuel + 1, k, c =>
    if bits ≤ start + k then .inl 0x0505
    else if p ((start + k) / 8) then .inl 0x0508
    else
      let c := 2 * c + v / 2 ^ (start + k) % 2
      match cs.find? fun x => x.1 == k + 1 && x.2.1 == c with
      | some x => .inr (x.2.2, k + 1)
      | none => readCode cs p v bits start fuel (k + 1) c

/-- Decode the symbols of a sub-stream (steps 6, 8 and 9 of Table 10-2): `v` its bits, `pos` the bit reached. Answers the
failing code with its symbol, or the symbols. -/
def decodeSyms (cs : List (Nat × Nat × Nat)) (p : Nat → Bool) (w v bits : Nat) : Nat → Nat → Nat → List Nat → (Nat × Nat) ⊕ (List Nat × Nat)
  | 0, _, pos, acc => .inr (acc.reverse, pos)
  | n + 1, j, pos, acc =>
    if p (j / 8) then .inl (0x0508, j)
    else if v / 2 ^ j % 2 = 0 then decodeSyms cs p w v bits n (j + 1) pos (0 :: acc)
    else match readCode cs p v bits pos 15 0 0 with
      | .inl c => .inl (c, j)
      | .inr (top, l) =>
        let next := pos + l + 8 * (w - 1)
        if badBits p (pos + l) (min bits next) then .inl (0x0508, j)
        else if bits < next then .inl (0x0505, j)
        else
          let low := v / 2 ^ (pos + l) % 2 ^ (8 * (w - 1))
          decodeSyms cs p w v bits n (j + 1) next ((low + top * 2 ^ (8 * (w - 1))) :: acc)

/-- Decode a sub-stream of `n` symbols (R296, Table 10-2): the failing code with its symbol, or the symbols. `p` tells its
poisoned bytes. -/
def decodeSub (cs : List (Nat × Nat × Nat)) (p : Nat → Bool) (w n : Nat) (bs : List (BitVec 8)) : (Nat × Nat) ⊕ List Nat :=
  let v := ofLe bs
  let bits := 8 * bs.length
  let m := 8 * ceilDiv n 8
  if bits < m then .inl (0x0505, 0) else
  match decodeSyms cs p w v bits n 0 m [] with
  | .inl e => .inl e
  | .inr (ss, pos) =>
    if badBits p pos bits then .inl (0x0508, n - min n 1)
    else if bits - pos < 32 && v / 2 ^ pos == 0 && bitsOf v n (m - n) == 0 then .inr ss
    else .inl (0x0506, n - min n 1)

/-- The lane that stops a block (R307): the first to fail, a lane passing 4 raw bytes a cycle (R304); of lanes that fail in one cycle
the code that ranks first (R311). The lanes' failures are given as code, lane and symbol. Log: 169 (DEDUCED). -/
def firstLane (w : Nat) (fails : List (Nat × Nat × Nat)) : Option (Nat × Nat × Nat) :=
  let rank := fun (f : Nat × Nat × Nat) => 65536 * (f.2.2 * w / 4) + (if f.1 = 0x0508 then 0 else f.1)
  fails.foldl (fun best f =>
    match best with
    | some b => if rank f < rank b then some f else some b
    | none => some f) none

/-- What the decoder finds of a block: the code and its lane and symbol, or the raw bytes. -/
inductive SkResult where
  | bad (code lane pos : Nat)
  | raw (bs : List (BitVec 8))
  deriving DecidableEq, Repr

/-- Steps 1 to 5 of Table 10-2: 0 when they pass. `room` is the stream's remaining length, `dest` the destination size. -/
def skHeadCode (table : Option (List (BitVec 8))) (head : List (BitVec 8)) (poisoned : Bool) (remaining dest : Nat) : Nat :=
  let w0 := dw4 head 0
  let raw := bitsOf w0 0 12 + 1
  let pay := bitsOf w0 12 12 + 1
  let coded := bitAt w0 24
  let sym := bitsOf w0 27 2
  let lens := (List.range 8).map fun i => bitsOf (ofLe ((head.drop 4).take 10)) (10 * i) 10
  let sum := lens.foldl (· + ·) 0
  firstCode
    [need (!poisoned) 0x0508,
     need (bitsOf w0 29 3 == 5 && sym != 3
       && (if coded then decide (pay < raw) && 4 * sum == pay else pay == raw && bitsOf w0 25 2 == 0 && sum == 0)
       && raw % symBytes sym == 0 && decide (raw ≤ remaining)) 0x0501,
     need (!coded || table.isSome) 0x0502,
     need (ofLe ((head.drop 14).take 2) == skCheck head (if coded then crc32 (table.getD []) else 0)) 0x0503,
     need (decide (raw ≤ dest)) 0x0504]
where
  /-- a 32-bit word of a byte list -/
  dw4 (b : List (BitVec 8)) (o : Nat) : Nat := ofLe ((b.drop o).take 4)

/-- A byte of a block lies in one of the poisoned ranges of its stored bytes. -/
def badByte (bad : List (Nat × Nat)) (o : Nat) : Bool := bad.any fun b => decide (b.1 ≤ o) && decide (o < b.1 + b.2)

/-- Decode a stored block (Table 10-2): steps 1 to 5 on its header, then the lanes. `bad` are the poisoned ranges of the stored
bytes. -/
def skDecode (table : Option (List (BitVec 8))) (stored : List (BitVec 8)) (bad : List (Nat × Nat)) (remaining dest : Nat) :
    SkResult :=
  let head := stored.take 16
  let c := skHeadCode table head ((List.range 16).any (badByte bad)) remaining dest
  if c ≠ 0 then .bad c 0 0 else
  let w0 := ofLe (head.take 4)
  let raw := bitsOf w0 0 12 + 1
  let w := symBytes (bitsOf w0 27 2)
  let n := raw / w
  let body := stored.drop 16
  if !bitAt w0 24 then
    let fails := (List.range 8).filterMap fun i =>
      let r := subRange n i
      ((List.range (r.2 - r.1)).find? fun j => (List.range w).any fun k => badByte bad (16 + (r.1 + j) * w + k)).map fun j => (0x0508, i, j)
    match firstLane w fails with
    | some f => .bad f.1 f.2.1 f.2.2
    | none => .raw (body.take raw)
  else
    let cs := skCodes (table.getD [])
    let lens := (List.range 8).map fun i => bitsOf (ofLe ((head.drop 4).take 10)) (10 * i) 10
    let lanes := (List.range 8).map fun i =>
      let r := subRange n i
      let o := 4 * (lens.take i).foldl (· + ·) 0
      decodeSub cs (fun k => badByte bad (16 + o + k)) w (r.2 - r.1) ((body.drop o).take (4 * nth 0 lens i))
    let fails := (lanes.zip (List.range 8)).filterMap fun p =>
      match p.1 with
      | .inl e => some (e.1, p.2, e.2)
      | .inr _ => none
    match firstLane w fails with
    | some f => .bad f.1 f.2.1 f.2.2
    | none => .raw ((lanes.map fun l => match l with | .inr ss => (ss.map (toLe w)).flatten | .inl _ => []).flatten)

/-- The slot that a block to be read references (R301): that of its header, as memory holds it, where the block is coded.
Log: 170 (DEDUCED). -/
def Dev.codedSlot (d : Dev) (a : Nat) : Option Nat :=
  let w := d.rdLe a 4
  if bitAt w 24 then some (bitsOf w 25 2) else none

/-! ## Slots -/

/-- A slot's state beside its registers. -/
def Dev.slot (d : Dev) (r s : Nat) : SlotSt := tget (fun _ => SlotSt.init) d.skn (4 * r + s)
def Dev.setSlot (d : Dev) (r s : Nat) (x : SlotSt) : Dev := { d with skn := tset (fun _ => SlotSt.init) d.skn (4 * r + s) x }

/-- The table of a slot, where it holds one. -/
def Dev.skTable (d : Dev) (r s : Nat) : Option (List (BitVec 8)) :=
  if d.get SKN_TABLE_SLOT.VALID (4 * r + s) = 1 then some (d.slot r s).table else none

/-- Reels hold blocks that name the slot (R301). -/
def Dev.slotHeld (d : Dev) (r s : Nat) : Bool :=
  d.get SKN_TABLE_SLOT.CLOSE (4 * r + s) == 1 || d.get SKN_TABLE_SLOT.LOADING (4 * r + s) == 1

/-- A block begins or ends its reference to a slot (R301). -/
def Dev.slotRef (d : Dev) (r s : Nat) : Dev := d.set SKN_TABLE_SLOT.REFS (4 * r + s) (d.get SKN_TABLE_SLOT.REFS (4 * r + s) + 1)
def Dev.slotUnref (d : Dev) (r s : Nat) : Dev := d.set SKN_TABLE_SLOT.REFS (4 * r + s) (d.get SKN_TABLE_SLOT.REFS (4 * r + s) - 1)

/-- A table load ends with a code (R300). -/
def Dev.tableEnd (d : Dev) (r s code : Nat) : Dev :=
  let d1 := ((d.set SKN_TABLE_SLOT.CODE (4 * r + s) code).set SKN_TABLE_SLOT.GO (4 * r + s) 0).set SKN_TABLE_SLOT.LOADING (4 * r + s) 0
  d1.raiseBits (if code = 0 then SKN_STAT.LOAD_DONE else SKN_STAT.LOAD_FAIL) r (2 ^ s)

/-- GO of a table slot (R300, R301). A virtual function's load for another Room is reported in its own and changes nothing else. -/
def Dev.tableLoad (d : Dev) (fn r s : Nat) : Dev :=
  if 16 ≤ r || 4 ≤ s then d
  else if !mayAct fn r then
    (d.set SKN_TABLE_SLOT.CODE (4 * (fn - 1) + s) 0x0514).raiseBits SKN_STAT.LOAD_FAIL (fn - 1) (2 ^ s)
  else if d.get SKN_TABLE_SLOT.LOADING (4 * r + s) = 1 then d
  else if d.get SKN_TABLE_SLOT.REFS (4 * r + s) ≠ 0 then d.tableEnd r s 0x0510
  else
    let a := d.get64 SKN_TABLE_ADDR_LO SKN_TABLE_ADDR_HI (4 * r + s)
    ((d.set SKN_TABLE_SLOT.GO (4 * r + s) 1).set SKN_TABLE_SLOT.LOADING (4 * r + s) 1).setSlot r s { d.slot r s with addr := a }

/-- A table load ends (R298 to R300), once its read has issued (R322, R332); the lowest code first (R21). -/
def Dev.tableLoadEnd (d : Dev) (r s : Nat) : Dev :=
  if 4 ≤ s || d.get SKN_TABLE_SLOT.LOADING (4 * r + s) = 0 then d else
  let a := (d.slot r s).addr
  if a % 128 ≠ 0 then d.tableEnd r s 0x0512
  else if !inside (d.ftWin r) a 128 then (d.winEv (if d.inWindows r a 128 then none else some r)).tableEnd r s 0x0512
  else if d.requestWaits (some r) a 128 then d.heldAt (some r) a
  else
    let d1 := d.payOne (some r) false a 128
    let t := d1.rdBytes a 128
    let c := firstCode [need (skValid t) 0x0511, need (!d1.poisoned a 128) 0x0513]
    if c ≠ 0 then d1.tableEnd r s c
    else (((d1.setSlot r s ⟨t, a⟩).set SKN_TABLE_SLOT.VALID (4 * r + s) 1).wr SKN_TABLE_ID (4 * r + s) (crc32 t)).tableEnd r s 0

/-- An unload clears the Room's slots (R302). -/
def Dev.slotsClear (d : Dev) (r : Nat) : Dev :=
  (List.range 4).foldl (fun e s => ((e.wr SKN_TABLE_SLOT (4 * r + s) 0).wr SKN_TABLE_ID (4 * r + s) 0).setSlot r s SlotSt.init) d

/-- A corrupt block (R308). -/
def Dev.corrupt (d : Dev) (r code lane pos addr : Nat) : Dev :=
  let d1 := if d.get SKN_STAT.CORRUPT_EV r = 1 then d else
    ((d.wr SKN_ERR_INFO r (code + lane * 2 ^ 16 + pos % 4096 * 2 ^ 19)).set64 SKN_ERR_ADDR_LO SKN_ERR_ADDR_HI r addr).raise SKN_STAT.CORRUPT_EV r
  d1.count SKN_ERR_CNT r 1

/-- Count the bytes of a block (Table 10-7). -/
def Dev.skCount (d : Dev) (r raw stored : Nat) : Dev :=
  (d.count64 SKN_RAW_BYTES_LO SKN_RAW_BYTES_HI r raw).count64 SKN_STORED_BYTES_LO SKN_STORED_BYTES_HI r stored

def execTableLoad (fn r slot : Nat) (s : State) := s.onHost fn SKN_TABLE_SLOT fun d => d.tableLoad fn r slot

def execTableLoadEnd (r slot : Nat) (s : State) := s.onUnit 16 r fun d => d.tableLoadEnd r slot

def execSlotClose (fn r slot : Nat) (close : Bool) (s : State) := s.onHost fn SKN_TABLE_SLOT fun d =>
  if mayAct fn r && decide (r < 16) && decide (slot < 4) then d.set SKN_TABLE_SLOT.CLOSE (4 * r + slot) (bit close) else d

end Sys2Proof.Machine
end

