-- ==== Sys2Proof/Machine/Kaluf.lean ====
section
/-! DEFINITION. The Kaluf Link's link layer: flits, sequence numbers and replay, credits and classes, routing and
forwarding, retraining and lane retirement (Kaluf Link and multi-device agreement, R385 to R398). -/

namespace Sys2Proof.Machine

/-! ## Flits -/

/-- A port's state. -/
def Dev.port (d : Dev) (p : Nat) : PortSt := tget (fun _ => PortSt.init) d.kl.ports p
def Dev.setPort (d : Dev) (p : Nat) (x : PortSt) : Dev :=
  { d with kl := { d.kl with ports := tset (fun _ => PortSt.init) d.kl.ports p x } }

/-- The credits that a flit's header returns (Table 13-2). -/
structure Credit where
  key : Nat
  count : Nat
  deriving DecidableEq, Repr

/-- The 256 bytes of a flit (R387): header, payload padded with zeros, CRC-32. `ack` is the highest SEQ received in order. -/
def Flit.bytes (f : Flit) (ack : Nat) (cr : Credit) : List (BitVec 8) :=
  let w0 := f.typ % 16 + f.cls % 4 * 2 ^ 4 + f.vl % 2 * 2 ^ 6 + bit f.last * 2 ^ 7 + f.seq % 4096 * 2 ^ 8 + ack % 4096 * 2 ^ 20
  let w1 := f.dst % 2 ^ 15 + bit f.poison * 2 ^ 15 + f.src % 2 ^ 15 * 2 ^ 16
  let ctl := cr.key == 8
  let w2 := (f.body.length - 1) % 256 + f.hops % 64 * 2 ^ 8
    + (if ctl then 2 ^ 25 else cr.key / 2 % 4 * 2 ^ 14 + cr.key % 2 * 2 ^ 16) + cr.count % 256 * 2 ^ 17
  let b := toLe 4 w0 ++ toLe 4 w1 ++ toLe 4 w2 ++ (f.body ++ List.replicate (240 - f.body.length) 0).take 240
  b ++ toLe 4 (crc32 b)

/-- The flit in 256 received bytes, with its ACK_SEQ and the credits it returns (Table 13-2). -/
def parseFlit (b : List (BitVec 8)) : Flit × Nat × Credit :=
  let w0 := ofLe (b.take 4)
  let w1 := ofLe ((b.drop 4).take 4)
  let w2 := ofLe ((b.drop 8).take 4)
  (⟨bitsOf w0 0 4, bitsOf w0 4 2, bitsOf w0 6 1, bitAt w0 7, bitsOf w0 8 12, bitsOf w1 0 15, bitAt w1 15, bitsOf w1 16 15,
     bitsOf w2 8 6, (b.drop 12).take (bitsOf w2 0 8 + 1), none, none⟩,
   bitsOf w0 20 12,
   ⟨if bitAt w2 25 then 8 else 2 * bitsOf w2 14 2 + bitsOf w2 16 1, bitsOf w2 17 8⟩)

/-- The CRC of a received flit holds (R387). -/
def flitCrcOk (b : List (BitVec 8)) : Bool := b.length == 256 && ofLe (b.drop 252) == crc32 (b.take 252)

/-- A control flit (Table 13-3). -/
def Flit.control (f : Flit) : Bool := decide (f.typ < 8)

/-- The reserved types (Table 13-3). -/
def reservedFlit (t : Nat) : Bool := t == 6 || t == 7 || t == 14 || t == 15

/-- The credit that a flit needs: its class and lane, or the control reserve (R392). -/
def Flit.key (f : Flit) : Nat := if f.control then 8 else 2 * f.cls + f.vl

/-! ## Sending -/

/-- Buffers behind a credit key at the far end, which is programmed as this end is (R392). Log: 93 (DEDUCED). -/
def Dev.creditCap (d : Dev) (p key : Nat) : Nat :=
  if key = 8 then 16 else 4 * bitsOf (d.rd KL_CREDIT p) (8 * (key / 2)) 8

/-- A waiting flit may be sent now. -/
def Dev.hasCredit (d : Dev) (p : Nat) (f : Flit) : Bool :=
  decide (tget (fun _ => 0) (d.port p).used f.key < d.creditCap p f.key)

/-- The turns of classes 1, 2 and 3 at 8:2:1 (R391). -/
def wrrTurns : List Nat := [1, 1, 1, 1, 1, 1, 1, 1, 2, 2, 3]

/-- The waiting flit that goes out next (R391), with the place in the turns after it. -/
def Dev.nextFlit (d : Dev) (p : Nat) : Option (Nat × Flit × Nat) :=
  let x := d.port p
  let pick := fun (t : Flit → Bool) => findIdx? (fun f => t f && d.hasCredit p f) x.waitq 0
  match pick Flit.control with
  | some (k, f) => some (k, f, x.turn)
  | none =>
    match pick fun f => !f.control && f.cls == 0 with
    | some (k, f) => some (k, f, x.turn)
    | none =>
      ((List.range 11).map fun n => (x.turn + n) % 11).findSome? fun t =>
        (pick fun f => !f.control && f.cls == nth 0 wrrTurns t).map fun q => (q.1, q.2, (t + 1) % 11)

/-- The port may send flits other than IDLE and LINK_CTL (R390, R393, R395). -/
def Dev.mayFly (d : Dev) (p : Nat) : Bool :=
  d.get KL_PORT_STAT.STATE p == 2 && d.get KL_PORT_CTL.EN p == 1 && (d.port p).retiring.isNone

/-- The first credits owed, for a header. -/
def PortSt.credit (x : PortSt) : Credit :=
  match x.owed with
  | [] => ⟨0, 0⟩
  | (k, n) :: _ => ⟨k, min n 255⟩

/-- Those credits have been returned. -/
def PortSt.paid (x : PortSt) : PortSt :=
  match x.owed with
  | [] => x
  | (k, n) :: _ => { x with owed := tset (fun _ => 0) x.owed k (n - min n 255) }

/-- Owe a credit on a port (R392). -/
def Dev.owe (d : Dev) (p key : Nat) : Dev := d.setPort p ((d.port p).owe key)

/-- This device's ID. -/
def Dev.devId (d : Dev) : Nat := d.get KL_DEV_ID.ID 0

/-- The bytes of a flit that a port sends now, with the acknowledgment and the credits that are due (R387). -/
def PortSt.flitBytes (x : PortSt) (f : Flit) : List (BitVec 8) := f.bytes ((x.rxSeq + 4095) % 4096) x.credit

/-- Put a flit's bytes on the line. -/
def Dev.fly (d : Dev) (p : Nat) (f : Flit) : Dev :=
  let x := d.port p
  (d.send (.flit p (x.flitBytes f))).setPort p x.paid

/-- Send a LINK_CTL flit to the neighbour: 256 bytes of TYPE 1, SEQ 0, not replayed (R387, R388). The payload's layout is Config.msgBody.
Log: 95 (DESIGN CHOICE). -/
def Dev.sendLink (d : Dev) (p kind arg : Nat) : Dev :=
  (d.send (.linkCtl p kind arg)).fly p
    ⟨1, 0, 0, true, 0, d.get KL_PORT_STAT.NBR_DEV p, false, d.devId, 0, (Config.msgBody 1 [kind, arg] []).take 240, none, none⟩

/-- Send waiting flits while credits and the replay buffer allow it (R389, R391, R392). -/
def Dev.pump (p : Nat) : Nat → Dev → Dev
  | 0, d => d
  | fuel + 1, d =>
    let x := d.port p
    if !d.mayFly p || decide (2048 ≤ x.replay.length) then d else
    match d.nextFlit p with
    | none => d
    | some (k, f, turn) =>
      let g := { f with seq := x.txSeq }
      let x1 := { x with
        waitq := x.waitq.take k ++ x.waitq.drop (k + 1)
        used := tset (fun _ => 0) x.used f.key (tget (fun _ => 0) x.used f.key + 1)
        replay := x.replay ++ [⟨g.seq, x.flitBytes g⟩]
        txSeq := (x.txSeq + 1) % 4096
        turn := turn
        ackTime := if x.replay.isEmpty then d.now else x.ackTime }
      let d1 := (d.setPort p x1).fly p g
      let d2 := match f.via with
        | some q => d1.owe q f.key
        | none => d1
      let d3 := match f.ask with
        | some id => { d2 with kl := d2.kl.sent id d2.now }
        | none => d2
      Dev.pump p fuel d3

/-- Send what may be sent on a port. -/
def Dev.pumpAll (d : Dev) (p : Nat) : Dev := Dev.pump p (d.port p).waitq.length d

/-- Give a flit to a port. -/
def Dev.queueFlit (d : Dev) (p : Nat) (f : Flit) : Dev :=
  let x := d.port p
  (d.setPort p { x with waitq := x.waitq ++ [f] }).pumpAll p

/-- Send every unacknowledged flit again as it was kept, oldest first, and then what waits (R389, R390); not while the port sends no
flit for a retraining or a lane's retirement (R390, R393), at whose end it follows. -/
def Dev.resend (d : Dev) (p : Nat) : Dev :=
  if !d.mayFly p then d else ((d.port p).replay.foldl (fun (e : Dev) f => e.send (.flit p f.bytes)) d).pumpAll p

/-- The port that a message to a device takes and whether its entry moves it to lane 1 (R396).
Log: 93 (DEDUCED); 96 (DEDUCED). -/
def Dev.route (d : Dev) (dev : Nat) : Option (Nat × Bool) :=
  let up := fun p => d.get KL_PORT_STAT.STATE p == 2 && d.get KL_PORT_CTL.EN p == 1
  let p := d.get KL_ROUTE.PORT dev
  let a := d.get KL_ROUTE.ALT_PORT dev
  if d.get KL_ROUTE.VALID dev = 1 ∧ p < 12 ∧ up p = true then some (p, d.get KL_ROUTE.VL_UP dev == 1)
  else if d.get KL_ROUTE.ALT_VALID dev = 1 ∧ a < 12 ∧ up a = true then some (a, d.get KL_ROUTE.ALT_VL_UP dev == 1)
  else none

/-- Send a message to a device in a class (R391, R396): its flits of up to 240 payload bytes go out on one port. Answers
whether a port was usable; a message to the device itself stays on the mesh (R416). `ask` is the number of a message that will be
answered (R399). Log: 95 (DESIGN CHOICE); 96 (DEDUCED). -/
def Dev.sendMsg (d : Dev) (dev typ cls : Nat) (fields : List Nat) (data : List (BitVec 8)) (poison : Bool) (ask : Option Nat) :
    Dev × Bool :=
  let out := d.send (.msg dev typ cls fields data)
  if dev = d.devId then
    (match ask with
      | some id => { out with kl := out.kl.sent id out.now }
      | none => out, true)
  else
  match d.route dev with
  | none => (d, false)
  | some (p, _) =>
    let body := if typ = 0xC || typ = 0xD then data else Config.msgBody typ fields data
    let parts := chunks 240 (max 1 (ceilDiv body.length 240)) body
    let n := parts.length
    let flits := (parts.zip (List.range n)).map fun q =>
      (⟨typ, cls, 0, q.2 + 1 == n, 0, dev, poison, d.devId, 0, q.1, none, if q.2 + 1 == n then ask else none⟩ : Flit)
    (flits.foldl (fun e f => e.queueFlit p f) out, true)

/-- An enabled port whose link works: what is handed to it is sent, or kept while it retrains or re-stripes (R390, R393). -/
def Dev.linked (d : Dev) (p : Nat) : Bool :=
  (d.get KL_PORT_STAT.STATE p == 2 || d.get KL_PORT_STAT.STATE p == 3) && d.get KL_PORT_CTL.EN p == 1

/-- Send a control flit to the neighbour on a port (R388). -/
def Dev.sendCtl (d : Dev) (p typ : Nat) (fields : List Nat) (data : List (BitVec 8)) : Dev :=
  if !d.linked p then d else
  let nbr := d.get KL_PORT_STAT.NBR_DEV p
  (d.send (.msg nbr typ 0 fields data)).queueFlit p
    ⟨typ, 0, 0, true, 0, nbr, false, d.devId, 0, (Config.msgBody typ fields data).take 240, none, none⟩

/-! ## Retraining and lanes -/

/-- Kinds of LINK_CTL: NAK, lane retirement, retraining, wake. -/
def lcNak : Nat := 0
def lcRetire : Nat := 1
def lcRetrain : Nat := 2
def lcWake : Nat := 3

/-- Lanes in use on a port. -/
def Dev.laneCount (d : Dev) (p : Nat) : Nat := popcount 4 (d.get KL_PORT_STAT.LANES p)

/-- A port begins retraining (R390). -/
def Dev.portRetrain (d : Dev) (p : Nat) : Dev :=
  if d.get KL_PORT_STAT.STATE p ≠ 2 then d else
  let x := d.port p
  let d1 := (d.setPort p { x with nakSeq := none, nakRun := 0 }).sendLink p lcRetrain 0
  ((d1.set KL_PORT_STAT.STATE p 3).raise KL_PORT_STAT.RETRAIN_EV p).count KL_RETRAIN_CNT p 1

/-- A lane leaves service (R393, R394, R526, R531). -/
def Dev.laneOut (d : Dev) (p l : Nat) : Dev :=
  let d1 := (d.set KL_PORT_STAT.LANES p (setBits (d.get KL_PORT_STAT.LANES p) l 1 0)).raise KL_PORT_STAT.LANE_EV p
  ((d1.burn (.lane p l)).degrade 3).log 0x08 2 5 none 0 p l 0 0

/-- A lane is to be retired (R393, R394): by re-striping, at the end of a retraining, or the port goes DOWN; what falls due during a
restart of the controller waits for its end (R528). Log: 135 (DEDUCED). -/
def Dev.laneRetire (d : Dev) (p l : Nat) : Dev :=
  let x := d.port p
  let st := d.get KL_PORT_STAT.STATE p
  if !bitAt (d.get KL_PORT_STAT.LANES p) l || (st ≠ 2 && st ≠ 3) || x.retiring == some l || x.failing.contains l then d
  else if d.flt.wdogBusy then { d with flt := { d.flt with deferred := d.flt.deferred ++ [.lane p l] } }
  else if d.laneCount p ≤ 3 || x.retiring.isSome || !x.failing.isEmpty then (d.degrade 3).portDown p
  else if st = 3 then d.setPort p { x with failing := x.failing ++ [l] }
  else (d.setPort p { x with retiring := some l }).sendLink p lcRetire l

/-- A retraining, or the training of an enabled port, ends (R390, R395): `ok`, the lanes that failed it, and what the far
end says of itself. The time for an acknowledgment runs anew. Log: 192 (DEDUCED). -/
def Dev.portTrained (d : Dev) (p : Nat) (ok : Bool) (failed : List Nat) (nbrDev nbrPort : Nat) : Dev :=
  let st := d.get KL_PORT_STAT.STATE p
  if st ≠ 1 && st ≠ 3 then d else
  let bad := ((d.port p).failing ++ failed).eraseDups.filter fun l => bitAt (d.get KL_PORT_STAT.LANES p) l
  if !ok || d.laneCount p < 3 + bad.length then (if bad.isEmpty then d else d.degrade 3).portDown p
  else
    let d1 := bad.foldl (fun e l => e.laneOut p l) (d.setPort p { d.port p with failing := [] })
    let d2 := d1.set KL_PORT_STAT.STATE p 2
    let d3 := if d2.get KL_PORT_CTL.EN p = 1 then
        ((d2.set KL_PORT_STAT.NBR_DEV p nbrDev).set KL_PORT_STAT.NBR_PORT p nbrPort).set KL_PORT_STAT.NBR_VALID p 1
      else d2
    (d3.setPort p { d3.port p with ackTime := d3.now }).resend p

/-- Re-striping ends and traffic resumes (Table 13-4), after a retraining that has begun meanwhile (R390).
Log: 192 (DEDUCED). -/
def Dev.restriped (d : Dev) (p : Nat) : Dev :=
  match (d.port p).retiring with
  | none => d
  | some l => ((d.setPort p { d.port p with retiring := none, ackTime := d.now }).laneOut p l).resend p

/-- Corrected symbols and uncorrectable codewords of a lane in the second that has ended (R393). -/
def Dev.laneRate (d : Dev) (p l ce ue : Nat) : Dev :=
  if 12 ≤ p || 4 ≤ l then d else
  let d1 := (d.count KL_FEC_CE_CNT (4 * p + l) ce).count KL_FEC_UE_CNT p ue
  if 2 ^ d1.get KL_LANE_CTL.SER_EXP 0 < ce then d1.laneRetire p l else d1

/-- A lane loses lock (R393). -/
def Dev.laneLoss (d : Dev) (p l : Nat) : Dev :=
  if 12 ≤ p || 4 ≤ l then d else
  let x := d.port p
  let recent := (x.losses.filter fun q => decide (d.now < q.2 + 1000000000)) ++ [(l, d.now)]
  let d1 := d.setPort p { x with losses := recent }
  if d1.get KL_LANE_CTL.LOL_N 0 ≤ (recent.filter fun q => q.1 == l).length then d1.laneRetire p l else d1

/-- WAKE goes out on ports (R563); a port that retrains sends nothing (R390). -/
def Dev.wakeSend (d : Dev) (ports : Nat) : Dev :=
  ((List.range 12).filter fun p => bitAt ports p && d.get KL_PORT_STAT.STATE p != 3).foldl (fun (e : Dev) p => e.sendLink p lcWake 0) d

/-! ## Receiving -/

/-- An acknowledgment covers flits of the replay buffer (R389). -/
def PortSt.acked (x : PortSt) (ack now : Nat) : PortSt :=
  match findIdx? (fun f => f.seq == ack) x.replay 0 with
  | some (k, _) => { x with replay := x.replay.drop (k + 1), ackTime := now }
  | none => x

/-- Returned credits are credited. -/
def PortSt.credited (x : PortSt) (c : Credit) : PortSt :=
  if c.count = 0 then x else { x with used := tset (fun _ => 0) x.used c.key (tget (fun _ => 0) x.used c.key - c.count) }

/-- A NAK of a SEQ goes out (R389). -/
def Dev.sendNak (d : Dev) (p : Nat) : Dev :=
  (d.setPort p { d.port p with nakSent := true }).sendLink p lcNak (d.port p).rxSeq

/-- Forward a data flit for another device (R396, R397). A flit with no usable port is discarded. Log: 94 (DEDUCED). -/
def Dev.forward (d : Dev) (p : Nat) (f : Flit) : Dev :=
  let key := 2 * f.cls + f.vl
  if 63 < f.hops + 1 then (d.count KL_DROP_CNT 0 1).owe p key else
  let path := 4 * f.src + f.cls + 2 ^ 18 * f.dst
  let chosen := match d.kl.paths.find? fun q => q.1 == path with
    | some q => if d.linked (q.2 / 2) then some (q.2 / 2, q.2 % 2 == 1) else none
    | none => d.route f.dst
  match chosen with
  | none => d.owe p key
  | some (q, up) =>
    let rest := d.kl.paths.filter fun r => r.1 != path
    let d1 := { d with kl := { d.kl with paths := if f.last then rest else rest ++ [(path, 2 * q + bit up)] } }
    d1.queueFlit q { f with hops := f.hops + 1, vl := if up then 1 else f.vl, via := some p }

/-- A flit accepted in sequence (R388, R389, R392): forwarded, dropped for its TYPE, or taken by the device, which frees its
buffer at once. -/
def Dev.accept (d : Dev) (p : Nat) (f : Flit) : Dev :=
  if reservedFlit f.typ then (d.count KL_DROP_CNT 0 1).owe p f.key
  else if !f.control && f.dst != d.devId then d.forward p f
  else d.owe p f.key

/-- A flit arrives on a port (R389). -/
def Dev.flitReceive (d : Dev) (p : Nat) (b : List (BitVec 8)) : Dev :=
  if d.get KL_PORT_STAT.STATE p ≠ 2 then d
  else if !flitCrcOk b then d.sendNak p
  else
    let q := parseFlit b
    let f := q.1
    let x := (d.port p).acked q.2.1 d.now
    if f.typ ≤ 1 then (d.setPort p (x.credited q.2.2)).pumpAll p
    else if d.get KL_PORT_CTL.EN p = 0 then d
    else if f.seq = x.rxSeq then
      (((d.setPort p { x.credited q.2.2 with rxSeq := (x.rxSeq + 1) % 4096, nakSent := false }).accept p f)).pumpAll p
    else if 0 < (x.rxSeq + 4096 - f.seq) % 4096 ∧ (x.rxSeq + 4096 - f.seq) % 4096 ≤ 2048 then (d.setPort p x).pumpAll p
    else if x.nakSent then (d.setPort p x).pumpAll p
    else ((d.setPort p x).sendNak p).pumpAll p

/-- A NAK arrives (R389, R390): replay restarts from the SEQ it names. -/
def Dev.nak (d : Dev) (p seq : Nat) : Dev :=
  if d.get KL_PORT_STAT.STATE p ≠ 2 then d else
  let x := (d.port p).acked ((seq + 4095) % 4096) d.now
  let run := if x.nakSeq = some seq then x.nakRun + 1 else 1
  let d1 := d.setPort p { x with nakSeq := some seq, nakRun := run }
  if 8 ≤ run then d1.portRetrain p else (d1.count KL_REPLAY_CNT p 1).resend p

/-- A port is enabled or disabled (R395, R398). Log: 97 (DEDUCED). -/
def Dev.portEnable (d : Dev) (p : Nat) (en : Bool) : Dev :=
  let old := d.get KL_PORT_CTL.EN p
  let d1 := d.set KL_PORT_CTL.EN p (bit en)
  if en then
    if old = 1 || (d.get KL_PORT_STAT.STATE p ≠ 0 && d.get KL_PORT_STAT.STATE p ≠ 2) then d1
    else (d1.setPort p PortSt.init).set KL_PORT_STAT.STATE p 1
  else if old = 0 && d.get KL_PORT_STAT.STATE p ≠ 4 then d1
  else (((d1.clearPort p).set KL_PORT_STAT.STATE p 0).set KL_PORT_STAT.NBR_VALID p 0)

/-! ## The commands -/

/-- With bytes, an IDLE flit arrives; without, the port sends one. -/
def execIdleFlit (p : Nat) (bytes : Option (List (BitVec 8))) (s : State) := s.onUnit 12 p fun d =>
  match bytes with
  | some b => if (parseFlit b).1.typ = 0 then d.flitReceive p b else d
  | none =>
    if d.get KL_PORT_STAT.STATE p = 2 then
      d.fly p ⟨0, 0, 0, false, 0, d.get KL_PORT_STAT.NBR_DEV p, false, d.devId, 0, [], none, none⟩
    else d

def execFlitReceive (p : Nat) (bytes : List (BitVec 8)) (s : State) := s.onDev fun d => if p < 12 then d.flitReceive p bytes else d

def execLinkCtlNak (p seq : Nat) (s : State) := s.onDev fun d => if p < 12 then d.nak p seq else d

def execLinkCtlLaneRetire (p l : Nat) (s : State) := s.onDev fun d => if p < 12 ∧ l < 4 then d.laneRetire p l else d

def execLinkCtlRetrain (p : Nat) (s : State) := s.onDev fun d => if p < 12 then d.portRetrain p else d

def execAckTimeout (p : Nat) (s : State) := s.onDev fun d =>
  let x := d.port p
  if p < 12 ∧ x.replay ≠ [] ∧ x.ackTime + 20000 ≤ d.now then d.portRetrain p else d

def execPortRetrain (fn p : Nat) (s : State) := s.onHost fn KL_PORT_CTL fun d => if fn = 0 ∧ p < 12 then d.portRetrain p else d

def execPortRetrainDone (p : Nat) (ok : Bool) (failed : List Nat) (nbrDev nbrPort : Nat) (s : State) := s.onDev fun d =>
  if p < 12 then d.portTrained p ok failed nbrDev nbrPort else d

def execLaneRetire (fn p : Nat) (s : State) := s.onHost fn KL_PORT_CTL fun d =>
  if fn = 0 ∧ p < 12 then d.laneRetire p (d.get KL_PORT_CTL.LANE p) else d

def execLaneRateCheck (p l ce ue : Nat) (s : State) := s.onUnit 12 p fun d => d.laneRate p l ce ue

def execLaneLossOfLock (p l : Nat) (s : State) := s.onUnit 12 p fun d => d.laneLoss p l

def execLaneRestripeDone (p : Nat) (s : State) := s.onDev fun d => if p < 12 then d.restriped p else d

def execPortEnable (fn p : Nat) (en : Bool) (s : State) := s.onHost fn KL_PORT_CTL fun d => if fn = 0 ∧ p < 12 then d.portEnable p en else d

def execDevIdWrite (fn val : Nat) (s : State) := s.onHost fn KL_DEV_ID fun d =>
  if fn = 0 && (List.range 12).all fun p => d.get KL_PORT_CTL.EN p == 0 then d.set KL_DEV_ID.ID 0 val else d

end Sys2Proof.Machine
end

