-- ==== Sys2Proof/Machine/Net.lean ====
section
/-! DEFINITION. Yarns and the injection of Note requests (Spindles, Benches, Yarns and the Note path). -/

namespace Sys2Proof.Machine

/-! ## Yarns -/

/-- Receive buffer words and words in flight of an input port (`4 × physical index + port`). -/
def Dev.yBuf (d : Dev) (k : Nat) : List YarnWord := tget (fun _ => []) d.net.bufs k
def Dev.yWire (d : Dev) (k : Nat) : List YarnWord := tget (fun _ => []) d.net.wires k
def Dev.setYBuf (d : Dev) (k : Nat) (l : List YarnWord) : Dev := { d with net := { d.net with bufs := tset (fun _ => []) d.net.bufs k l } }
def Dev.setYWire (d : Dev) (k : Nat) (l : List YarnWord) : Dev := { d with net := { d.net with wires := tset (fun _ => []) d.net.wires k l } }

/-- Credits towards an input port (R53). -/
def Dev.yCredit (d : Dev) (k : Nat) : Nat := tget (fun _ => 256) d.net.credits k
def Dev.setYCredit (d : Dev) (k n : Nat) : Dev := { d with net := { d.net with credits := tset (fun _ => 256) d.net.credits k n } }

/-- Tile-end markers received on an input port and not consumed (Table 08-4). -/
def Dev.yMarks (d : Dev) (k : Nat) : Nat := tget (fun _ => 0) d.net.marks k
def Dev.setYMarks (d : Dev) (k n : Nat) : Dev := { d with net := { d.net with marks := tset (fun _ => 0) d.net.marks k n } }

/-- The input ports that an output port drives in the active variant (R54, R92). -/
def Dev.yarnTo (d : Dev) (i port : Nat) : List Nat :=
  match d.spindleRoom i with
  | none => []
  | some r =>
    match (d.room r).bankA.find? fun l => yarnSrc l.entry == (d.logicalOf i, port) with
    | some l => (yarnDsts l.entry).filterMap fun q => (d.physOf q.1).map fun j => 4 * j + q.2
    | none => []

/-- The logical Spindle whose Yarn reaches an input port (Table 18-8). -/
def Dev.yarnFrom (d : Dev) (i port : Nat) : Nat :=
  match d.spindleRoom i with
  | none => 0xFFFF
  | some r =>
    match (d.room r).bankA.find? fun l => (yarnDsts l.entry).contains (d.logicalOf i, port) with
    | some l => (yarnSrc l.entry).1
    | none => 0xFFFF

/-- Every destination of an output port grants `n` credits (R53). -/
def Dev.mayYarn (d : Dev) (i port n : Nat) : Bool := (d.yarnTo i port).all fun k => decide (n ≤ d.yCredit k)

/-- Send a word on an output port (R52, R53). Log: 34 (DEDUCED). -/
def Dev.sendYarn (d : Dev) (i port data marker : Nat) : Dev :=
  (d.yarnTo i port).foldl (fun e k => (e.setYWire k (e.yWire k ++ [⟨data, marker, []⟩])).setYCredit k (e.yCredit k - 1))
    (d.send (.yarn i port data marker))

/-- The numbers below 16 in a list: 32-bit words of a 64-byte word. -/
def wordsIn (l : List Nat) : List Nat := (List.range 16).filter fun k => l.contains k

/-- A word arrives on an input port and is checked 32-bit word by 32-bit word (R52, R61): those of `ce` are corrected and counted,
those of `ue` are poisoned, and stop the receiving Spindle's command. Log: 33 (DEDUCED). -/
def Dev.yarnArrive (d : Dev) (i port : Nat) (ce ue : List Nat) : Dev :=
  let k := 4 * i + port
  if 4 ≤ port then d else
  match d.yWire k with
  | [] => d
  | w :: t =>
    let bad := wordsIn ue
    let d1 := (d.setYWire k t).setYBuf k (d.yBuf k ++ [{ w with bad := wordsIn (w.bad ++ bad) }])
    let d2 := if w.marker = 2 then d1.setYMarks k (d1.yMarks k + 1) else d1
    let d3 := d2.count SPX_LINK_CE i ((wordsIn ce).filter fun n => !bad.contains n).length
    if bad.isEmpty then d3 else d3.spindleFault i 4 0x0B03 (d.yarnFrom i port) 0

/-- A Desk allocation of the active frame as base and size, for a kind (R86). -/
def Dev.allocs (d : Dev) (i kind : Nat) : List (Nat × Nat) :=
  let f := deskBase i + offActive
  ((List.range (min 128 (d.rdByte (f + 9)).toNat)).filter fun k => (d.rdByte (f + 0x108 + 32 * k)).toNat == kind).map fun k =>
    (d.rdLe (f + 0x100 + 32 * k) 4, d.rdLe (f + 0x104 + 32 * k) 4)

/-- Where a word that leaves a receive buffer goes in the Desk: the open address, kept within the Yarn allocations of the
frame. Log: 31 (DESIGN CHOICE). -/
def Dev.yarnAddr (d : Dev) (i port n : Nat) : Nat :=
  let a := 64 * (Config.yarnPlace i port n % 131072)
  let ws := d.allocs i 1
  if ws.any fun w => decide (w.1 ≤ a) && decide (a + 64 ≤ w.1 + w.2) then a
  else match ws with
    | w :: _ => w.1 + 64 * n % w.2
    | [] => a

/-- The oldest word of a receive buffer leaves for the Desk and its credit returns (R53), with the errors met as it is read (R42).
Its poisoned words stay poisoned. Log: 31 (DESIGN CHOICE); 32 (DEDUCED). -/
def Dev.yarnLeave (d : Dev) (i port : Nat) (ce ue : List Nat) : Dev :=
  let k := 4 * i + port
  if 4 ≤ port then d else
  match d.yBuf k with
  | [] => d
  | w :: t =>
    let n := tget (fun _ => 0) d.net.placed k
    let a := deskBase i + d.yarnAddr i port n
    let d1 := (d.setYBuf k t).wrDesk i a (toLe 64 w.data)
    let d2 := (wordsIn (w.bad ++ ue)).foldl (fun (e : Dev) j => e.poisonWords (a + 4 * j) 4) d1
    let d3 := { d2 with net := { d2.net with placed := tset (fun _ => 0) d2.net.placed k (n + 1) } }
    ((d3.setYCredit k (min 256 (d3.yCredit k + 1))).send (.yarnCredit i port)).receiveError i port (wordsIn ce) (wordsIn ue)

/-! ## Note requests -/

/-- Note packet types (Table 02-7). -/
def ntWrite : Nat := 0
def ntRead : Nat := 1
def ntAtomic : Nat := 2
def ntSignal : Nat := 3
def ntAck : Nat := 8
def ntReadResp : Nat := 9
def ntAtomicResp : Nat := 10
def ntNack : Nat := 11

/-- A request type. -/
def noteRequest (t : Nat) : Bool := decide (t ≤ 3)

/-- A type that is not reserved (Table 02-7). -/
def noteKnown (t : Nat) : Bool := decide (t ≤ 3) || (decide (8 ≤ t) && decide (t ≤ 11))

/-- Bytes that a request moves at its destination. -/
def NotePacket.bytes (p : NotePacket) : Nat := if p.typ = ntRead then 4 * (p.len + 1) else p.payload.length

/-- The endpoint may send the packet (R64). -/
def NotePacket.formatOk (p : NotePacket) : Bool :=
  p.payload.length % 4 == 0 && decide (p.payload.length ≤ 256) &&
    (if p.dst ≤ 0x401 then p.addr % 4 == 0 && decide (p.addr % 256 + p.bytes ≤ 256) else true)

/-- Requests of an endpoint that have not been answered (R70). -/
def Dev.notesOf (d : Dev) (i : Nat) : List NoteReq := d.net.notes.filter fun q => q.src == i

/-- The lowest free tag of an endpoint, none where all 64 are held (R70). -/
def Dev.noteTag (d : Dev) (i : Nat) : Option Nat :=
  (List.range 64).find? fun t => !(d.notesOf i).any fun q => q.tag == t

/-- PRIO of a Spindle's requests: the level of its Room's running RUN command, a raise excluded (R134, R135, R154), and 3 while none
runs. Log: 178 (DESIGN CHOICE). -/
def Dev.notePrio (d : Dev) (i : Nat) : Nat :=
  match (d.spindleRoom i).bind d.running with
  | some c => c.level
  | none => 3

/-- The physical endpoint of a destination that code names: a logical Spindle index is translated (R67); an unmapped one
becomes a reserved endpoint. -/
def Dev.noteDst (d : Dev) (dst : Nat) : Nat := if dst < 0x400 then (d.physOf dst).getD 0xFFF else dst

/-- A request may be injected now: a tag is free, and with FENCE nothing is unanswered (R65, R70). -/
def Dev.mayInject (d : Dev) (i : Nat) (fence : Bool) : Bool :=
  (d.noteTag i).isSome && (!fence || (d.notesOf i).isEmpty)

/-- A Note failure (R365): it aborts the RUN command (R366). Log: 90 (DEDUCED). -/
def Dev.noteFail (d : Dev) (i code : Nat) (stream : Option Nat) (unit addr : Nat) : Dev :=
  match stream with
  | some s => d.streamFault i code s unit addr
  | none => (d.drew.drew).streamFault i code d.freeWord d.drew.freeWord addr

/-- Inject a request of Spindle `i` (R64 to R67, R70), or refuse it with 0x0330. A reserved TYPE is dropped at the first
router (R66). `dst` still names a logical Spindle. A Spindle of no Room sends as Room 0. Log: 179 (DESIGN CHOICE). -/
def Dev.inject (d : Dev) (i : Nat) (p : NotePacket) (stream : Option Nat) (unit off : Nat) : Dev :=
  if !d.mayInject i p.fence then d else
  let q := { p with
    dst := d.noteDst p.dst
    src := i
    room := (d.spindleRoom i).getD 0
    prio := d.notePrio i
    tag := (d.noteTag i).getD 0 }
  if !q.formatOk then d.noteFail i 0x0330 stream unit p.addr else
  let w0 := q.typ % 16 + q.prio % 4 * 2 ^ 4 + q.room % 16 * 2 ^ 6 + q.len % 64 * 2 ^ 10 + bit q.fence * 2 ^ 16 + q.tag % 64 * 2 ^ 24
  let d1 := d.send (.note w0 (q.dst % 2 ^ 12 + q.src % 2 ^ 12 * 2 ^ 12) (q.addr % 2 ^ 32)
    (q.addr / 2 ^ 32 % 2 ^ 20 + q.op % 16 * 2 ^ 20) q.payload)
  let r : NoteReq := ⟨i, q.tag, d.now, stream, unit, off, q.bytes, p.addr, q.typ == ntWrite, false⟩
  let d2 := { d1 with net := { d1.net with notes := d1.net.notes ++ [r] } }
  if noteKnown q.typ then { d2 with net := { d2.net with flight := d2.net.flight ++ [q] } }
  else d2.count SPX_NOTE_DROP 0 1

def execYarnWordArrive (i port : Nat) (ce ue : List Nat) (s : State) := s.onUnit 1024 i fun d => d.yarnArrive i port ce ue

def execYarnCreditReturn (i port : Nat) (ce ue : List Nat) (s : State) := s.onUnit 1024 i fun d => d.yarnLeave i port ce ue

def execNoteInject (i : Nat) (p : NotePacket) (s : State) := s.onDev fun d => if i < 1024 then d.inject i p none 0 0 else d

end Sys2Proof.Machine
end

