-- ==== Sys2Proof/Machine/Reels.lean ====
section
/-! DEFINITION. Reels: streams and units, requests and tags, buffers, Skein streams, remote streams and contributions,
faults, quiescing and resuming (Reels, streaming and DMA, R347 to R371; Skein compression; R418 to R423). -/

namespace Sys2Proof.Machine

/-! ## The Reel program -/

/-- Traffic class of a stream (R350). -/
def streamClass (kind : Nat) : Nat := if kind = 1 ∨ kind = 3 then 0 else if kind = 2 then 1 else 2

/-- Count bytes of unit `u`. -/
def StreamSt.add (x : StreamSt) (u n : Nat) : StreamSt := { x with got := tset (fun _ => 0) x.got u (x.have u + n) }

/-- A stream's state. -/
def Dev.strm (d : Dev) (i s : Nat) : StreamSt := nth (StreamSt.start true 0) (d.reel i).streams s
def Dev.setStrm (d : Dev) (i s : Nat) (x : StreamSt) : Dev := d.setReel i { d.reel i with streams := setNth x (d.reel i).streams s }

/-- The AFTER condition of unit `u` holds (Table 12-2). -/
def Dev.afterOk (d : Dev) (i s u : Nat) : Bool :=
  let a := d.stf i s 5 1
  a == 0xFF || decide (u < (d.strm i a).floor) || decide (d.unitLen i a u ≤ (d.strm i a).have u)

/-- Unit `u` of a stream may be worked on (R359). -/
def Dev.unitOpen (d : Dev) (i s u : Nat) : Bool :=
  let x := d.strm i s
  decide (u < d.stUnits i s) && d.afterOk i s u
    && (if x.read then decide (u < d.stBufs i s) || decide (u - d.stBufs i s < x.passed) else decide (u < x.passed))

/-- A buffer is ready for the next unit that the microsequence expects (R359). -/
def Dev.bufferReady (d : Dev) (i s : Nat) : Bool :=
  let x := d.strm i s
  let u := x.waited
  if x.read then decide (u < d.stUnits i s) && decide (d.unitLen i s u ≤ x.have u)
  else decide (u < d.stBufs i s) || decide (u - d.stBufs i s < x.unit)

/-- The stream whose ring holds a buffer table entry (R360). -/
def Dev.streamOfBuf (d : Dev) (i e : Nat) : Option Nat :=
  (List.range (d.reel i).streams.length).find? fun s => decide (d.stf i s 6 2 ≤ e) && decide (e < d.stf i s 6 2 + d.stBufs i s)

/-! ## Tags -/

/-- The lowest free tag of a kind (R348). -/
def Dev.freeTag (d : Dev) (i : Nat) (write : Bool) : Option Nat :=
  (List.range (if write then 128 else 384)).find? fun t => !(d.reel i).tags.any fun x => x.write == write && x.tag == t

/-- Show the tags held. -/
def Dev.showTags (d : Dev) (i : Nat) : Dev :=
  let ts := (d.reel i).tags
  (d.set STR_STAT.RD_OUT i (ts.filter fun t => !t.write).length).set STR_STAT.WR_OUT i (ts.filter fun t => t.write).length

/-- Hold a tag. -/
def Dev.holdTag (d : Dev) (i : Nat) (t : ReelTag) : Dev :=
  (d.setReel i { d.reel i with tags := (d.reel i).tags ++ [t] }).showTags i

/-- Free a tag. -/
def Dev.freeTagOf (d : Dev) (i : Nat) (t : ReelTag) : Dev :=
  (d.setReel i { d.reel i with tags := (d.reel i).tags.filter fun x => x != t }).showTags i

/-- A tag that a Reel holds. -/
def Dev.tag? (d : Dev) (i tag : Nat) (write : Bool) : Option ReelTag :=
  (d.reel i).tags.find? fun t => t.write == write && t.tag == tag

/-! ## Requests -/

/-- Bytes from an address to the next interleave granule of its tier (R347). Log: 88 (DEDUCED). -/
def granuleLeft (a : Nat) : Nat := if a < spareEnd then 2048 - a % 2048 else 8192 - (a - ctBase) % 8192

/-- Issue a read or a write of memory under a tag (R347, R348); none where no tag is free. Log: 88 (DEDUCED). -/
def Dev.askMem (d : Dev) (i : Nat) (write : Bool) (s unit row off a n : Nat) (index : Bool) (data : List (BitVec 8)) : Option Dev :=
  (d.freeTag i write).map fun t =>
    let p := d.request (.reel i t) (d.spindleRoom i) write a n data []
    p.1.holdTag i ⟨t, write, d.get STR_STAT.GEN i, s, unit, row, off, n, a, index, .mem p.2⟩

/-- A stream moves on by `n` bytes of its present row, of length `len` (R354). -/
def StreamSt.advance (x : StreamSt) (n len rows start : Nat) : StreamSt :=
  if x.off + n < len then { x with off := x.off + n }
  else if x.row + 1 < rows then { x with row := x.row + 1, off := 0, lastEnd := some (start + len) }
  else { x with unit := x.unit + 1, row := 0, off := 0, lastEnd := some (start + len) }

/-- A read of Spindle storage by an engine met the poison pattern (R519): the abort, with a record of class information. -/
def Dev.poisonRead (d : Dev) (i addr : Nat) : Dev :=
  let room := d.spindleRoom i
  let d1 := match room with
    | some r => d.abortRun r 0x0B01 (d.logicalOf i)
    | none => d
  d1.log 1 0 2 room (d1.strikesOf (.spindle i)) i (d.logicalOf i) (addr % 2 ^ 24) 0x0B01

/-- A row goes over the Note path (R364); `start` is the row's address. -/
def Dev.viaNote (d : Dev) (i s start : Nat) : Bool :=
  !d.stFlag i s 0 && decide (d.stRow i s ≤ 256)
    && (d.streamKind i s == 3 || match (d.strm i s).lastEnd with
        | some e => e != start
        | none => false)

/-- The Note endpoint of a memory address (Table 02-8). -/
def memEndpoint (a : Nat) : Nat := if a < ctBase then 0x400 else 0x401

/-- The next request of a READ, GATHER or WRITE stream's present row at `start` (R347, R354, R364). Log: 88 (DEDUCED). -/
def Dev.askRow (d : Dev) (i s start : Nat) (write : Bool) : Option Dev :=
  let x := d.strm i s
  let len := d.stRow i s
  let a := start + x.off
  let off := x.row * len + x.off
  let src := d.bufAddr i s x.unit + off
  let note := d.viaNote i s start
  let n := min (len - x.off) (if note then 256 - a % 256 else min 512 (granuleLeft a))
  let next := x.advance n len (d.stUnitRows i s) start
  if write && d.poisonedW src n then some (d.poisonRead i src)
  else if note then
    if d.mayInject i false then
      let p : NotePacket := ⟨if write then ntWrite else ntRead, 0, 0, (n + 3) / 4 - 1, false, 0, memEndpoint a, 0, a, 0,
        if write then d.rdBytes src n else []⟩
      if n % 4 = 0 then some ((d.setStrm i s next).inject i p (some s) x.unit off)
      else some (d.noteFail i 0x0330 (some s) x.unit a)
    else none
  else
    (d.askMem i write s x.unit 0 off a n false (if write then d.rdBytes src n else [])).map fun e => e.setStrm i s next

/-- Element `k` of a row of raw bytes at width `w`. -/
def rowElem (w : Nat) (row : List (BitVec 8)) (k : Nat) : Nat := unpack w (ofLe row) k

/-- Write a unit that has come whole in panel form (R356): element `i` of panel row `k` is element `k` of row `i`. -/
def Dev.writePanel (d : Dev) (i s u : Nat) (raw : List (BitVec 8)) : Dev :=
  let w := if d.stFlag i s 2 then 8 else fmtWidth (d.stf i s 4 1)
  let n := d.stRow i s * 8 / w
  let rows := chunks (d.stRow i s) 128 raw
  let out := (List.range n).map fun k => packCodes w (rows.map fun r => rowElem w r k)
  d.wrDesk i (d.bufAddr i s u) out.flatten

/-- Put the pieces of a unit together. -/
def joinPieces (ps : List (Nat × List (BitVec 8))) (n : Nat) : List (BitVec 8) :=
  (List.range n).map fun k =>
    match ps.find? fun p => decide (p.1 ≤ k) && decide (k < p.1 + p.2.length) with
    | some p => nth 0 p.2 (k - p.1)
    | none => 0

/-- Data of a read-side stream lies in its buffer (R356, R359); that of a PANEL stream is put in panel form once its unit is whole.
Log: 171 (DEDUCED). -/
def Dev.fill (d : Dev) (i s u off : Nat) (bs : List (BitVec 8)) : Dev :=
  let x := d.strm i s
  if d.stFlag i s 1 then
    let y := { x.add u bs.length with pieces := x.pieces ++ [(u, off, bs)] }
    if d.unitLen i s u ≤ y.have u then
      let mine := (y.pieces.filter fun p => p.1 == u).map fun p => p.2
      (d.setStrm i s { y with pieces := y.pieces.filter fun p => p.1 != u }).writePanel i s u (joinPieces mine (d.unitLen i s u))
    else d.setStrm i s y
  else (d.setStrm i s (x.add u bs.length)).wrDesk i (d.bufAddr i s u + off) bs

/-- Entry `j` of the index list, once its four bytes have come (R357). -/
def StreamSt.entry (x : StreamSt) (j : Nat) : Option Nat :=
  let bs := (List.range 4).filterMap fun k => (x.index.find? fun p => p.1 == 4 * j + k).map fun p => p.2
  if bs.length = 4 then some (ofLe bs) else none

/-- The next request of a GATHER stream (R357): the row that its index entry names, or the read that brings the entry. A row of the
empty index is zeros. -/
def Dev.askGather (d : Dev) (i s : Nat) : Option Dev :=
  let x := d.strm i s
  let j := x.unit * d.stUnitRows i s + x.row
  match x.entry j with
  | some v =>
    if v = 0xFFFFFFFF then
      let len := d.stRow i s
      let y := { x with index := x.index.filter fun p => decide (4 * j + 4 ≤ p.1) }.advance len len (d.stUnitRows i s) 0
      some ((d.setStrm i s y).fill i s x.unit (x.row * len) (List.replicate len 0))
    else d.askRow i s (((d.stf i s 0x10 8 : Int) + (v : Int) * toSigned 32 (d.stf i s 0x40 4)).toNat) false
  | none =>
    let o := max x.idxNext (4 * j)
    if 4 * j + 4 ≤ x.idxNext then none else
    let a := d.stf i s 0x18 8 + o
    let n := min (4 * (d.stUnitRows i s * d.stUnits i s) - o) (min 512 (granuleLeft a))
    (d.askMem i false s x.unit 0 o a n true []).map fun e => e.setStrm i s { x with idxNext := o + n }

/-- The slot that a stream's blocks reference. -/
def Dev.stSlot (d : Dev) (i s : Nat) : Nat := d.stf i s 3 1

/-- Change a block in a Reel. -/
def Dev.setBlock (d : Dev) (i : Nat) (b c : SkBlock) : Dev :=
  d.setReel i { d.reel i with blocks := (d.reel i).blocks.map fun x => if x == b then c else x }

/-- A block leaves the Reel and its reference ends (R301). -/
def Dev.endBlock (d : Dev) (i : Nat) (b : SkBlock) : Dev :=
  (d.unref i [b]).setReel i { (d.unref i [b]).reel i with blocks := (d.reel i).blocks.filter fun x => x != b }

/-- A block begins its reference to a table slot, where it has one (R301). -/
def Dev.slotTake (d : Dev) (r : Nat) (slot : Option Nat) : Dev :=
  match slot with
  | some s => d.slotRef r s
  | none => d

/-- The next request of a Skein stream being read (R304, R305): the rest of a block whose header has been checked, or the
header of the next block, held while the slot that it would reference is closed (R301). -/
def Dev.askSkeinRead (d : Dev) (i s r : Nat) : Option Dev :=
  let x := d.strm i s
  match (d.reel i).blocks.find? fun b => !b.write && b.stream == s && (b.size == 0 || decide (b.asked < b.size)) with
  | some b =>
    if b.size = 0 then none else
    let a := b.addr + b.asked
    let n := min (b.size - b.asked) (min 512 (granuleLeft a))
    (d.askMem i false s (b.row / max 1 (d.stUnitRows i s)) b.row b.asked a n false []).map fun e => e.setBlock i b { b with asked := b.asked + n }
  | none =>
    let j := x.unit * d.stUnitRows i s + x.row
    let a := d.rowAddr i s j
    let slot := d.codedSlot a
    if !d.unitOpen i s x.unit || decide (2 ≤ ((d.reel i).blocks.filter fun b => !b.write).length) || slot.any (d.slotHeld r) then none else
    let n := min 512 (granuleLeft a)
    (d.askMem i false s x.unit j 0 a n false []).map fun e =>
      let e1 := (e.slotTake r slot).setStrm i s (x.advance 1 1 (d.stUnitRows i s) a)
      e1.setReel i { e1.reel i with blocks := (e1.reel i).blocks ++ [⟨false, s, j, a, slot, 0, n, [], []⟩] }

/-- The next request of a Skein stream being written (R297, R301): the encoder's stored bytes, in requests of at most 512. -/
def Dev.askSkeinWrite (d : Dev) (i s r : Nat) : Option Dev :=
  let x := d.strm i s
  let slot := d.stSlot i s
  match (d.reel i).blocks.find? fun b => b.write && b.stream == s && decide (b.asked < b.size) with
  | some b =>
    let a := b.addr + b.asked
    let n := min (b.size - b.asked) (min 512 (granuleLeft a))
    let all := (b.pieces.map fun p => p.2).flatten
    (d.askMem i true s (b.row / max 1 (d.stUnitRows i s)) b.row b.asked a n false ((all.drop b.asked).take n)).map fun e =>
      e.setBlock i b { b with asked := b.asked + n }
  | none =>
    if !d.unitOpen i s x.unit || d.slotHeld r slot then none else
    let j := x.unit * d.stUnitRows i s + x.row
    let len := d.rowLen i s j
    let src := d.bufAddr i s x.unit + x.row * 4096
    if d.poisonedW src len then some (d.poisonRead i src) else
    let q := skEncode (d.skTable r slot) slot (d.stf i s 2 1) (d.rdBytes src len)
    let a := d.rowAddr i s j
    let n := min q.1.length (min 512 (granuleLeft a))
    (d.askMem i true s x.unit j 0 a n false (q.1.take n)).map fun e =>
      let e1 := ((e.slotRef r slot).skCount r len q.1.length).setStrm i s (x.advance 1 1 (d.stUnitRows i s) a)
      let e2 := if q.2 then e1.count SKN_RAWBLK_CNT r 1 else e1
      e2.setReel i { e2.reel i with blocks := (e2.reel i).blocks ++ [⟨true, s, j, a, some slot, q.1.length, n, [(0, q.1)], []⟩] }

/-! ## Remote streams -/

/-- The job tag of a Spindle's Room (R399). -/
def Dev.jobOf (d : Dev) (i : Nat) : Nat :=
  match d.spindleRoom i with
  | some r => d.get KL_ROOM_JOB.JOB r
  | none => 0

/-- A message that will be answered takes the next number (R399). -/
def Dev.remember (d : Dev) (q : Remote) : Dev := { d with kl := { d.kl with nextRemote := q.id + 1, remotes := d.kl.remotes ++ [q] } }

/-- Latch a remote failure (R399). -/
def Dev.remoteErr (d : Dev) (code dev : Nat) : Dev := (d.set KL_REMOTE_ERR.CODE 0 code).set KL_REMOTE_ERR.DEV 0 dev

/-- Send a remote message under a tag, or fail the stream where no port is usable (R358, R396, R399). -/
def Dev.askRemote (d : Dev) (i s typ dev unit off a n : Nat) (fields : List Nat) (data : List (BitVec 8)) (next : StreamSt) : Option Dev :=
  let write := typ != 9
  (d.freeTag i write).map fun t =>
    let id := d.kl.nextRemote
    let d1 := d.remember ⟨id, .reel i t, dev, none⟩
    let p := d1.sendMsg dev typ (d.notePrio i) ([d.jobOf i, id] ++ fields) data false (some id)
    if p.2 then
      let e := p.1
      (e.setStrm i s next).holdTag i ⟨t, write, d.get STR_STAT.GEN i, s, unit, 0, off, n, a, false, .remote id⟩
    else (d.remoteErr 0x0601 dev).streamFault i 0x0321 s unit a

/-- The next message of a REMOTE_READ or REMOTE_WRITE stream (R358). Log: 98 (DEDUCED). -/
def Dev.askRemoteRow (d : Dev) (i s : Nat) (write : Bool) : Option Dev :=
  let x := d.strm i s
  let j := x.unit * d.stUnitRows i s + x.row
  let start := d.rowAddr i s j
  let len := d.stRow i s
  let off := x.row * len + x.off
  let n := min (len - x.off) 512
  let src := d.bufAddr i s x.unit + off
  if write && d.poisonedW src n then some (d.poisonRead i src) else
  d.askRemote i s (if write then 8 else 9) (d.stf i s 0x20 2 % 32768) x.unit off (start + x.off) n [start + x.off, n]
    (if write then d.rdBytes src n else []) (x.advance n len (d.stUnitRows i s) start)

/-! ## Contributions -/

/-- A field of the ACC part of a stream entry (Table 14-4). -/
def Dev.accf (d : Dev) (i s off n : Nat) : Nat := d.stf i s (0x60 + off) n

/-- Roll call's state of a Room. -/
def Dev.rc (d : Dev) (r : Nat) : RcSt := tget (fun _ => RcSt.init) d.kl.rc r
def Dev.setRc (d : Dev) (r : Nat) (x : RcSt) : Dev := { d with kl := { d.kl with rc := tset (fun _ => RcSt.init) d.kl.rc r x } }

/-- STEP of a Room now (Table 13-6); 0 before the bases are latched. Log: 103 (DEDUCED). -/
def Dev.rcStep (d : Dev) (r : Nat) : Nat :=
  match (d.rc r).bases with
  | some b => (d.get64 TT_ROUND_CNT_LO TT_ROUND_CNT_HI 0 + 2 ^ 64 - b.1) % 2 ^ 64
  | none => 0

/-- One carrier element (R418): q and whether it was limited. -/
def carrier (width scale : Nat) (v : FVal) : Int × Bool :=
  let f : Int := if width = 0 then 8 else 24
  let lim := if width = 0 then 32767 else 2147483647
  match v with
  | .num s m e => roundInt lim s m (e + f - ((scale : Int) - 127))
  | _ => (0, false)

/-- A block of 32 FP32 values in a carrier (R418), with what it met. -/
def carrierBlock (width scale : Nat) (vs : List FVal) : Block :=
  let qs := vs.map (carrier width scale)
  let w := if width = 0 then 16 else 32
  let f : Int := if width = 0 then 8 else 24
  let sat := (qs.filter fun q => q.2).length
  let ovf := (vs.zip qs).foldl (fun o p => if p.2.2 then max o (ovfCount 7 scale p.1) else o) 0
  ⟨qs.map fun q => ofSigned w q.1, scale, ⟨sat, 0⟩, (qs.foldl (fun m q => max m q.1.natAbs) 0, (scale : Int) - 127 - f), ovf⟩

/-- The header of a REMOTE_ACC or PARAM message (Table 14-5). -/
def accHeader (kind fmt n scale slot role bucket chunk step last : Nat) : List (BitVec 8) :=
  toLe 4 (kind + fmt * 2 ^ 8 + n * 2 ^ 16 + scale * 2 ^ 24) ++ toLe 2 slot ++ toLe 2 role ++ toLe 4 bucket ++ toLe 4 chunk
    ++ toLe 8 step ++ toLe 8 last

/-- The contribution of unit `u` (R418 to R422): the state after gathering and counting, with the message. `scale` is the
group's code. -/
def Dev.contribution (d : Dev) (i s r u scale : Nat) : Dev × List (BitVec 8) :=
  let width := d.accf i s 0x0B 1
  let blocks := if u + 1 = d.stUnits i s then d.accf i s 0x0E 1 else 64
  let src := d.bufAddr i s u
  let bs := (List.range blocks).map fun b =>
    let a := src + 128 * b
    let vs := (List.range 32).map fun k => elemRaw 0 (d.rdLe (a + 4 * k) 4)
    let blk := carrierBlock width scale vs
    let bad := d.poisonedW a 128 || vs.any (fun v => match v with | .num _ _ _ => false | _ => true)
      || (d.get UPD_POLICY.SAT_ACTION r == 1 && blk.tally.sat != 0)
    (blk, bad)
  let w := if width = 0 then 16 else 32
  let poison := (bs.zip (List.range blocks)).foldl (fun m q => if q.1.2 then m + 2 ^ q.2 else m) 0
  let data := (bs.map fun q => if q.2 then List.replicate (4 * w) 0 else packCodes w q.1.codes).flatten
  let tally : Tally := ⟨(bs.map fun q => q.1.tally.sat).foldl (· + ·) 0, (bs.filter fun q => q.2).length⟩
  let d1 := (d.gather i (d.accf i s 0x0C 2) (bs.map fun q => q.1)).tally r tally
  (d1, accHeader 0 width blocks scale (d.accf i s 8 2) (d.accf i s 0x0A 1) (d.accf i s 0 4) (d.accf i s 4 4 + u) (d.rcStep r) poison ++ data)

/-- The probe of unit `u` (R423). -/
def Dev.probeMsg (d : Dev) (i s r u : Nat) : List (BitVec 8) :=
  accHeader 1 0 0 0 (d.accf i s 8 2) (d.accf i s 0x0A 1) (d.accf i s 0 4) (d.accf i s 4 4 + u) (d.rcStep r) 0

/-- The next message of a REMOTE_ACC stream (R419, R421, R423). `probe` is 0 before a Substitute's delay has passed, 3 when a
probe is due, 1 and 4 while an answer is awaited, 2 when the unit is needed. -/
def Dev.askAcc (d : Dev) (i s r : Nat) : Option Dev :=
  let x := d.strm i s
  let u := x.unit
  let dev := d.stf i s 0x20 2 % 32768
  let sub := d.accf i s 0x0A 1 == 1
  let g := d.accf i s 0x0C 2
  if sub && x.probe == 3 then
    d.askRemote i s 0xC dev u 0 0 0 [] (d.probeMsg i s r u) { x with probe := 1 }
  else if sub && x.probe != 2 then none
  else if (d.freeTag i true).isNone then none
  else
    let a := d.groupAddr r g
    if d.groupOk r g && (d.rdLe (a + 1) 1 != 7 || !bitAt (d.rdLe a 1) 0) then some (d.endAt i 0x0709) else
    match d.scaleRead r i g with
    | .ends c => some (d.endAt i c)
    | .wait => if (d.sp i).scaleWait.isSome then none else some (d.beginScaleWait r i g)
    | .scale e c =>
      let p := e.contribution i s r u c
      p.1.askRemote i s 0xC dev u 0 0 (d.unitLen i s u) [] p.2
        (if sub then { x with probe := 4 } else { x with unit := u + 1 })

/-! ## Issue -/

/-- The next request of a stream, none where it has none ready. While the Reel quiesces only released data goes out (R368);
a Spindle suspended in place issues nothing (R371). Log: 163 (DEDUCED). -/
def Dev.tryStream (d : Dev) (i s : Nat) : Option Dev :=
  match d.spindleRoom i with
  | none => none
  | some r =>
    let x := d.strm i s
    let kind := d.streamKind i s
    let quiet := d.get STR_STAT.QUIESCING i == 1
    if (quiet && x.read) || (d.room r).suspended then none
    else if d.stFlag i s 0 then (if x.read then d.askSkeinRead i s r else d.askSkeinWrite i s r)
    else if !d.unitOpen i s x.unit then none
    else match kind with
      | 1 => d.askRow i s (d.rowAddr i s (x.unit * d.stUnitRows i s + x.row)) false
      | 2 => d.askRow i s (d.rowAddr i s (x.unit * d.stUnitRows i s + x.row)) true
      | 3 => d.askGather i s
      | 4 => d.askRemoteRow i s false
      | 5 => d.askRemoteRow i s true
      | 6 => d.askAcc i s r
      | _ => none

/-- Streams of a class with a request ready, with the state each would make. -/
def Dev.readyOf (d : Dev) (i cls : Nat) : List Dev :=
  ((List.range (d.reel i).streams.length).filter fun s => streamClass (d.streamKind i s) == cls).filterMap fun s => d.tryStream i s

/-- The class served next (R350): a ready one with turns left, else all turns are renewed. -/
def nextClass (turns weights ready : List Nat) : Option (Nat × List Nat) :=
  let pick := fun (ts : List Nat) => ready.find? fun c => nth 0 ts c != 0
  match pick turns with
  | some c => some (c, setNth (nth 0 turns c - 1) turns c)
  | none => match pick weights with
    | some c => some (c, setNth (nth 0 weights c - 1) weights c)
    | none => none

/-- A Reel issues its next request (R347, R350); `pick` chooses among the streams of the class served, whose order the
manual leaves open. -/
def Dev.reelIssue (d : Dev) (i pick : Nat) : Dev :=
  match d.spindleRoom i with
  | none => d
  | some r =>
    if d.get STR_STAT.RUNNING i = 0 && d.get STR_STAT.QUIESCING i = 0 then d else
    let lists := [d.readyOf i 0, d.readyOf i 1, d.readyOf i 2]
    let ready := [0, 1, 2].filter fun c => !(nth [] lists c).isEmpty
    match nextClass (d.reel i).turns [d.get STR_SPLIT.RD r, d.get STR_SPLIT.WR r, d.get STR_SPLIT.RM r] ready with
    | none => d
    | some (c, turns) =>
      let l := nth [] lists c
      let e := nth d l (pick % l.length)
      e.setReel i { e.reel i with turns := turns }

/-! ## Arrivals -/

/-- The bytes of an index list that a read brings, by offset (R357). -/
def indexBytes (o : Nat) (bs : List (BitVec 8)) : List (Nat × BitVec 8) := bs.zipIdx.map fun p => (o + p.2, p.1)

/-- A read of a Reel returns (R348, R369). -/
def Dev.reelReturn (d : Dev) (i tag : Nat) : Dev :=
  match d.tag? i tag false with
  | none => d
  | some t =>
    match t.via with
    | .remote _ => d
    | .mem id =>
      match d.req? id with
      | none => d
      | some q =>
        match q.phase with
        | .ended c =>
          let d1 := (d.dropReq id).freeTagOf i t
          let s := t.stream
          if t.gen ≠ d.get STR_STAT.GEN i then d1.waste i t.len
          else if c ≠ 0 then d1.streamFault i c s t.unit t.addr
          else if d.stFlag i s 0 then
            match (d1.reel i).blocks.find? fun b => !b.write && b.stream == s && b.row == t.row with
            | none => d1
            | some b => d1.setBlock i b { b with
                pieces := b.pieces ++ [(t.off, q.data)]
                bad := b.bad ++ q.bad.map fun p => (t.off + p.1, p.2) }
          else if q.poisoned then d1.streamFault i 0x0410 s t.unit t.addr
          else if t.index then
            d1.setStrm i s { d1.strm i s with index := (d1.strm i s).index ++ indexBytes t.off q.data }
          else d1.fill i s t.unit t.off q.data
        | _ => d

/-- Nothing of a Reel's write side is left: no write tag, no released data, no block being written, no Note write (R362). -/
def Dev.reelDrained (d : Dev) (i : Nat) : Bool :=
  let x := d.reel i
  !(x.tags.any fun t => t.write && t.gen != staleGen) && x.pend.isEmpty && !(x.blocks.any fun b => b.write)
    && !((d.notesOf i).any fun q => q.write && q.stream.isSome && !q.stale)
    && x.streams.all fun s => s.read || decide (s.passed ≤ s.unit)

/-- Complete a Room's RUN command that has signalled, once its writes are acknowledged (R132, R362). -/
def Dev.tryEnd (d : Dev) (r : Nat) : Dev :=
  match (d.room r).ending, d.running r with
  | some detail, some c =>
    if (d.roomSpindles r).all d.reelDrained then
      ((d.setRoom r { d.room r with ending := none, trap := 0 }).wr ROOM_RUN r 0).complete c 0 detail
    else d
  | _, _ => d

/-- The same for the Room of a Spindle. -/
def Dev.tryEndAt (d : Dev) (i : Nat) : Dev :=
  match d.spindleRoom i with
  | some r => d.tryEnd r
  | none => d

/-- The block of a write has been acknowledged whole: its reference ends (R301), and where its stream goes on its bytes count as
acknowledged (R359). -/
def Dev.blockAcked (d : Dev) (i : Nat) (t : ReelTag) : Dev :=
  match (d.reel i).blocks.find? fun b => b.write && b.addr + t.off == t.addr && b.row == t.row with
  | none => d
  | some b =>
    let done := (d.reel i).tags.all fun x => !(x.write && x.addr == b.addr + x.off && x.row == t.row)
    if !done || decide (b.asked < b.size) then d
    else
      let e := d.endBlock i b
      if t.gen = pastGen then e else e.setStrm i b.stream ((e.strm i b.stream).add t.unit (d.rowLen i b.stream b.row))

/-- Bytes of a write are acknowledged to their stream, or to the block they belong to (R301, R359). -/
def Dev.acked (d : Dev) (i : Nat) (t : ReelTag) : Dev :=
  if (d.reel i).blocks.any fun b => b.write && b.addr + t.off == t.addr && b.row == t.row then d.blockAcked i t
  else if t.gen = pastGen || decide ((d.reel i).streams.length ≤ t.stream) then d
  else d.setStrm i t.stream ((d.strm i t.stream).add t.unit t.len)

/-- A write of a Reel is acknowledged (R348). -/
def Dev.reelAck (d : Dev) (i tag : Nat) : Dev :=
  match d.tag? i tag true with
  | none => d
  | some t =>
    match t.via with
    | .remote _ => d
    | .mem id =>
      match d.endCode id with
      | none => d
      | some c =>
        let d1 := (d.dropReq id).freeTagOf i t
        if t.gen = staleGen then d1
        else if c ≠ 0 then d1.streamFault i c t.stream t.unit t.addr
        else (d1.acked i t).tryEndAt i

/-! ## Skein blocks -/

/-- The header of a block has been checked: its size, and its reference where the header in memory had changed before it was read
(R301). Log: 170 (DEDUCED). -/
def Dev.headChecked (d : Dev) (i r : Nat) (b : SkBlock) (w0 : Nat) : Dev :=
  let slot := if bitAt w0 24 then some (bitsOf w0 25 2) else none
  let d1 := if slot = b.slot then d else (d.slotDrop r b.slot).slotTake r slot
  d1.setBlock i b { b with slot := slot, size := 16 + bitsOf w0 12 12 + 1 }

/-- A block's header arrives, or its last stored byte does, and the block is checked and decoded (R306 to R308).
Log: 84 (DESIGN CHOICE). -/
def Dev.skeinDecode (d : Dev) (i s : Nat) : Dev :=
  match d.spindleRoom i, (d.reel i).blocks.find? fun b => !b.write && b.stream == s with
  | some r, some b =>
    let got := (b.pieces.map fun p => p.2.length).foldl (· + ·) 0
    match b.pieces.find? fun p => p.1 == 0 with
    | none => d
    | some (_, first) =>
      let head := first.take 16
      let w0 := ofLe (head.take 4)
      let table := d.skTable r (bitsOf w0 25 2)
      let remaining := d.stf i s 0x50 4 - 4096 * b.row
      let dest := d.rowLen i s b.row
      let u := b.row / max 1 (d.stUnitRows i s)
      let a := d.bufAddr i s u + 4096 * (b.row % max 1 (d.stUnitRows i s))
      let fault := fun (e : Dev) (c lane pos : Nat) => (e.corrupt r c lane pos b.addr).streamFault i c s u b.addr
      let c := skHeadCode table head ((List.range 16).any (badByte b.bad)) remaining dest
      if c ≠ 0 then fault d c 0 0
      else if b.size = 0 then d.headChecked i r b w0
      else if got < b.size then d
      else
        match skDecode table (joinPieces b.pieces b.size) b.bad remaining dest with
        | .bad c lane pos =>
          fault ((d.wrDesk i a ((List.range dest).map (Config.freeByte d.free))).drew) c lane pos
        | .raw bs =>
          (((d.wrDesk i a bs).endBlock i b).skCount r bs.length b.size).setStrm i s ((d.strm i s).add u dest)
  | _, _ => d

/-! ## Releases -/

/-- A release waits for tiles issued before it (R361): tiles still in the array or the drain. -/
def Dev.tilesOpen (d : Dev) (i n : Nat) : Bool :=
  let busy := fun (t : Option Tile) => match t with | some t => decide (t.num < n) | none => false
  busy (d.sp i).arr || busy (d.sp i).arr2 || busy (d.sp i).drn

/-- A released unit passes to the Reel (R359, R361): the buffer of a unit read is free, a unit to be written goes out. A unit that was
waited on before a save and is released after the resumption is written then (R370). Log: 172 (DEDUCED). -/
def StreamSt.pass (x : StreamSt) (u : Nat) : StreamSt :=
  if x.read then { x with passed := max x.passed (u + 1) }
  else if u < x.unit then { x with passed := u + 1, unit := u, row := 0, off := 0, floor := min x.floor u }
  else { x with passed := u + 1 }

/-- Releases whose tiles are done pass to the Reel (R361). -/
def Dev.passReleases (d : Dev) (i : Nat) : Dev :=
  let x := d.reel i
  let d1 := d.setReel i { x with pend := x.pend.filter fun p => d.tilesOpen i p.2.2 }
  (x.pend.filter fun p => !d.tilesOpen i p.2.2).foldl (fun e p => e.setStrm i p.1 ((e.strm i p.1).pass p.2.1)) d1

/-- The unit whose buffer a release names: of the units waited on, the latest in that buffer (R359, R360). -/
def Dev.unitIn (d : Dev) (i s e : Nat) : Nat :=
  let n := max 1 (d.stBufs i s)
  let last := (d.strm i s).waited - 1
  last - (last + n - (e - d.stf i s 6 2) % n) % n

/-- The microsequence releases buffer table entry `e` of a stream (R359, R360). -/
def Dev.releaseBuf (d : Dev) (i s e : Nat) : Dev :=
  (d.setReel i { d.reel i with pend := (d.reel i).pend ++ [(s, d.unitIn i s e, (d.sp i).issued)] }).passReleases i

/-! ## Quiescing -/

/-- A Reel begins to quiesce (R368). -/
def Dev.quiesce (d : Dev) (i : Nat) : Dev :=
  if d.get STR_STAT.RUNNING i = 0 then d else
  ((d.cancelReel i false).set STR_STAT.QUIESCING i 1).set STR_STAT.RUNNING i 0

/-- The units at which a Reel resumes, in its state block (R370). -/
def Dev.stateBlock (d : Dev) (i : Nat) : Nat := deskBase i + 64 * (d.rdLe (reelBase i + 4) 4 % 131072)

/-- A Reel holds the next block that a stream would write, because its slot is closed (R301). -/
def Dev.blockHeld (d : Dev) (i s : Nat) : Bool :=
  d.stFlag i s 0 && (d.spindleRoom i).any fun r => d.slotHeld r (d.stSlot i s)

/-- A stream keeps a quiesce from ending: released data is still to be written, and where the command leaves it is not held back by a
closed slot (R310, R368). -/
def Dev.keepsQuiesce (d : Dev) (i : Nat) (leaves : Bool) (p : StreamSt × Nat) : Bool :=
  !p.1.read && decide (p.1.unit < p.1.passed) && !(leaves && d.blockHeld i p.2)

/-- The blocks that a Reel holds for a closed slot stay with the command that leaves (R310). -/
def Dev.keepHeld (d : Dev) (i id : Nat) : Dev :=
  match d.cmd? id with
  | none => d
  | some c =>
    let l := ((d.reel i).streams.zipIdx.filter fun p => !p.1.read && decide (p.1.unit < p.1.passed)).map fun p =>
      (⟨d.logicalOf i, p.2, p.1.unit, p.1.row, p.1.passed⟩ : HeldStream)
    if l.isEmpty then d else d.setCmd { c with heldBlocks := c.heldBlocks ++ l }

/-- A Reel has quiesced (R368, R370): every write of a released buffer is issued, but for blocks of a closed slot (R310); before a
save the state block is written. -/
def Dev.quiesced (d : Dev) (i : Nat) : Dev :=
  let x := d.reel i
  let leaving := ((d.spindleRoom i).bind fun r => (d.room r).switch).bind fun w => w.outgoing
  if d.get STR_STAT.QUIESCING i = 0 || !x.pend.isEmpty || x.streams.zipIdx.any (d.keepsQuiesce i leaving.isSome)
      || x.blocks.any (fun b => b.write && decide (b.asked < b.size)) then d
  else
    let d1 := match leaving with
      | some id => (x.streams.zipIdx.foldl (fun (e : Dev) (p : StreamSt × Nat) => e.wrDesk i (d.stateBlock i + 8 * p.2) (toLe 8 p.1.waited)) d).keepHeld i id
      | none => d
    d1.set STR_STAT.QUIESCING i 0

/-- A Substitute's hold ends (R423): TIME_NOW has reached the Round start plus SUB_DELAY. -/
def Dev.subDelay (d : Dev) (i s : Nat) : Dev :=
  if d.streamKind i s = 6 && d.accf i s 0x0A 1 == 1 && (d.strm i s).probe == 0 && decide (s < (d.reel i).streams.length)
      && decide (d.get64 TT_ROUND_START_LO TT_ROUND_START_HI 0 + d.accf i s 0x10 4 ≤ d.now) then
    d.setStrm i s { d.strm i s with probe := 3 }
  else d

/-! ## Answers from other devices -/

/-- A remote message by its number. -/
def Dev.remote? (d : Dev) (id : Nat) : Option Remote := d.kl.remotes.find? fun q => q.id == id

/-- Forget a remote message. -/
def Dev.dropRemote (d : Dev) (id : Nat) : Dev :=
  { d with kl := { d.kl with remotes := d.kl.remotes.filter fun q => q.id != id } }

/-- The tag under which a Reel sent a remote message. -/
def Dev.remoteTag (d : Dev) (i id : Nat) : Option ReelTag := (d.reel i).tags.find? fun t => t.via == .remote id

/-- A remote message of a Reel has ended with a nonzero code (R358, R399). -/
def Dev.remoteFail (d : Dev) (q : Remote) (code : Nat) : Dev :=
  let d1 := (d.dropRemote q.id).remoteErr code q.dev
  match q.owner with
  | .update _ => d1
  | .reel i _ =>
    match d.remoteTag i q.id with
    | none => d1
    | some t =>
      let d2 := d1.freeTagOf i t
      if staleGen ≤ t.gen || (!t.write && t.gen != d.get STR_STAT.GEN i) then d2
      else d2.streamFault i 0x0321 t.stream t.unit t.addr

/-- The answer to a Reel's contribution or probe (R423, Table 14-6). -/
def StreamSt.answered (x : StreamSt) (state : Nat) : StreamSt :=
  if x.probe = 1 then (if state = 2 then { x with probe := 2 } else { x with unit := x.unit + 1, probe := 3 })
  else if x.probe = 4 then { x with unit := x.unit + 1, probe := 3 }
  else x

/-- A COMPLETION for a Reel's message (R399, R423). -/
def Dev.reelCompletion (d : Dev) (q : Remote) (i code state : Nat) : Dev :=
  if code ≠ 0 then d.remoteFail q code
  else match d.remoteTag i q.id with
    | none => d.dropRemote q.id
    | some t =>
      let d1 := (d.dropRemote q.id).freeTagOf i t
      if t.gen = staleGen || !t.write then d1
      else if t.gen = pastGen || decide ((d1.reel i).streams.length ≤ t.stream) then d1.tryEndAt i
      else ((if d.streamKind i t.stream = 6 then d1.setStrm i t.stream ((d1.strm i t.stream).answered state |>.add t.unit t.len)
        else d1.acked i t)).tryEndAt i

/-- A READ_RESP for a Reel's message (R358, R369, R399). -/
def Dev.reelReadResp (d : Dev) (q : Remote) (i code : Nat) (data : List (BitVec 8)) : Dev :=
  if code ≠ 0 then d.remoteFail q code
  else match d.remoteTag i q.id with
    | none => d.dropRemote q.id
    | some t =>
      let d1 := (d.dropRemote q.id).freeTagOf i t
      if t.gen ≠ d.get STR_STAT.GEN i then d1.waste i t.len
      else d1.fill i t.stream t.unit t.off ((data ++ List.replicate t.len 0).take t.len)

/-- No answer within 1,000 µs of the last flit (R399). -/
def Dev.remoteTimeout (d : Dev) (id : Nat) : Dev :=
  match d.remote? id with
  | some q => if q.time.any fun t => decide (t + 1000000 ≤ d.now) then d.remoteFail q 0x0605 else d
  | none => d

def execReelRequestIssue (i pick : Nat) (s : State) := s.onUnit 1024 i fun d => d.reelIssue i pick

def execReelReadReturn (i tag : Nat) (s : State) := s.onUnit 1024 i fun d => d.reelReturn i tag

def execReelWriteAck (i tag : Nat) (s : State) := s.onUnit 1024 i fun d => d.reelAck i tag

def execQuiesceDone (i : Nat) (s : State) := s.onUnit 1024 i fun d => d.quiesced i

def execSkeinBlockDecode (i stream : Nat) (s : State) := s.onUnit 1024 i fun d => d.skeinDecode i stream

def execSubDelayExpire (i stream : Nat) (s : State) := s.onUnit 1024 i fun d => d.subDelay i stream

def execKlReadResp (id code : Nat) (data : List (BitVec 8)) (s : State) := s.onDev fun d =>
  match d.remote? id with
  | some q =>
    match q.owner with
    | .reel i _ => d.reelReadResp q i code data
    | .update _ => d
  | none => d

end Sys2Proof.Machine
end

