-- ==== Sys2Proof/Machine/Save.lean ====
section
/-! DEFINITION. What a pre-emption or a variant change saves of a Spindle, and what a restore brings back (R89, R90, R149,
R221, R223, R257, R370). -/

namespace Sys2Proof.Machine

/-! ## Liveness -/

/-- One liveness entry (R89): POINT, FLAGS and MASK, and whether the frame had no entry for the point (R90). -/
structure Live where
  point : Nat
  flags : Nat
  mask : Nat
  full : Bool
  deriving DecidableEq, Repr

/-- The liveness entry of a Spindle's active frame for a point, else the whole state (R89, R90). -/
def Dev.liveAt (d : Dev) (i point : Nat) : Live :=
  let f := deskBase i + offActive
  match (List.range (min 64 (d.rdByte (f + 10)).toNat)).find? fun k => d.rdLe (f + 0x1100 + 32 * k) 2 == point with
  | some k => ⟨point, d.rdLe (f + 0x1102 + 32 * k) 2 % 8, d.rdLe (f + 0x1108 + 32 * k) 16, false⟩
  | none => ⟨point, 7, 2 ^ 128 - 1, true⟩

/-- Its bytes (R90). -/
def Live.bytes (l : Live) : Nat := liveBytes l.mask l.flags

/-- The parts of a Spindle's storage in the order of a record, each with its Desk window offset, its size and whether the
entry marks it live (R149). -/
def Live.parts (l : Live) : List (Nat × Nat × Bool) :=
  ((List.range 128).map fun g => (65536 * g, 65536, bitAt l.mask g))
    ++ [(offAcc 0, 65536, bitAt l.flags 0), (offAcc 1, 65536, bitAt l.flags 1), (offBobbin, 262144, bitAt l.flags 2)]

/-- The largest live state of a Room's Spindles at their points (R146). -/
def Dev.sSaveOf (d : Dev) (r : Nat) : Nat :=
  maxList ((d.roomSpindles r).map fun i => (d.liveAt i (d.sp i).point).bytes)

/-! ## Slots -/

/-- Address of a Room's slot (R149). -/
def Dev.slotAddr (d : Dev) (r k : Nat) : Nat :=
  d.get64 ROOM_SAVE_ADDR_LO ROOM_SAVE_ADDR_HI r + k * d.get CFG_SAVE_REQ.UNITS r * 65536

/-- Address of the record of a Room's `n`-th Spindle in a slot. -/
def Dev.recordAddr (d : Dev) (r k n : Nat) : Nat := d.slotAddr r k + 65536 + n * (4096 + (d.room r).sMax)

/-- Slots that hold a saved command. -/
def Dev.usedSlots (d : Dev) (r : Nat) : List Nat :=
  (d.que.cmds.filter fun c => c.room == r && c.phase == .saved && decide (c.slot < 3)).map fun c => c.slot

/-- The lowest free slot of a Room (R145). -/
def Dev.freeSlot (d : Dev) (r : Nat) : Option Nat :=
  (List.range (d.slotsOf r)).find? fun k => !(d.usedSlots r).contains k

/-- Show the slots in use, and whether a command saved at a variant change waits (Tables 04-12 and 09-6). -/
def Dev.showSlots (d : Dev) (r : Nat) : Dev :=
  (d.set ROOM_STATUS.SLOTS_USED r (d.usedSlots r).length).set ROOM_PHASE_STAT.WAITING r
    (bit (d.que.cmds.any fun c => c.room == r && c.phase == .saved && c.byPhase))

/-! ## The matrix engine's and the sequencer's state -/

/-- A set's word in the record header (Table 06-6). -/
def AccSet.word (a : AccSet) (inUse : Nat) : Nat :=
  inUse + 2 * bit a.sat + 4 * (a.adds % 2 ^ 18) + 2 ^ 20 * (a.mode % 4)

/-- A list of scale codes as 128 bytes. -/
def scaleBytes (l : List Nat) : List (BitVec 8) := (List.range 128).map fun k => BitVec.ofNat 8 (nth 0 l k)

/-- The 512 bytes of run scales; zero for a set without an INT32 run in use (R223). -/
def runScales (a : AccSet) (inUse : Nat) : List (BitVec 8) :=
  if a.mode = 2 ∧ inUse = 1 then scaleBytes a.scaleA ++ scaleBytes a.scaleB else List.replicate 256 0

/-- The 4 KiB record head of a Spindle (R149, Table 04-18, R223, R257). -/
def Dev.recordHead (d : Dev) (i : Nat) (l : Live) : List (BitVec 8) :=
  let x := d.sp i
  let u0 := d.get SPX_MX_STAT.IN_USE0 i
  let u1 := d.get SPX_MX_STAT.IN_USE1 i
  toLe 2 l.point ++ toLe 2 (l.flags % 8 + 2 ^ 15 * bit l.full) ++ toLe 2 (d.logicalOf i) ++ toLe 2 0
    ++ toLe 16 l.mask ++ toLe 4 l.bytes ++ toLe 4 0
    ++ toLe 4 x.tileSeq ++ toLe 4 (x.acc0.word u0) ++ toLe 4 (x.acc1.word u1) ++ toLe 4 (d.get SPX_MX_STAT.ACTIVE i)
    ++ toLe 2 (d.get SPX_VX_STAT.IP i + 2 ^ 12 * x.loops.length) ++ toLe 2 0
    ++ ((List.range 6).map fun k => toLe 2 ((nth ⟨0, 0, 0⟩ x.loops k).index)).flatten
    ++ runScales x.acc0 u0 ++ runScales x.acc1 u1 ++ List.replicate 3520 0

/-- The poisoned words of a range of Spindle storage, as offsets in it with their length (R519). -/
def Dev.badWords (d : Dev) (a n : Nat) : List (Nat × Nat) :=
  (d.poisonW.filter fun w => decide (a ≤ w) && decide (w < a + n)).map fun w => (w - a, 4)

/-- Write the live parts one after the other from an address (R149); the sectors that a poisoned word goes to are marked (R328).
Log: 52 (DEDUCED). -/
def Dev.saveParts (d : Dev) (i : Nat) : Nat → List (Nat × Nat × Bool) → Dev
  | _, [] => d
  | a, (off, n, live) :: t =>
    if live then (d.storeMarked a (d.rdBytes (deskBase i + off) n) (d.badWords (deskBase i + off) n)).saveParts i (a + n) t else d.saveParts i a t

/-- Write the record of a Room's `n`-th Spindle (R149, R221). -/
def Dev.saveSpindle (d : Dev) (r k n i : Nat) : Dev :=
  let l := d.liveAt i (d.sp i).point
  let a := d.recordAddr r k n
  (d.wrBytes a (d.recordHead i l)).saveParts i (a + 4096) l.parts

/-- What the device keeps of a Spindle whose command is saved. -/
def Dev.keepRun (d : Dev) (i : Nat) : KeptRun := ⟨d.logicalOf i, d.get SPX_VX_STAT.RUNNING i == 0, (d.sp i).acc0, (d.sp i).acc1⟩

/-- A Spindle leaves its command: its sequencer and Reel idle, its sets not in use. What its Lesson gathers stays. -/
def Dev.idleSpindle (d : Dev) (i : Nat) : Dev :=
  let d1 := ((d.wr SPX_VX_STAT i 0).set SPX_MX_STAT.IN_USE0 i 0).set SPX_MX_STAT.IN_USE1 i 0
  let x := d1.reel i
  ((d1.setReel i { x with streams := [], pend := [], blocks := x.blocks.filter fun b => b.write }).set STR_STAT.RUNNING i 0).setSp i
    { SpindleSt.init with groups := (d1.sp i).groups }

/-- A Room's Spindles with their places in the directory. -/
def Dev.numbered (d : Dev) (r : Nat) : List (Nat × Nat) :=
  let is := d.roomSpindles r
  (List.range is.length).zip is

/-- The slot record (Table 04-17). Log: 52 (DEDUCED). -/
def Dev.slotRecord (d : Dev) (r : Nat) (c : Cmd) (variant point sSave : Nat) (byPhase : Bool) : List (BitVec 8) :=
  toLe 4 (1 + 2 * (c.level % 4) + 8 * (variant % 8) + 64 * bit byPhase + 128 * (r % 16))
    ++ toLe 4 (c.queue % 2 ^ 14 + 2 ^ 14 * (c.index % 2 ^ 16)) ++ toLe 4 c.seq
    ++ toLe 4 (point % 2 ^ 16 + 2 ^ 16 * ((d.roomSpindles r).length % 2 ^ 16)) ++ toLe 8 d.now ++ toLe 4 sSave
    ++ List.replicate (65536 - 28) 0

/-- Save a Room's Spindles in a slot, the slot record last, charged to the Room's fast-tier regulator (R147, R149). -/
def Dev.saveRoom (d : Dev) (r k : Nat) (c : Cmd) (point sSave : Nat) (byPhase : Bool) : Dev :=
  let ns := d.numbered r
  let bytes := (ns.map fun p => 4096 + (d.liveAt p.2 (d.sp p.2).point).bytes).foldl (· + ·) 65536
  let d1 := ns.foldl (fun e p => e.saveSpindle r k p.1 p.2) d
  (d1.wrBytes (d.slotAddr r k) (d.slotRecord r c (d.get CFG_STATUS.ACTIVE_VAR r) point sSave byPhase)).charge (some r) 0 bytes

/-- What a Spindle keeps of a command that leaves with nothing live and no slot (R145). Log: 58 (DEDUCED). -/
def Dev.parkSpindle (d : Dev) (i : Nat) : Parked := ⟨d.logicalOf i, d.rd SPX_VX_STAT i, d.rd SPX_MX_STAT i, d.sp i⟩

/-! ## Restoring -/

/-- A field of a plane's instruction slot. -/
def Dev.slotLe (d : Dev) (i n off len : Nat) : Nat := d.rdLe (deskBase i + offActive + 0x3000 + 16 * n + off) len

/-- The loops open at slot `stop`, innermost first, found by reading the microsequence from slot 64 (R252, R254). -/
def Dev.openLoops (d : Dev) (i stop : Nat) : Nat → Nat → List LoopSt → List LoopSt
  | 0, _, acc => acc
  | fuel + 1, n, acc =>
    if stop ≤ n then acc else
    match d.slotLe i n 0 1 with
    | 2 => d.openLoops i stop fuel (n + 1) (⟨n + 1, d.slotLe i n 10 2 + 1, 0⟩ :: acc)
    | 3 => d.openLoops i stop fuel (n + 1) (acc.drop 1)
    | 6 => d.openLoops i stop fuel (n + (if (d.rdByte (deskBase i + offActive + 4)).toNat = 2 then 5 else 3)) acc
    | _ => d.openLoops i stop fuel (n + 1) acc

/-- A set's run from its word and its scales, and what the Monitor has kept of it in `m`; not in use where the set was not live (R221). -/
def AccSet.ofWord (w : Nat) (a b : List Nat) (m : AccSet) : AccSet :=
  ⟨bitAt w 1, bitsOf w 2 18, bitsOf w 20 2, a, b, m.ref, m.mag, m.sats, m.rows⟩

/-- Scale codes from a record head. -/
def Dev.scalesAt (d : Dev) (a : Nat) : List Nat := (d.rdBytes a 128).map fun b => b.toNat

/-- Give `n` bytes free values: the state that a save did not mark is undefined after the restore (R90). Log: 52 (DEDUCED). -/
def Dev.scramble (d : Dev) (a n : Nat) : Dev := (d.wrBytes a ((List.range n).map (Config.freeByte d.free))).drew

/-- Bring back the live parts; the others become undefined (R90). Log: 52 (DEDUCED). -/
def Dev.restoreParts (d : Dev) (i : Nat) : Nat → List (Nat × Nat × Bool) → Dev
  | _, [] => d
  | a, (off, n, live) :: t =>
    if live then (d.wrBytes (deskBase i + off) (d.rdBytes a n)).restoreParts i (a + n) t
    else (d.scramble (deskBase i + off) n).restoreParts i a t

/-- The Reel of a restored Spindle resumes every stream at the unit in its state block (R370). -/
def Dev.resumeReel (d : Dev) (i : Nat) : Dev := d.startReel i fun s => d.rdLe (d.stateBlock i + 8 * s) 4

/-- A restored Spindle takes up its plane again: the starts and counts of its open loops, and its Reel's streams at the
units of the state block (R254, R257, R370). This comes after the plane switch, where one follows the restore (R121). -/
def Dev.reopen (d : Dev) (i : Nat) : Dev :=
  let x := d.sp i
  let open' := (d.openLoops i (d.get SPX_VX_STAT.IP i) 2304 64 []).reverse
  (d.setSp i { x with loops := (x.loops.zip open').map fun p => { p.2 with index := p.1.index } }).resumeReel i

/-- The blocks that a Reel held at the pre-emption are issued again (R310). -/
def Dev.reissue (d : Dev) (h : HeldStream) : Dev :=
  match d.physOf h.logical with
  | some i =>
    let x := d.strm i h.stream
    d.setStrm i h.stream { x with unit := h.unit, row := h.row, passed := h.passed, floor := min x.floor h.unit }
  | none => d

/-- Restore the record of a Room's `n`-th Spindle (R149, R221, R223, R257). The Spindle stays stopped; one that had reached its END is idle
(R252). -/
def Dev.restoreSpindle (d : Dev) (r : Nat) (c : Cmd) (k n i : Nat) : Dev :=
  let kept := (c.kept.find? fun p => p.logical == d.logicalOf i).getD ⟨0, false, AccSet.init, AccSet.init⟩
  let a := d.recordAddr r k n
  let l : Live := ⟨d.rdLe a 2, d.rdLe (a + 2) 2 % 8, d.rdLe (a + 8) 16, bitAt (d.rdLe (a + 2) 2) 15⟩
  let w0 := d.rdLe (a + 36) 4
  let w1 := d.rdLe (a + 40) 4
  let u0 := if bitAt l.flags 0 then w0 % 2 else 0
  let u1 := if bitAt l.flags 1 then w1 % 2 else 0
  let seq := d.rdLe (a + 48) 2
  let ip := bitsOf seq 0 12
  let x : SpindleSt := { SpindleSt.init with
    loops := (List.range (bitsOf seq 12 3)).map fun k => ⟨0, 0, d.rdLe (a + 52 + 2 * k) 2⟩
    point := l.point
    tileSeq := d.rdLe (a + 32) 4
    issued := d.rdLe (a + 32) 4
    acc0 := AccSet.ofWord w0 (d.scalesAt (a + 64)) (d.scalesAt (a + 192)) kept.acc0
    acc1 := AccSet.ofWord w1 (d.scalesAt (a + 320)) (d.scalesAt (a + 448)) kept.acc1
    groups := (d.sp i).groups }
  let d1 := (d.setSp i x).restoreParts i (a + 4096) l.parts
  let d2 := d1.wr SPX_VX_STAT i (ip + 2 ^ 12 * bitsOf seq 12 3 + 2 ^ 20 + 2 ^ 21 * bit (!kept.ended))
  ((d2.set SPX_MX_STAT.ACTIVE i (d.rdLe (a + 44) 4 % 2)).set SPX_MX_STAT.IN_USE0 i u0).set SPX_MX_STAT.IN_USE1 i u1

/-- Bring back what a Spindle kept of a command that left without a slot. -/
def Dev.unparkSpindle (d : Dev) (p : Parked) : Dev :=
  match d.physOf p.logical with
  | none => d
  | some i => (((d.wr SPX_VX_STAT i p.vx).wr SPX_MX_STAT i p.mx).setSp i
    { p.spindle with groups := (d.sp i).groups, argmax := [], expanded := none })

/-- What a restore from a slot reads is poisoned (R150): the slot record, or the record head or the saved parts of a Spindle. -/
def Dev.slotPoisoned (d : Dev) (r k : Nat) : Bool :=
  d.poisoned (d.slotAddr r k) 65536 || (d.numbered r).any fun p =>
    let a := d.recordAddr r k p.1
    d.poisoned a (4096 + d.rdLe (a + 24) 4)

/-- Restore a saved command's Spindles, free its slot and charge the reads (R147 to R149). -/
def Dev.restoreRoom (d : Dev) (r : Nat) (c : Cmd) : Dev :=
  if 3 ≤ c.slot then c.parked.foldl Dev.unparkSpindle d
  else
    let ns := d.numbered r
    let bytes := (ns.map fun p => 4096 + d.rdLe (d.recordAddr r c.slot p.1 + 24) 4).foldl (· + ·) 65536
    let d1 := ns.foldl (fun e p => e.restoreSpindle r c c.slot p.1 p.2) d
    (d1.wrLe (d.slotAddr r c.slot) 1 (d1.rdLe (d.slotAddr r c.slot) 1 / 2 * 2)).charge (some r) 0 bytes

end Sys2Proof.Machine
end

