-- ==== Sys2Proof/Machine/Switch.lean ====
section
/-! DEFINITION. What moves a Room from one RUN command to another and from one Lesson to the next: stops and holds,
pre-emption, saves and restores, Lesson ends and starts, the plane switch (Rooms, queues, the Timetable and pre-emption;
R113 to R117, R280 to R282). -/

namespace Sys2Proof.Machine

/-! ## Stops and holds -/

/-- No RUN command of the Room runs. -/
def Dev.idle (d : Dev) (r : Nat) : Bool := (d.running r).isNone

/-- The Room's Spindles are free for another RUN command (R136). Log: 163 (DEDUCED). -/
def Dev.spindlesFree (d : Dev) (r : Nat) : Bool :=
  d.idle r && (d.roomSpindles r).all fun i => d.get SPX_VX_STAT.RUNNING i == 0

/-- Suspend the Room's command in place at the Lesson-end point (R138, R371). Log: 56 (DEDUCED). -/
def Dev.suspend (d : Dev) (r : Nat) : Dev :=
  if d.idle r then d else (d.stopAtLessonEnd r).setRoom r { (d.stopAtLessonEnd r).room r with suspended := true }

/-- Resume the Room's command where it was suspended (R138). -/
def Dev.resume (d : Dev) (r : Nat) : Dev :=
  if (d.room r).suspended then (d.resumeSpindles r).setRoom r { (d.resumeSpindles r).room r with suspended := false, fresh := false } else d

/-- What a complete stop of the Room brings about: an armed trap ends the command (R178, R191), a host hold takes effect
(R125). A Room in a switch waits for its end (Table 04-7). Log: 55 (DEDUCED). Log: 163 (DEDUCED). Log: 191 (DESIGN CHOICE). -/
def Dev.settle (d : Dev) (r : Nat) : Dev :=
  let x := d.room r
  if !(d.spindlesFree r || d.allStopped r) || x.switch.isSome then d
  else
    let d1 := if x.trap = 0 || d.idle r then d else d.endWith r x.trap
    let h := (d1.room r).holdReq
    if h != 0 && d1.roomState r == stLoaded then
      (d1.setRoom r { d1.room r with holdReq := 0, suspended := !d1.spindlesFree r }).hold r h
    else d1

/-- `settle` for the Room of a Spindle. Log: 69 (DEDUCED). -/
def Dev.settleAt (d : Dev) (i : Nat) : Dev :=
  match d.spindleRoom i with
  | some r => d.settle r
  | none => d

/-- Stop a Room for a hold of a cause (R125, R523): at its next checkpoint, or at its Lesson end where its frames have
none; at once while no RUN command runs. Log: 187 (DESIGN CHOICE). -/
def Dev.stopForHold (d : Dev) (r cause : Nat) : Dev :=
  let d1 := d.setRoom r { d.room r with holdReq := max cause (d.room r).holdReq }
  (if d1.framesHaveCkpt r && (d1.room r).switch.isNone then d1.requestStop r else d1).settle r

/-- ROOM_CTL.HOLD = 1 (R125). Log: 55 (DEDUCED). -/
def Dev.roomHold (d : Dev) (r : Nat) : Dev :=
  let d1 := d.set ROOM_CTL.HOLD r 1
  if d1.roomState r = stLoaded then d1.stopForHold r 1 else d1

/-- ROOM_CTL.HOLD = 0 (R125). A stop that was on its way is withdrawn. -/
def Dev.roomRelease (d : Dev) (r : Nat) : Dev :=
  let d1 := d.set ROOM_CTL.HOLD r 0
  if d1.roomState r = stHeld then (if d1.get ROOM_STATUS.HOLD_CAUSE r = 1 then d1.unhold r else d1)
  else if (d1.room r).holdReq = 1 then
    let d2 := d1.setRoom r { d1.room r with holdReq := 0 }
    if (d2.room r).switch.isSome || (d2.room r).suspended || (d2.room r).trap ≠ 0 then d2 else d2.resumeSpindles r
  else d1

/-! ## Pre-emption -/

/-- The level of the running command, a raise included (R154). -/
def Dev.runLevel (d : Dev) (c : Cmd) : Nat := d.effLevel c.queue c.level

/-- Nothing of the Room's Spindles is live at a point (R145). Log: 58 (DEDUCED). -/
def Dev.nothingLive (d : Dev) (r point : Nat) : Bool := (d.roomSpindles r).all fun i => (d.liveAt i point).bytes == 0

/-- POINT of the CKPT that a Spindle meets next from slot `n`, none where it meets its END before (R252, R254): an open loop's body is
followed once more where iterations are left. -/
def Dev.nextCkpt (d : Dev) (i : Nat) : Nat → Nat → List LoopSt → Option Nat
  | 0, _, _ => none
  | fuel + 1, n, ls =>
    match d.slotLe i n 0 1 with
    | 1 => none
    | 2 => d.nextCkpt i fuel (n + 1) (⟨n + 1, d.slotLe i n 10 2 + 1, 0⟩ :: ls)
    | 3 =>
      match ls with
      | l :: t => if l.index + 1 < l.count then d.nextCkpt i fuel l.start ({ l with index := l.count } :: t) else d.nextCkpt i fuel (n + 1) t
      | [] => d.nextCkpt i fuel (n + 1) []
    | 5 => some (d.slotLe i n 10 2)
    | 6 => d.nextCkpt i fuel (n + (if (d.rdByte (deskBase i + offActive + 4)).toNat = 2 then 5 else 3)) ls
    | _ => d.nextCkpt i fuel (n + 1) ls

/-- Nothing of a Spindle is live at the checkpoint where it would stop (R145): it has ended, or ends before one. Log: 58 (DEDUCED). -/
def Dev.stopsDead (d : Dev) (i : Nat) : Bool :=
  d.get SPX_VX_STAT.RUNNING i == 0 ||
    match d.nextCkpt i 147456 (d.get SPX_VX_STAT.IP i) (d.sp i).loops.reverse with
    | some p => (d.liveAt i p).bytes == 0
    | none => true

/-- A pre-emption has a slot, or needs none (R145): at a point of every Spindle, or at the next checkpoint of each.
Log: 58 (DEDUCED). -/
def Dev.slotFor (d : Dev) (r : Nat) (point : Option Nat) : Bool :=
  (d.freeSlot r).isSome || (match point with | some p => d.nothingLive r p | none => (d.roomSpindles r).all d.stopsDead)

/-- Begin a switch that stops the running command (R144, R281). -/
def Dev.beginSwitch (d : Dev) (r id : Nat) (byPhase : Bool) : Dev :=
  (d.setRoom r { d.room r with switch := some ⟨.stopping, some id, none, 0, 0, 0, 0, byPhase⟩ }).set ROOM_STATUS.SWITCHING r 1

/-- The conditions of a tile-boundary pre-emption hold for a Room, apart from the waiting command (R144). -/
def Dev.tileMay (d : Dev) (r : Nat) (c : Cmd) : Bool :=
  d.admits r 0 && (match d.lesson r with | some l => l.kind == 0 | none => false) && decide (1 ≤ d.runLevel c)
    && d.get ROOM_CTL.TILE_PREEMPT r == 1 && d.framesHaveCkpt r && (d.room r).switchTo.isNone && (d.room r).switch.isNone

/-- Pre-empt at the next checkpoint where a level-0 RUN command waits (R144, R145). -/
def Dev.tilePreempt (d : Dev) (r : Nat) : Dev :=
  match d.running r, d.pickRun r 1 0 with
  | some c, some _ => if d.tileMay r c && d.slotFor r none then (d.requestStop r).beginSwitch r c.id false else d
  | _, _ => d

/-- A level-0 RUN command has been admitted (R144): it pre-empts, or is counted where it waits for the next Lesson boundary.
Log: 83 (DEDUCED). -/
def Dev.admitLive (d : Dev) (r : Nat) : Dev :=
  match d.running r with
  | none => if d.roomState r == stLoaded && !(d.lesson r).any fun l => decide (l.kind ≤ 1) && l.ceiling == 0 then d.count ROOM_DEFER_CNT r 1 else d
  | some c =>
    if decide (1 ≤ d.runLevel c) && !d.tileMay r c && (d.room r).switch.isNone then d.count ROOM_DEFER_CNT r 1
    else d.tilePreempt r

/-- A waiting RUN command that a Lesson-boundary pre-emption would bring in (R144). Log: 83 (DEDUCED). -/
def Dev.moreUrgent (d : Dev) (r : Nat) (c : Cmd) : Bool :=
  match d.pickRun r 4 0 with
  | some w => decide (d.runLevel w < d.runLevel c)
  | none => false

/-! ## Raises -/

/-- Show the level of a Room's running command, a raise included (Table 04-12). -/
def Dev.showRun (d : Dev) (r : Nat) : Dev :=
  match d.running r with
  | some c => d.set ROOM_RUN.LEVEL r (d.runLevel c)
  | none => d

/-- Show whether and how far a semaphore's holder is raised, and how many wait (Table 04-16). Log: 62 (DEDUCED). -/
def Dev.showSem (d : Dev) (s : Nat) : Dev :=
  let up := if d.get SEM_STATE.HELD s = 1 then
    (d.que.raises.filter fun y => y.sem == s && y.queue == d.get SEM_OWNER.QUEUE s).map fun y => y.level else []
  let d1 := (d.set SEM_STATE.RAISED s (bit (!up.isEmpty))).set SEM_STATE.RAISED_LEVEL s (minList 0 up)
  d1.set SEM_STATE.WAITERS s (min 255 (d.que.cmds.filter fun y => y.phase == .semWait && y.arg 0 == s).length)

/-- A raise ends (R154): the waiter completes with 0x0020 while the semaphore is still held. -/
def Dev.endRaise (d : Dev) (x : Raise) : Dev :=
  let d1 := { d with que := { d.que with raises := d.que.raises.filter fun y => y != x } }
  let d1 := d1.showRun x.room
  let held := d1.get SEM_STATE.HELD x.sem == 1 && d1.get SEM_OWNER.QUEUE x.sem == x.queue
  match d1.cmd? x.waiter with
  | some c => (if held && c.phase == .semWait then d1.finish c 0x0020 else d1).showSem x.sem
  | none => d1.showSem x.sem

/-- The holder of a semaphore is raised for a waiter (R154): its queue has a command that is saved or not yet started and
less urgent than the waiter. -/
def Dev.raisesFor (d : Dev) (s : Nat) (w : Cmd) : Bool :=
  let q := d.get SEM_OWNER.QUEUE s
  d.get SEM_STATE.HELD s == 1 && w.phase == .semWait && !w.raised &&
    d.que.cmds.any fun x => x.queue == q && (x.phase == .saved || x.phase == .waiting) && decide (w.level < x.level)

/-- Raise the holder for a waiter where R154 asks for it. Log: 62 (DEDUCED). -/
def Dev.raiseFor (d : Dev) (id : Nat) : Dev :=
  match d.cmd? id with
  | none => d
  | some w =>
    let s := w.arg 0
    if !d.raisesFor s w then d
    else
      let r := d.get SEM_STATE.ROOM s
      let x : Raise := ⟨s, d.get SEM_OWNER.QUEUE s, w.level, w.id, r, d.now + d.rd TT_ROUND 0, false⟩
      let d1 := d.setCmd { w with raised := true }
      ((({ d1 with que := { d1.que with raises := d1.que.raises ++ [x] } }).showSem s).showRun r).tilePreempt r

/-- The raises that R154 asks for now. -/
def Dev.raiseAll (d : Dev) : Dev :=
  ((d.que.cmds.filter fun c => c.phase == .semWait).map fun c => c.id).foldl Dev.raiseFor d

/-! ## The steps of a switch -/

/-- T_switch in ns (R146). Log: 51 (DEDUCED). -/
def switchNs (sSave sRestore : Nat) : Nat := 8000 + sSave / 32 + sRestore / 32

/-- Replace a Room's switch. -/
def Dev.setSwitch (d : Dev) (r : Nat) (w : Switch) : Dev := d.setRoom r { d.room r with switch := some w }

/-- The switch is over (R146); a hold or an unload that waited for it stops the Room again (Table 04-7). -/
def Dev.endSwitch (d : Dev) (r : Nat) : Dev :=
  let d1 := (d.setRoom r { d.room r with switch := none, before := none }).set ROOM_STATUS.SWITCHING r 0
  let x := d1.room r
  let d2 := if x.unloadReq then d1.stopAtLessonEnd r else d1
  if x.holdReq != 0 && d2.roomState r == stLoaded then d2.stopForHold r x.holdReq else d2.tilePreempt r

/-- Every Spindle has stopped and the Yarns are empty: the Reels quiesce and the save starts (R146, R148, R368), at a variant change with
POINT 0x0000 for every Spindle (R281). A command that has completed meanwhile stays completed, with nothing to save (Table 04-7). -/
def Dev.switchStopped (d : Dev) (r : Nat) : Dev :=
  match (d.room r).switch with
  | some w =>
    if w.phase != .stopping || !(d.allStopped r) || !d.yarnsEmpty r then d
    else
      let d := if (d.room r).trap = 0 then d else d.endWith r (d.room r).trap
      let d := if w.byPhase then (d.roomSpindles r).foldl (fun (e : Dev) i => e.setSp i { e.sp i with point := 0 }) d else d
      let out := (w.outgoing.filter fun id => match d.running r with | some c => c.id == id | none => false)
      let d1 := (d.roomSpindles r).foldl Dev.quiesce d
      let s := if out.isSome then d.sSaveOf r else 0
      let point := match d.roomSpindles r with | i :: _ => (d.sp i).point | [] => 0
      let w1 := { w with phase := .saving, outgoing := out, sSave := s, point := point, slot := (d.freeSlot r).getD 3 }
      (if w.byPhase || out.isNone then d1 else d1.count ROOM_PREEMPT_CNT r 1).setSwitch r w1
  | none => d

/-- The outgoing command is saved (R145, R149, R281). -/
def Dev.saveOut (d : Dev) (r : Nat) (w : Switch) : Dev :=
  match w.outgoing.bind d.cmd? with
  | none => d
  | some c =>
    let v := d.get CFG_STATUS.ACTIVE_VAR r
    let parked := if w.slot < 3 then [] else (d.roomSpindles r).map d.parkSpindle
    let kept := if w.slot < 3 then (d.roomSpindles r).map d.keepRun else []
    let d1 := if w.slot < 3 then d.saveRoom r w.slot c w.point w.sSave w.byPhase else d
    let d2 := ((d1.roomSpindles r).foldl Dev.idleSpindle d1).setCmd
      { c with phase := .saved, slot := w.slot, variant := v, byPhase := w.byPhase, sSave := w.sSave, parked := parked, kept := kept }
    let d3 := ((d2.setRoom r { d2.room r with suspended := false }).wr ROOM_RUN r 0).showSlots r
    if w.byPhase then ((d3.count ROOM_PHASE_CNT r 1).set ROOM_PHASE_STAT.LAST_VAR r v).raise ROOM_PHASE_STAT.SAVED_EV r
    else d3

/-- The RUN command that a switch brings in, of those that the Lesson admits in which the switch began. A hold or a boundary that has come
during the switch waits for its end (Table 04-7). -/
def Dev.pickIn (d : Dev) (r : Nat) : Option Cmd :=
  let x := d.room r
  (d.setRoom r { x with due := false, holdReq := 0, cur := x.before.getD x.cur }).pickRun r 4 0

/-- A command becomes the one that the switch brings in: the choice is made as the restore step begins (Table 04-7). A save
with nothing to bring in ends with S_restore = 0 (R146, R281). Log: 51 (DEDUCED). -/
def Dev.chooseIn (d : Dev) (r : Nat) (w : Switch) : Dev :=
  match d.pickIn r with
  | some c =>
    d.setSwitch r { w with
      phase := .restoring
      incoming := some c.id
      sRestore := if c.phase == .saved then c.sSave else 0 }
  | none => (if w.outgoing.isSome then d.wr ROOM_SWITCH_NS r (switchNs w.sSave 0) else d).endSwitch r

/-- The save has ended and its record is committed (R148). A plane switch whose preload has failed cannot follow (R117).
Log: 176 (DEDUCED). -/
def Dev.saveDone (d : Dev) (r : Nat) : Dev :=
  match (d.room r).switch with
  | some w =>
    if w.phase != .saving || (d.roomSpindles r).any (fun i => d.get STR_STAT.QUIESCING i == 1) then d
    else
      let e := (d.saveOut r w).raiseAll
      if (e.room r).switchFails then e.planeFails r else e.chooseIn r w
  | none => d

/-- The queue served last at a level (R136). -/
def Dev.served (d : Dev) (r : Nat) (c : Cmd) : Dev :=
  d.setRoom r { d.room r with rr := setNth c.queue (d.room r).rr (d.effLevel c.queue c.level), fresh := false }

/-- The incoming command starts, or runs on where it was saved (R146, R257, R370). -/
def Dev.startIn (d : Dev) (r : Nat) (w : Switch) : Dev :=
  match w.incoming.bind d.cmd? with
  | none => d.endSwitch r
  | some c =>
    let d1 := (d.served r c).wr ROOM_SWITCH_NS r (switchNs w.sSave w.sRestore)
    let d2 := if c.phase == .saved then
        let e := c.heldBlocks.foldl Dev.reissue ((d1.roomSpindles r).foldl Dev.reopen d1)
        let e := (e.roomSpindles r).foldl (fun (e : Dev) i => if e.get SPX_VX_STAT.RUNNING i = 0 then e.quiesce i else e) e
        ((e.resumeSpindles r).setCmd { c with phase := .started, slot := 0, byPhase := false, parked := [], heldBlocks := [], kept := [] }).wr ROOM_RUN r
          (c.queue % 2 ^ 14 + 2 ^ 14 * d.runLevel c + 2 ^ 16)
      else d1.startRun c
    (d2.showSlots r).endSwitch r

/-- A restore has ended (R148, R150): its slot is freed, and the command starts at once or after the plane switch that
waits (R121). Where it met poison, VALID in memory stays. Log: 188 (DESIGN CHOICE). -/
def Dev.restoreDone (d : Dev) (r : Nat) : Dev :=
  match (d.room r).switch with
  | some w =>
    if w.phase != .restoring then d
    else match w.incoming.bind d.cmd? with
    | none => d.endSwitch r
    | some c =>
      if c.phase == .saved && decide (c.slot < 3) && d.slotPoisoned r c.slot then
        ((d.finish c 0x0011).showSlots r).endSwitch r
      else
        let d1 := if c.phase == .saved then d.restoreRoom r c else d
        if (d1.room r).switchFails then d1.planeFails r
        else if (d1.room r).switchTo.isSome then d1.setSwitch r { w with phase := .restored } else d1.startIn r w
  | none => d

/-! ## Lesson ends and starts -/

/-- The Lesson index that covers the present (R137): none before the Room's Lessons have entered the Timetable (R108), and
none in the slack of a Round that is held open (R141). -/
def Dev.coverNow (d : Dev) (r : Nat) : Option Nat :=
  let x := d.room r
  let t := d.now - d.get64 TT_ROUND_START_LO TT_ROUND_START_HI 0
  if !x.entered then none
  else (findIdx? (fun (l : Lesson) => decide (l.start ≤ t) && decide (t < l.start + l.len)) x.lessons 0).map fun p => p.1

/-- The end of a Lesson of a Room: the merges of R185, an armed trap (R178), an unload that drains (R110), a hold that
found no checkpoint (R125), and the raises whose Lesson it was (R154). -/
def Dev.lessonEnd (d : Dev) (r : Nat) : Dev :=
  let d1 := d.mergeRoom r
  let d2 := if (d1.room r).trap ≠ 0 && (d1.room r).switch.isNone && !d1.framesHaveCkpt r then (d1.stopAtLessonEnd r).settle r else d1
  let d3 := match d2.que.op with
    | some o => if o.kind = .unload ∧ o.room = r ∧ o.step = 0 then
        let e := { d2 with que := { d2.que with op := some { o with step := 1 } } }
        (e.setRoom r { e.room r with unloadReq := true }).stopAtLessonEnd r
      else d2
    | none => d2
  let d4 := if (d3.room r).holdReq != 0 && (d3.room r).switch.isNone && !d3.framesHaveCkpt r then (d3.suspend r).settle r else d3
  match d.lesson r with
  | none => d4
  | some l => if l.kind ≠ 0 then d4
    else (d4.que.raises.filter fun x => x.room == r && x.begun && decide (l.ceiling ≤ x.level)).foldl Dev.endRaise d4

/-- The standby planes will hold a variant: they do, its preload runs, or its preload begins (R115, R116). -/
def Dev.bringVariant (d : Dev) (r v : Nat) (inStandby : Bool) : Dev :=
  if inStandby || (d.room r).preload == some v then d
  else ((d.set CFG_STATUS.STANDBY_VALID r 0).setRoom r { d.room r with preloadFail := 0 }).openPreload r v

/-- A boundary that needs another variant (R113, R116, R117, R281, R282): a command that has started and not ended is saved, or with no
slot free runs on to its end. Log: 54 (DEDUCED). -/
def Dev.needVariant (d : Dev) (r v : Nat) : Dev :=
  let d1 := d.setRoom r { d.room r with switchTo := some v }
  let inStandby := d.get CFG_STATUS.STANDBY_VALID r == 1 && d.get CFG_STATUS.STANDBY_VAR r == v
  let d2 := d1.bringVariant r v inStandby
  let d3 := if inStandby then d2 else d2.late r
  if (d1.room r).switchFails && !inStandby then (d1.suspend r).planeFails r
  else match d.running r with
    | some c =>
      if (d.freeSlot r).isNone then ((d2.late r).raise ROOM_PHASE_STAT.DEFER_EV r).resume r
      else (d3.stopAtLessonEnd r).beginSwitch r c.id true
    | none => d3.resume r

/-- The start of the Lesson `k` of a LOADED Room, its variant being active (R138, R144). -/
def Dev.enterLesson (d : Dev) (r kind : Nat) : Dev :=
  if 2 ≤ kind then d.suspend r
  else match d.running r with
    | none => d.resume r
    | some c =>
      if d.moreUrgent r c && d.slotFor r (some 0) then (d.stopAtLessonEnd r).beginSwitch r c.id false
      else (d.resume r).setRoom r { (d.resume r).room r with fresh := false }

/-- The raises of a Room's commands whose Lesson begins (R154). -/
def Dev.beginRaises (d : Dev) (r : Nat) : Dev :=
  match d.lesson r with
  | some l =>
    if l.kind ≠ 0 then d else
    let f := fun (x : Raise) => if x.room == r && decide (l.ceiling ≤ x.level) then { x with begun := true } else x
    { d with que := { d.que with raises := d.que.raises.map f } }
  | none => d

/-- The Room is in the Lesson that covers the present, or in slack (R137, R138). A switch in progress comes first (Table 04-7), and what
the boundary asks for follows it. -/
def Dev.lessonStart (d : Dev) (r : Nat) : Dev :=
  let x := d.room r
  if d.roomState r ≠ stLoaded || x.unloadReq then d
  else if x.switch.isSome then
    let d1 := d.setRoom r { x with due := true }
    if (d.lesson r).any fun l => x.variantOf l != d.get CFG_STATUS.ACTIVE_VAR r then d1.late r else d1
  else
    let d1 := d.setRoom r { x with due := false }
    match d1.lesson r with
    | none => d1.suspend r
    | some l =>
      let d2 := d1.setRoom r { x with due := false, fresh := decide (l.kind ≤ 1) }
      if x.variantOf l != d.get CFG_STATUS.ACTIVE_VAR r then d2.needVariant r (x.variantOf l)
      else (d2.setRoom r { d2.room r with switchTo := none }).enterLesson r l.kind

/-- A boundary moves the Room into Lesson `k`, or into slack. -/
def Dev.moveTo (d : Dev) (r : Nat) (k : Option Nat) : Dev :=
  let x := d.room r
  let d1 := d.setRoom r { x with
    cur := k
    before := if x.switch.isSome then some (x.before.getD x.cur) else x.before
    lateDone := false }
  ((d1.showLesson r).beginRaises r).lessonStart r

/-- A Lesson of the Room starts or ends (R137, R138). Log: 69 (DEDUCED). -/
def Dev.lessonMove (d : Dev) (r : Nat) : Dev :=
  let k := d.coverNow r
  let x := d.room r
  if x.cur = k then (if x.due && x.switch.isNone then d.lessonStart r else d)
  else (if x.cur.isSome then d.lessonEnd r else d).moveTo r k

/-- After a switch, what a boundary that fell during it asks for (Table 04-7). -/
def Dev.catchUp (d : Dev) (r : Nat) : Dev :=
  if (d.room r).due && (d.room r).switch.isNone && (d.room r).switchTo.isNone then d.lessonMove r else d

/-! ## The plane switch -/

/-- A plane switch resets the metadata of both accumulator sets (R222). -/
def Dev.resetSets (d : Dev) (i : Nat) : Dev :=
  let d1 := (d.set SPX_MX_STAT.IN_USE0 i 0).set SPX_MX_STAT.IN_USE1 i 0
  d1.setSp i { d1.sp i with acc0 := AccSet.init, acc1 := AccSet.init }

/-- The planes exchange once the Room has stopped and its Yarns have drained (R62, R113, R116, R121); `slow` says that the
drain took longer than 1 µs. A restored command keeps its sets' metadata, which its record brought back (Table 06-5). A switch under way
goes on when an unload is requested (R121). Log: 163 (DEDUCED). -/
def Dev.switchPlanes (d : Dev) (r : Nat) (slow : Bool) : Dev :=
  let x := d.room r
  let restored := match x.switch with | some w => w.phase == .restored | none => false
  match x.switchTo with
  | none => d
  | some v =>
    let stands := d.get CFG_STATUS.STANDBY_VALID r == 1 && d.get CFG_STATUS.STANDBY_VAR r == v
    if x.switch.isNone && d.spindlesFree r && !stands && x.switchFails then d.planeFails r
    else if !(x.switch.isNone && d.spindlesFree r || restored) || !d.yarnsEmpty r || !stands
        || d.roomState r ≠ stLoaded || !(restored || d.allStopped r) then d
    else
      let d1 := if restored then d else (d.roomSpindles r).foldl (fun e i => (e.quiesce i).resetSets i) d
      let d2 := (if slow then d1.late r else d1).planeSwitch r
      let d3 := (d2.roomSpindles r).foldl Dev.showAccMode d2
      match x.switch with
      | some w => if restored then d3.startIn r w else d3
      | none => d3

/-! ## Commands -/

def execPlaneSwitch (r : Nat) (slow : Bool) (s : State) := s.onUnit 16 r fun d => (d.switchPlanes r slow).catchUp r

def execRoomHold (fn r : Nat) (s : State) := s.onHostUnit fn ROOM_CTL 16 r fun d => if mayAct fn r then d.roomHold r else d

def execRoomHoldRelease (fn r : Nat) (s : State) := s.onHostUnit fn ROOM_CTL 16 r fun d => if mayAct fn r then d.roomRelease r else d

def execLessonBoundary (r : Nat) (s : State) := s.onUnit 16 r fun d => (d.lessonMove r).settle r

def execSwitchStopped (r : Nat) (s : State) := s.onUnit 16 r fun d => d.switchStopped r

def execSaveDone (r : Nat) (s : State) := s.onUnit 16 r fun d => (d.saveDone r).catchUp r

def execRestoreDone (r : Nat) (s : State) := s.onUnit 16 r fun d => (d.restoreDone r).catchUp r

end Sys2Proof.Machine
end

