-- ==== Sys2Proof/Machine/Rooms.lean ====
section
/-! DEFINITION. Queues, command packets, the start of commands, semaphores and WAIT_TIME (Rooms, queues, the Timetable and
pre-emption, R127 to R136 and R152 to R156). -/

namespace Sys2Proof.Machine

/-! ## Queues -/

/-- A function reaches a queue: the physical function every one, a virtual function those of its own Room (R123). -/
def Dev.reachesQueue (d : Dev) (fn q : Nat) : Bool :=
  fn == 0 || (d.get QUE_CTL.BOUND q == 1 && d.get QUE_CTL.ROOM q + 1 == fn)

/-- A doorbell write (R128). Log: 30 (DEDUCED). -/
def Dev.doorbell (d : Dev) (fn q off tail : Nat) : Dev :=
  if off ≠ 0 || 16384 ≤ q then d
  else if d.get QUE_CTL.BOUND q = 0 then d.set QUE_STAT.DB_IGN q 1
  else if !d.reachesQueue fn q then d
  else if d.get QUE_CTL.ENABLE q = 0 then d.set QUE_STAT.DB_IGN q 1
  else if 2 ^ d.get QUE_SIZE.LOG2 q ≤ tail then (d.set QUE_STAT.CODE q 3).set QUE_STAT.ERR q 1
  else d.set QUE_TAIL.TAIL q tail

/-- QUE_STAT.ERR written as 1 (R128). -/
def Dev.queErrClear (d : Dev) (fn q : Nat) : Dev :=
  if q < 16384 ∧ d.reachesQueue fn q then d.set QUE_STAT.ERR q 0 else d

/-- The packet at a queue's head: from the device fast tier, or the bytes that the host read returned (R127).
Log: 189 (DESIGN CHOICE). -/
def Dev.packetAt (d : Dev) (q : Nat) (host : List (BitVec 8)) : List Nat :=
  let a := d.get64 QUE_BASE_LO QUE_BASE_HI q + 128 * d.get QUE_HEAD.HEAD q
  wordsOf 32 (if d.get QUE_CTL.LOC q = 1 then host else d.rdBytes a 128)

/-- A vector that the queue's function does not have (R578): a virtual function has 112. -/
def badVector (ws : List Nat) : Bool := bitAt (nth 0 ws 0) 8 && decide (112 ≤ bitsOf (nth 0 ws 1) 0 11)

/-- Fetch the next packet (R127, R129, R131, R136). -/
def Dev.packetFetch (d : Dev) (host : List (BitVec 8)) : Dev :=
  match d.nextFetch 4 0 with
  | none => d
  | some q =>
    let r := d.get QUE_CTL.ROOM q
    let lvl := d.get QUE_CTL.LEVEL q
    let head := d.get QUE_HEAD.HEAD q
    let ws := d.packetAt q host
    let c : Cmd := ⟨d.que.nextId, q, head, r, lvl, ws, .waiting, 0, 0, false, 0, 0, false, [], [], []⟩
    let d1 := if d.get QUE_CTL.LOC q = 1 then d.send (.hostRead (1 + r) (d.get64 QUE_BASE_LO QUE_BASE_HI q + 128 * head) 128) else d
    let d2 := d1.set QUE_HEAD.HEAD q ((head + 1) % 2 ^ d.get QUE_SIZE.LOG2 q)
    let d3 := { d2 with que := { d2.que with
      nextId := d2.que.nextId + 1
      rrFetch := setNth q d2.que.rrFetch (d.effLevel q lvl)
      cmds := d2.que.cmds ++ [c] } }
    let code := if packetCode ws ≠ 0 then packetCode ws else if badVector ws then 0x0002 else 0
    if code ≠ 0 then d3.finish c code
    else if c.opcode = 1 ∧ d3.effLevel q lvl = 0 then d3.admitLive r
    else d3

/-! ## RUN -/

/-- When a Room's Spindles are free, choose the RUN command that comes next (R136). A saved one is restored first, which
is a switch with nothing to save (R146, R148). Where they are not free, a level-0 command that has become ready may pre-empt (R144). -/
def Dev.commandStart (d : Dev) (r : Nat) : Dev :=
  let x := d.room r
  if x.switch.isSome || x.switchTo.isSome || x.next.isSome || !d.spindlesFree r || !d.allStopped r then d.tilePreempt r
  else match d.pickRun r 4 0 with
  | none => d
  | some c =>
    if c.phase == .saved then
      (d.setSwitch r ⟨.restoring, none, some c.id, c.slot, 0, 0, c.sSave, false⟩).set ROOM_STATUS.SWITCHING r 1
    else (d.served r c).setRoom r { (d.served r c).room r with next := some c.id }

/-- The chosen RUN command starts on the Room's Spindles, if it may still start (R135, R249). -/
def Dev.runStart (d : Dev) (r : Nat) : Dev :=
  match (d.room r).next with
  | none => d
  | some id =>
    let d1 := d.setRoom r { d.room r with next := none }
    match d1.cmd? id with
    | some c => if d1.ready c && d1.spindlesFree r && (d1.room r).switch.isNone && (d1.room r).switchTo.isNone then d1.startRun c else d1
    | none => d1

/-! ## Semaphores -/

/-- Commands that wait for a semaphore, in order of arrival (R153). -/
def Dev.waiters (d : Dev) (s : Nat) : List Cmd := d.que.cmds.filter fun c => c.phase == .semWait && c.arg 0 == s

/-- A command takes a free semaphore and completes (R152, R153). -/
def Dev.semTake (d : Dev) (s : Nat) (c : Cmd) : Dev :=
  let d1 := ((d.set SEM_STATE.HELD s 1).set SEM_STATE.ROOM s c.room).set SEM_STATE.LEVEL s c.level
  (((d1.set SEM_OWNER.QUEUE s c.queue).set SEM_OWNER.SEQ s c.seq).finish c 0).showSem s

/-- The waiter that is served next, of the Rooms that may acquire (R152): the most urgent level, then the earliest arrival (R153). -/
def Dev.nextWaiter (d : Dev) (s : Nat) : Option Cmd :=
  let ws := (d.waiters s).filter fun c => bitAt (d.get SEM_ACL.ROOMS s) c.room
  ws.find? fun c => ws.all fun x => decide (c.level ≤ x.level)

/-- A semaphore becomes free, and the next waiter takes it (R153, R155). -/
def Dev.semFree (d : Dev) (s : Nat) : Dev :=
  let d1 := ((d.set SEM_STATE.HELD s 0).set SEM_STATE.ROOM s 0).set SEM_STATE.LEVEL s 0
  let d2 := (d1.wr SEM_OWNER s 0).showSem s
  match d2.nextWaiter s with
  | some c => d2.semTake s c
  | none => d2

/-- SEM_ACQUIRE starts (R153). A waiter goes to the end of the list of commands, which keeps the order of arrival. -/
def Dev.semAcquire (d : Dev) (c : Cmd) : Dev :=
  let s := c.arg 0
  if !bitAt (d.get SEM_ACL.ROOMS s) c.room then d.finish c 0x0022
  else if d.get SEM_STATE.HELD s = 0 then d.semTake s c
  else
    let w := { c with phase := .semWait, deadline := if c.arg 1 = 0 then 0 else d.now + 1000 * c.arg 1 }
    let d1 := d.dropCmd c.id
    (({ d1 with que := { d1.que with cmds := d1.que.cmds ++ [w] } }).showSem s).raiseFor c.id

/-- SEM_RELEASE starts (R153). -/
def Dev.semRelease (d : Dev) (c : Cmd) : Dev :=
  let s := c.arg 0
  if d.get SEM_STATE.HELD s = 1 ∧ d.get SEM_STATE.ROOM s = c.room then ((d.finish c 0).semFree s).raiseAll
  else d.finish c 0x0023

/-- A write of SEM_ACL (R152): a waiter of a Room that may no longer acquire completes as one that never might (R153).
Log: 182 (DEDUCED). -/
def Dev.aclWrite (d : Dev) (s v : Nat) : Dev :=
  let d1 := d.set SEM_ACL.ROOMS s v
  (((d1.waiters s).filter fun c => !bitAt v c.room).foldl (fun (e : Dev) c => e.finish c 0x0022) d1).showSem s

/-- TIMEOUT_US has elapsed for a waiter (R153). -/
def Dev.semTimeout (d : Dev) (id : Nat) : Dev :=
  match d.cmd? id with
  | some c => if c.phase == .semWait && c.deadline ≠ 0 && decide (c.deadline ≤ d.now) then (d.finish c 0x0021).showSem (c.arg 0) else d
  | none => d

/-- A Round has passed since a raise of a semaphore (R154). Log: 62 (DEDUCED). -/
def Dev.inheritTimeout (d : Dev) (s : Nat) : Dev :=
  ((d.que.raises.filter fun x => x.sem == s && decide (x.limit ≤ d.now)).foldl Dev.endRaise d).raiseAll

/-- SEM_STATE.FORCE_REL by the physical function (R155). Log: 63 (DEDUCED). -/
def Dev.forceRel (d : Dev) (fn s : Nat) : Dev :=
  if fn = 0 ∧ s < 4096 ∧ d.get SEM_STATE.HELD s = 1 then ((d.set SEM_STATE.BROKEN s 1).semFree s).raiseAll else d

/-! ## Commands -/

def execDoorbell (fn q off tail : Nat) (s : State) := s.onDoor fn fun d => d.doorbell fn q off tail

def execQueErrClear (fn q : Nat) (s : State) := s.onHost fn QUE_STAT fun d => d.queErrClear fn q

def execPacketFetch (host : List (BitVec 8)) (s : State) := s.onDev fun d => (d.packetFetch host).raiseAll

def execCommandStart (r : Nat) (s : State) := s.onUnit 16 r fun d => d.commandStart r

def execCmdNop (id : Nat) (s : State) := s.onDev fun d =>
  match d.starts id 0 with
  | some c => d.finish c 0
  | none => d

def execCmdRun (r : Nat) (s : State) := s.onUnit 16 r fun d => d.runStart r

def execSemAcquire (id : Nat) (s : State) := s.onDev fun d =>
  match d.starts id 2 with
  | some c => d.semAcquire c
  | none => d

def execSemRelease (id : Nat) (s : State) := s.onDev fun d =>
  match d.starts id 3 with
  | some c => d.semRelease c
  | none => d

def execSemWaitTimeout (id : Nat) (s : State) := s.onDev fun d => d.semTimeout id

def execSemInheritTimeout (sem : Nat) (s : State) := s.onUnit 4096 sem fun d => d.inheritTimeout sem

def execForceRel (fn sem : Nat) (s : State) := s.onHost fn SEM_STATE fun d => d.forceRel fn sem

def execWaitTime (id : Nat) (s : State) := s.onDev fun d =>
  match d.starts id 4 with
  | some c => d.begin c .timeWait (c.arg64 0)
  | none => d

def execWaitTimeDue (id : Nat) (s : State) := s.onDev fun d =>
  match d.cmd? id with
  | some c => if c.opcode == 4 && c.phase == .timeWait && decide (c.deadline ≤ d.now) then d.finish c 0 else d
  | none => d

end Sys2Proof.Machine
end

