-- ==== Sys2Proof/Machine/NoteEnds.lean ====
section
/-! DEFINITION. The ends of the Note path: what a destination endpoint does with a request, and what a response, or its
absence, does at the source (R64 to R70, R132, R153, R157, R365). -/

namespace Sys2Proof.Machine

/-! ## Packets in flight -/

/-- The packet at place `k` of the flight may arrive: nothing of its channel between the same two endpoints is before it
(R69). -/
def Dev.arrives (d : Dev) (k typ : Nat) : Option NotePacket :=
  match d.net.flight[k]? with
  | none => none
  | some p =>
    if p.typ == typ && !((d.net.flight.take k).any fun q => q.src == p.src && q.dst == p.dst && (noteRequest q.typ == noteRequest p.typ))
    then some p else none

/-- Take the packet at place `k` out of the flight. Log: 36 (DESIGN CHOICE). -/
def Dev.takeFlight (d : Dev) (k : Nat) : Dev :=
  { d with net := { d.net with flight := d.net.flight.take k ++ d.net.flight.drop (k + 1) } }

/-- A destination answers a request (R68, R69). -/
def Dev.answer (d : Dev) (p : NotePacket) (typ op : Nat) (payload : List (BitVec 8)) : Dev :=
  let q : NotePacket := { p with
    typ := typ
    dst := p.src
    src := p.dst
    addr := 0
    op := op
    fence := false
    payload := payload
    len := (payload.length + 3) / 4 - 1 }
  { d with net := { d.net with flight := d.net.flight ++ [q] } }

/-- A destination refuses a request (R68); an uncorrectable error is logged (Tables 18-1, 18-8). -/
def Dev.nackNote (d : Dev) (p : NotePacket) (reason : Nat) : Dev :=
  (if reason = 4 then d.log 5 1 0 (some p.room) 0 p.dst p.src 0 0 else d).answer p ntNack reason []

/-! ## Requests to Spindles and memory -/

/-- Offsets of the Desk window that a Note packet may write: the Desk and the Bobbin. Log: 39 (DEDUCED). -/
def noteWritable (a n : Nat) : Bool := decide (a + n ≤ 0x840000)

/-- Offsets of the Desk window that a Note packet may read: everything that is not reserved (Table 02-11). Log: 39 (DEDUCED). -/
def noteReadable (a n : Nat) : Bool :=
  decide (a + n ≤ 0x878000) || (decide (0x880000 ≤ a) && decide (a + n ≤ 0x898000))

/-- The request's TYPE, LEN and OP are valid for a Spindle or memory endpoint (R66, R157). -/
def NotePacket.shapeOk (p : NotePacket) : Bool :=
  match p.typ with
  | 0 => p.op == 0 && decide (4 ≤ p.payload.length) && p.payload.length == 4 * (p.len + 1)
  | 1 => p.op == 0 && p.payload.isEmpty && decide (p.len < 64)
  | 2 =>
    match p.op with
    | 0 | 2 => p.payload.length == 4 && p.addr % 4 == 0
    | 1 | 3 => p.payload.length == 8 && p.addr % 8 == 0
    | 4 => p.payload.length == 8 && p.addr % 4 == 0
    | 5 => p.payload.length == 16 && p.addr % 8 == 0
    | _ => false
  | _ => false

/-- Bytes of the word that an atomic operation acts on. -/
def atomicBytes (op : Nat) : Nat := if op % 2 = 0 then 4 else 8

/-- Bytes of memory that the request touches at its destination. -/
def NotePacket.span (p : NotePacket) : Nat := if p.typ = ntAtomic then atomicBytes p.op else p.bytes

/-- Where the request acts: the device physical address, or the Desk window address. -/
def NotePacket.place (p : NotePacket) : Nat := if p.dst < 0x400 then deskBase p.dst + p.addr else p.addr

/-- The NACK reason of a request to a Spindle or memory endpoint, 0 for none; the lowest that applies (R21, R68).
Log: 37 (DEDUCED); 38 (DEDUCED); 39 (DEDUCED). -/
def Dev.nackReason (d : Dev) (p : NotePacket) (bad : Bool) : Nat :=
  let own := d.spindleRoom p.dst
  firstCode
    [need (decide (0x400 ≤ p.dst) || own == some p.room) 1,
     need (decide (0x400 ≤ p.dst) || match own with
       | some r => d.roomState r == stLoaded
       | none => false) 2,
     need p.shapeOk 3,
     need (!bad && !(decide (p.typ ≠ ntWrite) && (d.poisoned p.place p.span || d.poisonedW p.place p.span || d.deadRange p.place p.span))) 4,
     need (if p.dst < 0x400 then (if p.typ = ntRead then noteReadable p.addr p.span else noteWritable p.addr p.span)
       else decide ((if p.dst = 0x400 then decide (p.addr + p.span ≤ spareEnd) else decide (ctBase ≤ p.addr)) = true)
         && d.accessCode (some p.room) p.addr p.span == 0) 5]

/-- The value that an atomic operation leaves (R157, Table 04-9): old value and payload as numbers. FADD adds modulo the
width. Log: 42 (DEDUCED). -/
def atomicNew (op old arg : Nat) : Nat :=
  match op with
  | 0 => (old + arg) % 2 ^ 32
  | 1 => (old + arg) % 2 ^ 64
  | 4 => if old = arg % 2 ^ 32 then arg / 2 ^ 32 else old
  | 5 => if old = arg % 2 ^ 64 then arg / 2 ^ 64 else old
  | _ => arg

/-- A memory endpoint can serve the request now: the Room's balance is positive and the channel does not retrain (R322,
R332). Log: 39 (DEDUCED). -/
def Dev.noteServed (d : Dev) (p : NotePacket) : Bool := decide (p.dst < 0x400) || !d.requestWaits (some p.room) p.addr p.span

/-- Charge a request to a memory endpoint as a Reel access (R364). Log: 40 (DEDUCED). -/
def Dev.noteCharge (d : Dev) (p : NotePacket) : Dev :=
  if p.dst < 0x400 then d else d.payOne (some p.room) (p.typ != ntRead) p.addr p.span

/-- Write what a request writes, to memory or to a Spindle's storage. -/
def Dev.noteStore (d : Dev) (p : NotePacket) (bs : List (BitVec 8)) : Dev :=
  if p.dst < 0x400 then d.wrDesk p.dst p.place bs else d.wrBytes p.place bs

/-- Perform a request that has passed its checks (R66, R157). -/
def Dev.notePerform (d : Dev) (p : NotePacket) : Dev :=
  let a := p.place
  let d1 := d.noteCharge p
  match p.typ with
  | 0 => if d1.deadRange a p.span then d1.nackNote p 4 else (d1.noteStore p p.payload).answer p ntAck 0 []
  | 1 => d1.answer p ntReadResp 0 (d1.rdBytes a p.span)
  | _ =>
    let n := atomicBytes p.op
    let old := d1.rdLe a n
    (d1.noteStore p (toLe n (atomicNew p.op old (ofLe p.payload)))).answer p ntAtomicResp 0 (toLe n old)

/-- A WRITE, READ or ATOMIC at a Spindle or a memory endpoint. -/
def Dev.noteAccess (d : Dev) (k : Nat) (p : NotePacket) (bad : Bool) : Dev :=
  let c := d.nackReason p bad
  if c ≠ 0 then
    let d1 := (d.takeFlight k).nackNote p c
    if c = 5 ∧ 0x400 ≤ p.dst then d1.winEv (some p.room) else d1
  else if !d.noteServed p then d.heldAt (some p.room) p.addr
  else (d.takeFlight k).notePerform p

/-! ## Service endpoints -/

/-- A SIGNAL to the semaphore block (R153). Log: 41 (DEDUCED). -/
def Dev.semSignal (d : Dev) (p : NotePacket) (bad : Bool) : Dev :=
  let s := p.addr % 4096
  let c := firstCode
    [need (d.get SEM_STATE.HELD s == 1 && d.get SEM_STATE.ROOM s == p.room) 1,
     need (p.addr / 4096 % 16 == 1 && p.op == 0 && p.len == 0 && p.payload == toLe 4 0) 3, need (!bad) 4, need (decide (p.addr < 2 ^ 16)) 5]
  if c ≠ 0 then d.nackNote p c else (d.semFree s).answer p ntAck 0 []

/-- A SIGNAL to the queue engine (R132): it names the running RUN command by queue and ring index. Log: 41 (DEDUCED). -/
def Dev.runSignal (d : Dev) (p : NotePacket) (bad : Bool) : Dev :=
  let q := p.addr % 2 ^ 14
  let names := match d.running p.room with
    | some c => c.queue == q && c.index == p.addr / 2 ^ 14 % 2 ^ 16 && (d.room p.room).ending.isNone
    | none => false
  let c := firstCode
    [need (d.get QUE_CTL.BOUND q == 0 || d.get QUE_CTL.ROOM q == p.room) 1,
     need (names && p.op == 0 && p.len == 0 && p.payload.length == 4) 3, need (!bad) 4, need (decide (p.addr < 2 ^ 30)) 5]
  if c ≠ 0 then d.nackNote p c
  else ((d.setRoom p.room { d.room p.room with ending := some (ofLe p.payload % 2 ^ 16) }).answer p ntAck 0 []).tryEnd p.room

/-- A READ at the semaphore block (R68, R153): the SEM_STATE word. -/
def Dev.semRead (d : Dev) (p : NotePacket) (bad : Bool) : Dev :=
  let c := firstCode [need (p.op == 0 && p.len == 0 && p.payload.isEmpty) 3, need (!bad) 4, need (decide (p.addr < 4096)) 5]
  if c ≠ 0 then d.nackNote p c else d.answer p ntReadResp 0 (toLe 4 (d.rd SEM_STATE p.addr))

/-- A request arrives at its destination (R66 to R69). Log: 36 (DESIGN CHOICE); 40 (DEDUCED). -/
def Dev.noteArrive (d : Dev) (k typ : Nat) (bad : Bool) : Dev :=
  match d.arrives k typ with
  | none => d
  | some p =>
    if p.dst < 0x400 ∨ p.dst = 0x400 ∨ p.dst = 0x401 then d.noteAccess k p bad
    else
      let d1 := d.takeFlight k
      if p.dst = 0x410 then
        (if typ = ntSignal then d1.semSignal p bad else if typ = ntRead then d1.semRead p bad else d1.nackNote p 3)
      else if p.dst = 0x411 && typ == ntSignal then d1.runSignal p bad
      else d1.nackNote p 3

/-! ## Responses -/

/-- The tag of a packet whose request has timed out: it answers no request any more (R70). Log: 43 (DEDUCED). -/
def lateTag : Nat := 64

/-- The request that a response answers. -/
def Dev.answered? (d : Dev) (p : NotePacket) : Option NoteReq :=
  d.net.notes.find? fun q => q.src == p.dst && q.tag == p.tag

/-- A request has been answered, or has timed out: its TAG is free (R70). Log: 43 (DEDUCED). -/
def Dev.dropNote (d : Dev) (q : NoteReq) : Dev :=
  { d with net := { d.net with notes := d.net.notes.filter fun x => !(x.src == q.src && x.tag == q.tag) } }

/-- What a good response does for its request (R356, R359, R362). -/
def Dev.noteGood (d : Dev) (q : NoteReq) (data : List (BitVec 8)) : Dev :=
  match q.stream with
  | none => d
  | some s =>
    if (d.reel q.src).streams.length ≤ s then d
    else if q.write then (d.setStrm q.src s ((d.strm q.src s).add q.unit q.len)).tryEndAt q.src
    else d.fill q.src s q.unit q.off data

/-- A response arrives (R70, R365, R369): one that comes late is discarded and counted; one whose Reel or command has gone
on is discarded. -/
def Dev.noteResponse (d : Dev) (k typ : Nat) : Dev :=
  match d.arrives k typ with
  | none => d
  | some p =>
    let d1 := d.takeFlight k
    match d1.answered? p with
    | none => d1.count SPX_NOTE_DROP 0 1
    | some q =>
      let d2 := d1.dropNote q
      if q.stale then (if q.write then d2 else d2.waste q.src q.len)
      else if typ = ntNack then d2.noteFail q.src (0x0340 + p.op) q.stream q.unit q.addr
      else d2.noteGood q p.payload

/-- A request has been unanswered for 10 µs (R70, R365): what is still in flight of it comes late. -/
def Dev.noteTimeout (d : Dev) (i tag : Nat) : Dev :=
  match d.net.notes.find? fun q => q.src == i && q.tag == tag with
  | none => d
  | some q =>
    if d.now < q.time + 10000 then d
    else
      let old := fun (p : NotePacket) =>
        if p.tag == tag && (if noteRequest p.typ then p.src == i else p.dst == i) then { p with tag := lateTag } else p
      let d1 := { d with net := { d.net with flight := d.net.flight.map old } }
      let d2 := d1.dropNote q
      if q.stale then d2 else d2.noteFail i 0x0331 q.stream q.unit q.addr

/-! ## Commands -/

def execNoteWrite (k : Nat) (bad : Bool) (s : State) := s.onDev fun d => d.noteArrive k ntWrite bad

def execNoteRead (k : Nat) (bad : Bool) (s : State) := s.onDev fun d => d.noteArrive k ntRead bad

def execNoteAtomic (k : Nat) (bad : Bool) (s : State) := s.onDev fun d => d.noteArrive k ntAtomic bad

def execNoteSignal (k : Nat) (bad : Bool) (s : State) := s.onDev fun d => d.noteArrive k ntSignal bad

def execNoteAck (k : Nat) (s : State) := s.onDev fun d => d.noteResponse k ntAck

def execReadResp (k : Nat) (s : State) := s.onDev fun d => d.noteResponse k ntReadResp

def execAtomicResp (k : Nat) (s : State) := s.onDev fun d => d.noteResponse k ntAtomicResp

def execNoteNack (k : Nat) (s : State) := s.onDev fun d => d.noteResponse k ntNack

def execNoteTimeout (i tag : Nat) (s : State) := s.onUnit 1024 i fun d => d.noteTimeout i tag

end Sys2Proof.Machine
end

