-- ==== Sys2Proof/Machine/Spindle.lean ====
section
/-! DEFINITION. A Spindle's storage errors and its microsequence: instruction fields, descriptors, operands, masks, and the
sequencer instructions (Vector engine and the Bobbin, R248 to R257; R519, R520). -/

namespace Sys2Proof.Machine

/-! ## Poison -/

/-- The first of some ranges of Spindle storage that holds a poisoned word. -/
def Dev.firstPoison (d : Dev) (rs : List (Nat × Nat)) : Option (Nat × Nat) := rs.find? fun p => d.poisonedW p.1 p.2

/-! ## Instructions -/

/-- The 16 bytes of a slot of the active microsequence (R252). -/
def Dev.vslot (d : Dev) (i n : Nat) : Nat := d.slotLe i n 0 16

/-- The instruction at which a Spindle stands. Log: 8 (DESIGN CHOICE); 9 (DESIGN CHOICE). -/
def Dev.insAt (d : Dev) (i : Nat) : Nat := d.vslot i (d.get SPX_VX_STAT.IP i)

/-- A Spindle may issue an instruction of this opcode: it runs, has not stopped, does not wait, and stands at it. One whose
RUN command has completed (R132) still runs to its END (R252).
Log: 9 (DESIGN CHOICE). Log: 163 (DEDUCED). -/
def Dev.canIssue (d : Dev) (i op : Nat) : Bool :=
  decide (i < 1024) && d.get SPX_VX_STAT.RUNNING i == 1 && d.get SPX_VX_STAT.STOPPED i == 0
    && d.get SPX_VX_STAT.WAITING i == 0 && vOp (d.insAt i) == op
    && (d.spindleRoom i).isSome

/-- The Spindle moves to slot `ip`; the instruction counts as issued (Table 08-9). A Spindle whose command has ended
meanwhile stays idle. -/
def Dev.goTo (d : Dev) (i ip : Nat) : Dev :=
  if d.get SPX_VX_STAT.RUNNING i = 0 then d else (d.set SPX_VX_STAT.IP i ip).count SPX_VX_ISSUE_CNT i 1

/-- The next slot. -/
def Dev.issued (d : Dev) (i : Nat) : Dev := d.goTo i (d.get SPX_VX_STAT.IP i + 1)

/-- Issue an instruction of an opcode: its effect on its word, then the next slot. -/
def Dev.issue (d : Dev) (i op : Nat) (f : Nat → Dev → Dev) : Dev :=
  if d.canIssue i op then (f (d.insAt i) d).issued i else d

/-! ## Descriptors, masks and operands -/

/-- What a descriptor gives now, in signed 32-bit arithmetic (R254). -/
def Dev.desc (d : Dev) (i e : Nat) : Int :=
  let w := d.vslot i (e % 64)
  let ls := (d.sp i).loops
  toSigned 32 (ofSigned 32 (((List.range 6).map fun l =>
    toSigned 16 (bitsOf w (19 + 16 * l) 16) * ((nth ⟨0, 0, 0⟩ ls l).index : Int)).foldl (· + ·) (bitsOf w 2 17 : Int)))

/-- The Desk window address that a Desk descriptor gives. -/
def Dev.deskAt (d : Dev) (i e : Nat) : Nat := deskBase i + 64 * ((d.desc i e).toNat % 131072)

/-- Lane `l` is enabled (R255). -/
def Dev.lane? (d : Dev) (i w l : Nat) : Bool :=
  !vMaskEn w || (decide (bitsOf (d.vslot i (vMask w)) 115 9 ≤ l) && decide ((l : Int) < d.desc i (vMask w)))

/-- Base of a Bobbin line. -/
def bobLine (i n : Nat) : Nat := deskBase i + offBobbin + 1024 * n

/-- Address of a scalar word (R248). -/
def scalarAt (i n : Nat) : Nat := bobLine i 247 + 4 * (n % 256)

/-- The line that an operand names (R253). -/
def Dev.lineOf (d : Dev) (i v : Nat) : Nat := (if v / 256 = 0 then v else (d.desc i (v % 64)).toNat) % 256

/-- The Bobbin range that an operand reads. -/
def Dev.operandRange (d : Dev) (i v : Nat) : List (Nat × Nat) :=
  match v / 256 with
  | 2 => [(scalarAt i v, 4)]
  | 3 => []
  | _ => [(bobLine i (d.lineOf i v), 1024)]

/-- The lanes of a Bobbin line. -/
def Dev.lineCodes (d : Dev) (i lanes n : Nat) : List Nat :=
  let v := d.rdLe (bobLine i n) 1024
  (List.range (lineLanes lanes)).map fun l => unpack (8 * laneBytes lanes) v l

/-- The lanes of a source operand, each with the saturations of its reading (R253): a scalar word reaches 16-bit lanes by
conversion. An unused operand gives zeros. Log: 71 (DEDUCED). -/
def Dev.source (d : Dev) (i lanes v : Nat) : List (Nat × Nat) :=
  match v / 256 with
  | 2 =>
    let s := d.rdLe (scalarAt i v) 4
    let c := if lanes = 1 ∨ lanes = 2 then conv (laneFmt lanes) (elemRaw 0 s) else (s, Tally.none)
    List.replicate (lineLanes lanes) (c.1, c.2.sat)
  | 3 => List.replicate (lineLanes lanes) (0, 0)
  | _ => (d.lineCodes i lanes (d.lineOf i v)).map fun c => (c, 0)

/-- Write the lanes of a line. -/
def Dev.putLine (d : Dev) (i lanes n : Nat) (cs : List Nat) : Dev := d.wrBytes (bobLine i n) (packCodes (8 * laneBytes lanes) cs)

/-- Poison ranges of a Spindle's storage. -/
def Dev.poisonRanges (d : Dev) (rs : List (Nat × Nat)) : Dev := rs.foldl (fun (e : Dev) r => e.poisonWords r.1 r.2) d

/-- An instruction that issues counts, whatever its operands hold (Table 08-9). -/
def Dev.counted (d : Dev) (i : Nat) : Dev := d.count SPX_VX_ISSUE_CNT i 1

/-- An instruction meets a poisoned operand (R42, R519): its result is poisoned and the command ends. -/
def Dev.poisonOperand (d : Dev) (i : Nat) (result : List (Nat × Nat)) (p : Nat × Nat) : Dev :=
  (((d.counted i).journalAll i result).poisonRanges result).poisonRead i (p.1 - deskBase i)

/-- The Desk ranges of an LD or ST of AUX + 1 lines: elements from descriptor `e`, and scales from descriptor SB. -/
def Dev.deskRanges (d : Dev) (i w e : Nat) : List (Nat × Nat) :=
  let n := lineLanes (vLanes w)
  let f := vFmt w
  (List.range (vAux w + 1)).flatMap fun j =>
    (d.deskAt i e + 1024 * j, n * fmtWidth f / 8)
      :: (if blockScaled f then [(d.deskAt i (vSb w) + j * n / 32, n / 32)] else [])

/-- What an instruction writes: Desk words, a scalar word or lines of the Bobbin (Table 08-3). -/
def Dev.resultOf (d : Dev) (i w : Nat) : List (Nat × Nat) :=
  let op := vOp w
  if op < 0x10 then []
  else if op = 0x49 then d.deskRanges i w (vDst w)
  else if vDst w / 256 = 2 then [(scalarAt i (vDst w), 4)]
  else if op = 0x48 then (List.range (vAux w + 1)).map fun j => (bobLine i ((d.lineOf i (vDst w) + j) % 256), 1024)
  else if 0x40 ≤ op ∧ op ≤ 0x42 then [(bobLine i (d.lineOf i (vDst w)), 4)]
  else [(bobLine i (d.lineOf i (vDst w)), 1024)]

/-- An instruction issues and reads Spindle storage (R42, R519): `err` is an error that it meets, as a Desk window offset and whether
it is a double-bit one. A corrected word is counted; a double-bit error poisons the result and ends the command. -/
def Dev.readErr (d : Dev) (i op : Nat) (err : Option (Nat × Bool)) (go : Dev → Dev) : Dev :=
  if !d.canIssue i op then d else
  match err with
  | none => go d
  | some (_, false) => let e := d.correctedWord i; if e.canIssue i op then go e else e
  | some (off, true) =>
    let rs := d.resultOf i (d.insAt i)
    (((d.counted i).journalAll i rs).poisonRanges rs).storageError i off true

/-! ## Sequencer instructions -/

/-- Open loops, shown in DEPTH. -/
def Dev.setLoops (d : Dev) (i : Nat) (ls : List LoopSt) : Dev := (d.setSp i { d.sp i with loops := ls }).set SPX_VX_STAT.DEPTH i ls.length

/-- LOOP (R254). -/
def Dev.loopOpen (d : Dev) (i w : Nat) : Dev :=
  d.setLoops i ((d.sp i).loops ++ [⟨d.get SPX_VX_STAT.IP i + 1, vAux w + 1, 0⟩])

/-- ENDLOOP (R254): back to the loop's first slot while iterations remain, else on. -/
def Dev.endLoop (d : Dev) (i : Nat) : Dev :=
  let ls := (d.sp i).loops
  match ls.getLast? with
  | none => d.issued i
  | some l =>
    if l.index + 1 < l.count then (d.setLoops i (ls.dropLast ++ [{ l with index := l.index + 1 }])).goTo i l.start
    else (d.setLoops i ls.dropLast).issued i

/-- The condition of a WAIT (Table 08-4, R360): the state after it where it holds. Log: 81 (DEDUCED). -/
def Dev.waitHolds (d : Dev) (i w : Nat) : Option Dev :=
  match vCond w % 16 with
  | 0 => if d.tilesOpen i ((d.sp i).issued - vAux w) then none else some d
  | 1 =>
    let k := 4 * i + bitsOf (vCond w) 4 2
    if d.yMarks k = 0 then none else some (d.setYMarks k (d.yMarks k - 1))
  | 2 =>
    match d.streamOfBuf i (vAux w % 512) with
    | none => none
    | some s =>
      if bitAt (vAux w) 15 then some (d.releaseBuf i s (vAux w % 512))
      else if d.bufferReady i s then some (d.setStrm i s { d.strm i s with waited := (d.strm i s).waited + 1 })
      else none
  | 3 => some d
  | 4 => if (d.notesOf i).isEmpty then some d else none
  | _ => none

/-- WAIT (R256): it issues, or blocks. -/
def Dev.waitIns (d : Dev) (i w : Nat) : Dev :=
  match d.waitHolds i w with
  | some e => e.issued i
  | none => (d.set SPX_VX_STAT.WAITING i 1).set SPX_VX_STAT.COND i (vCond w % 16)

/-- The condition of a blocked WAIT has come to hold (R256); `cycles` FCLK cycles it was blocked. -/
def Dev.waitEnds (d : Dev) (i cycles : Nat) : Dev :=
  if 1024 ≤ i || d.get SPX_VX_STAT.WAITING i = 0 || d.get SPX_VX_STAT.STOPPED i = 1 then d
  else match d.waitHolds i (d.insAt i) with
    | some e => ((e.set SPX_VX_STAT.WAITING i 0).count SPX_VX_WAIT_CNT i cycles).issued i
    | none => d

/-- CKPT (R257). -/
def Dev.checkpoint (d : Dev) (i w : Nat) : Dev :=
  let d1 := d.issued i
  if (d.sp i).stopReq = .none then d1
  else ((d1.set SPX_VX_STAT.STOPPED i 1).setSp i { d1.sp i with stopReq := .none, point := vAux w }).settleAt i

/-- END (R252, R368): the Spindle issues nothing more, and its Reel quiesces. -/
def Dev.endIns (d : Dev) (i : Nat) : Dev :=
  let d1 := ((d.issued i).set SPX_VX_STAT.RUNNING i 0).setLoops i []
  ((d1.setSp i { d1.sp i with stopReq := .none, point := 0 }).quiesce i).settleAt i

/-- NSIG (R253): it waits for a free TAG (R70), and reads its words as it issues. -/
def Dev.nsig (d : Dev) (i w : Nat) : Dev :=
  if !d.mayInject i false then d
  else
    let n := vAux w % 16 + 1
    let words := (List.range n).map fun k => scalarAt i (vSb w + k)
    match d.firstPoison ((scalarAt i (vSa w), 4) :: words.map fun a => (a, 4)) with
    | some p => d.poisonOperand i [] p
    | none =>
      let pay := (words.map fun a => d.rdBytes a 4).flatten
      (d.issued i).inject i ⟨ntSignal, 0, 0, n - 1, false, 0, vCond w % 2 ^ 12, 0, d.rdLe (scalarAt i (vSa w)) 4, 0, pay⟩ none 0 0

/-- Send Yarn words in order while every destination grants a credit (R53): what is left, and the state. -/
def Dev.sendWords (d : Dev) (i : Nat) : List (Nat × Nat × Nat) → List (Nat × Nat × Nat) × Dev
  | [] => ([], d)
  | (p, v, m) :: t => if d.mayYarn i p 1 then (d.sendYarn i p v m).sendWords i t else ((p, v, m) :: t, d)

/-- Send what is left of a YSEND; with its last word the instruction is over (R253). -/
def Dev.ysendGo (d : Dev) (i lost : Nat) (l : List (Nat × Nat × Nat)) : Dev :=
  let q := (d.count SPX_VX_DESK_CNT i lost).sendWords i l
  let e := q.2.setSp i { q.2.sp i with yout := q.1 }
  if !q.1.isEmpty then e
  else
    let e1 := e.issued i
    if (e1.sp i).stopReq = .next then (e1.stopSpindle i).settleAt i else e1

/-- YSEND (R253): its words, the last one with its marker. -/
def Dev.ysendIns (d : Dev) (i w lost : Nat) : Dev :=
  let n := vAux w + 1
  let a := d.deskAt i (vSa w)
  let port := vCond w % 4
  match d.firstPoison [(a, 64 * n)] with
  | some p => d.poisonOperand i [] p
  | none => d.ysendGo i lost ((List.range n).map fun k => (port, d.rdLe (a + 64 * k) 64, if k + 1 = n then bitsOf (vCond w) 2 2 else 0))

/-! ## Commands -/

def execMicroNop (i : Nat) (s : State) := s.onDev fun d => d.issue i 0 fun _ e => e

def execEndSeq (i : Nat) (s : State) := s.onDev fun d => if d.canIssue i 1 then d.endIns i else d

def execLoopOpen (i : Nat) (s : State) := s.onDev fun d => d.issue i 2 fun w e => e.loopOpen i w

def execEndloop (i : Nat) (s : State) := s.onDev fun d => if d.canIssue i 3 then d.endLoop i else d

def execVwait (i : Nat) (s : State) := s.onDev fun d => if d.canIssue i 4 then d.waitIns i (d.insAt i) else d

def execWaitSatisfied (i cycles : Nat) (s : State) := s.onUnit 1024 i fun d => d.waitEnds i cycles

def execCkpt (i : Nat) (s : State) := s.onDev fun d => if d.canIssue i 5 then d.checkpoint i (d.insAt i) else d

def execNsig (i : Nat) (err : Option (Nat × Bool)) (s : State) := s.onDev fun d =>
  if d.mayInject i false then d.readErr i 7 err fun d => d.nsig i (d.insAt i) else d

def execYsend (i lost : Nat) (err : Option (Nat × Bool)) (s : State) := s.onDev fun d =>
  if !(d.sp i).yout.isEmpty then (if d.canIssue i 8 then d.ysendGo i lost (d.sp i).yout else d)
  else d.readErr i 8 err fun d => d.ysendIns i (d.insAt i) lost

def execScaleWaitExpire (i : Nat) (s : State) := s.onUnit 1024 i fun d => d.scaleWaitExpire i

end Sys2Proof.Machine
end

