-- ==== Sys2Proof/Machine/Vector.lean ====
section
/-! DEFINITION. The vector engine's instructions over lines: element-wise arithmetic, compare, select, integer operations,
conversions, transcendental functions, lane reductions, LD, ST and ACCRD (Vector engine and the Bobbin, R246 to R262,
R617). -/

namespace Sys2Proof.Machine

/-! ## Lines in, lines out -/

/-- One result lane: its code, and the saturations and NaNs that it counts. -/
structure LaneOut where
  code : Nat
  tally : Tally
  deriving DecidableEq, Repr

/-- A result lane that counts nothing. -/
def LaneOut.quiet (c : Nat) : LaneOut := ⟨c, Tally.none⟩

/-- Sum of the counts of lanes. Log: 70 (DEDUCED). -/
def tallyOf (ls : List LaneOut) : Tally := ls.foldl (fun t x => t.plus x.tally) Tally.none

/-- Write the enabled lanes of a line and count them; a disabled lane keeps its value (R255, R177). -/
def Dev.putLanes (d : Dev) (i lanes n : Nat) (out : List (Option LaneOut)) : Dev :=
  let old := d.lineCodes i lanes n
  let cs := (old.zip out).map fun p => match p.2 with | some x => x.code | none => p.1
  (d.putLine i lanes n cs).tallyAt i (tallyOf (out.filterMap id))

/-- An instruction whose named operands are checked for poison first; `f` gives the lanes of its destination line.
Log: 9 (DESIGN CHOICE). -/
def Dev.lineIns (d : Dev) (i w : Nat) (ops : List Nat) (lanes : Nat) (f : Nat → Option LaneOut) : Dev :=
  let dst := d.lineOf i (vDst w)
  match d.firstPoison (ops.flatMap fun v => d.operandRange i v) with
  | some p => d.poisonOperand i (d.resultOf i w) p
  | none => d.putLanes i lanes dst ((List.range (lineLanes lanes)).map f)

/-! ## Element-wise -/

/-- The floating-point operations of three values (R246, R247). Log: 72 (DEDUCED). -/
def fop (op : Nat) (a b c : FVal) : FVal :=
  let one : FVal := .num false 1 0
  let zero : FVal := .num false 0 0
  match op with
  | 0x10 => a.add b
  | 0x11 => a.add b.neg
  | 0x12 => a.mul b
  | 0x13 => a.fma b c
  | 0x14 => a.min b
  | 0x15 => a.max b
  | 0x16 => a.abs
  | 0x17 => a.neg
  | 0x18 => if a.lt b then one else zero
  | 0x19 => if a.eq b then one else zero
  | 0x1A => if c.isZero then b else a
  | 0x1B => (a.mul b).neg.add c
  | _ => zero

/-- The INT32 operations (R247); the result wraps. -/
def iop (op : Nat) (a b c : Int) : Int :=
  let u := fun (x : Int) => ofSigned 32 x
  match op with
  | 0x10 => a + b
  | 0x11 => a - b
  | 0x12 => a * b
  | 0x13 => a * b + c
  | 0x14 => if b < a then b else a
  | 0x15 => if a < b then b else a
  | 0x16 => (a.natAbs : Int)
  | 0x17 => -a
  | 0x18 => if a < b then 1 else 0
  | 0x19 => if a = b then 1 else 0
  | 0x1A => if c = 0 then b else a
  | 0x1B => -(a * b) + c
  | 0x28 => (Nat.land (u a) (u b) : Nat)
  | 0x29 => (Nat.lor (u a) (u b) : Nat)
  | 0x2A => (Nat.xor (u a) (u b) : Nat)
  | 0x2B => (u a : Int) * 2 ^ (u b % 32)
  | 0x2C => ((u a / 2 ^ (u b % 32) : Nat) : Int)
  | _ => 0

/-- One lane of an element-wise instruction: `a`, `b`, `c` are its operands with the saturations of their reading.
Log: 72 (DEDUCED). -/
def laneOp (op lanes : Nat) (a b c : Nat × Nat) : LaneOut :=
  if lanes = 3 then
    .quiet (ofSigned 32 (iop op (toSigned 32 a.1) (toSigned 32 b.1) (toSigned 32 c.1)))
  else
    let f := laneFmt lanes
    let x := elem f a.1
    let y := elem f b.1
    let z := elem f c.1
    let r := conv f (fop op x.1 y.1 z.1)
    ⟨r.1, ⟨a.2 + b.2 + c.2 + x.2.sat + y.2.sat + z.2.sat + r.2.sat, 0⟩⟩

/-- The operands that an element-wise opcode uses: one, two or three. -/
def operandsOf (op w : Nat) : List Nat :=
  if op = 0x16 ∨ op = 0x17 then [vSa w]
  else if op = 0x13 ∨ op = 0x1A ∨ op = 0x1B then [vSa w, vSb w, vSc w]
  else [vSa w, vSb w]

/-- An element-wise instruction (R246, R247, R255). Log: 71 (DEDUCED). -/
def Dev.elementwise (d : Dev) (i op w : Nat) : Dev :=
  let lanes := vLanes w
  let ops := operandsOf op w
  let src := ops.map fun v => d.source i lanes v
  let at' := fun k l => nth (0, 0) (nth [] src k) l
  d.lineIns i w ops lanes fun l =>
    if d.lane? i w l then some (laneOp op lanes (at' 0 l) (at' 1 l) (at' 2 l)) else none

/-- IDX (Table 08-3): INT32 lane `l` receives `l + S[SA]`. -/
def Dev.idxIns (d : Dev) (i w : Nat) : Dev :=
  let s := d.rdLe (scalarAt i (vSa w)) 4
  d.lineIns i w [0x200 + vSa w % 256] 3 fun l => if d.lane? i w l then some (.quiet ((l + s) % 2 ^ 32)) else none

/-- A transcendental instruction (R262, Table 08-5). -/
def Dev.transcIns (d : Dev) (i op w : Nat) : Dev :=
  let src := d.source i 0 (vSa w)
  d.lineIns i w [vSa w] 0 fun l =>
    if d.lane? i w l then
      let r := transc op (nth (0, 0) src l).1
      some ⟨r.1, r.2⟩
    else none

/-! ## Reductions -/

/-- One level of the fixed tree (R260). -/
def treeLevel {α : Type} (f : α → α → α) : List α → List α
  | a :: b :: t => f a b :: treeLevel f t
  | l => l

/-- The tree of 8 levels. -/
def treeReduce {α : Type} (f : α → α → α) (dflt : α) (l : List α) : α :=
  match (List.range 8).foldl (fun x _ => treeLevel f x) l with
  | a :: _ => a
  | [] => dflt

/-- Combine two entries of a maximum or minimum, an absent one being skipped. -/
def skipAbsent {α : Type} (f : α → α → α) (a b : Option α) : Option α :=
  match a, b with
  | none, y => y
  | x, none => x
  | some x, some y => some (f x y)

/-- A lane reduction (R260): the result's 32 bits and the saturations counted. -/
def Dev.reduceLanes (d : Dev) (i op w : Nat) : Nat × Nat :=
  let src := d.source i (vLanes w) (vSa w)
  let ls := (List.range 256).map fun l => if d.lane? i w l then some (nth (0, 0) src l).1 else none
  if vLanes w = 3 then
    let is := ls.map fun x => x.map (toSigned 32)
    match op with
    | 0x40 => (ofSigned 32 (treeReduce (· + ·) 0 (is.map fun x => x.getD 0)), 0)
    | 0x41 => (ofSigned 32 ((treeReduce (skipAbsent (iop 0x15 · · 0)) none is).getD (-(2 ^ 31 : Int))), 0)
    | _ => (ofSigned 32 ((treeReduce (skipAbsent (iop 0x14 · · 0)) none is).getD (2 ^ 31 - 1)), 0)
  else
    let fs := ls.map fun x => x.map (elemRaw 0)
    let addR := fun (a b : FVal × Nat) =>
      let r := conv 0 (a.1.add b.1)
      (elemRaw 0 r.1, a.2 + b.2 + r.2.sat)
    match op with
    | 0x40 =>
      let r := treeReduce addR (.num false 0 0, 0) (fs.map fun x => (x.getD (.num false 0 0), 0))
      ((conv 0 r.1).1, r.2)
    | 0x41 => ((conv 0 ((treeReduce (skipAbsent FVal.max) none fs).getD (elemRaw 0 0xFF7FFFFF))).1, 0)
    | _ => ((conv 0 ((treeReduce (skipAbsent FVal.min) none fs).getD (elemRaw 0 0x7F7FFFFF))).1, 0)

/-- RSUM, RMAX or RMIN: the result goes to lane 0 of a line, or to a scalar word (R253, R260). -/
def Dev.reduceIns (d : Dev) (i op w : Nat) : Dev :=
  let v := vDst w
  let dst := if v / 256 = 2 then 247 else d.lineOf i v
  match d.firstPoison (d.operandRange i (vSa w)) with
  | some p => d.poisonOperand i (d.resultOf i w) p
  | none =>
    let r := d.reduceLanes i op w
    (d.wrLe (if v / 256 = 2 then scalarAt i v else bobLine i dst) 4 r.1).tallyAt i ⟨r.2, 0⟩

/-! ## Conversions -/

/-- A value converts to a format that is not block-scaled (R617); INT32 to INT32 moves its bits. -/
def convLane (f g c : Nat) (extra : Nat) : LaneOut :=
  if f = 8 ∧ g = 8 then .quiet c
  else
    let x := elem f c
    let r := conv g x.1
    ⟨r.1, ⟨extra + x.2.sat + r.2.sat, r.2.nan⟩⟩

/-- Blocks of 32 lanes converted to a block-scaled format (R172, R617): a block without an enabled lane is not written;
disabled lanes take part as zero. `en` lists the enabled lanes of the run, `vs` their values. -/
def blockLanes (f : Nat) (scale : Option Nat) (en : List Bool) (vs : List FVal) : List (Option Block) :=
  ((chunks 32 (en.length / 32) en).zip (chunks 32 (vs.length / 32) vs)).map fun p =>
    if p.1.any id then
      let xs := (p.1.zip p.2).map fun q => if q.1 then q.2 else .num false 0 0
      some (match scale with
        | some c => convWith f c xs
        | none => convBlockMax f xs)
    else none

/-- The element codes of a run of blocks over what stood there: a block that is not written keeps its codes. -/
def blockCodes (bs : List (Option Block)) (old : List Nat) : List Nat :=
  ((bs.zip (chunks 32 bs.length old)).map fun p => match p.1 with | some b => b.codes | none => p.2).flatten

/-- Their scale bytes. -/
def blockScales (bs : List (Option Block)) (old : List (BitVec 8)) : List (BitVec 8) :=
  (bs.zip old).map fun p => match p.1 with | some b => BitVec.ofNat 8 b.scale | none => p.2

/-- What the written blocks count. -/
def blockTally (bs : List (Option Block)) : Tally := (bs.filterMap id).foldl (fun t b => t.plus b.tally) Tally.none

/-- A conversion to a block-scaled format gets its scale (R172): none for BLOCK_MAX. `go` makes the conversion; where the
group's values have not come the instruction waits (R187), and an unusable group ends the command (R183). -/
def Dev.withScale (d : Dev) (i group : Nat) (running : Bool) (go : Option Nat → Dev → Dev) : Dev :=
  if !running then go none d
  else match d.spindleRoom i with
    | none => d
    | some r =>
      match d.scaleRead r i group with
      | .scale e c => go (some c) e
      | .ends code => (d.counted i).endWith r code
      | .wait => d.beginScaleWait r i group

/-- What a conversion with a RUNNING scale gathers for its group (R185). -/
def Dev.gatherIf (d : Dev) (i group : Nat) (running : Bool) (bs : List (Option Block)) : Dev :=
  if running then d.gather i group (bs.filterMap id) else d

/-- CVT to a block-scaled format (R617): codes, then scale bytes, then zeros to the end of DST. -/
def Dev.cvtBlocks (d : Dev) (i w : Nat) : Dev :=
  let lanes := vLanes w
  let f := vFmt w
  let n := lineLanes lanes
  let dst := d.lineOf i (vDst w)
  let src := d.source i lanes (vSa w)
  let en := (List.range n).map fun l => d.lane? i w l
  let xs := src.map fun p => elem (laneFmt lanes) p.1
  let readSat := ((en.zip (src.zip xs)).map fun p => if p.1 then p.2.1.2 + p.2.2.2.sat else 0).foldl (· + ·) 0
  d.withScale i (vGroup w) (vRunning w) fun sc e =>
    let bs := blockLanes f sc en (xs.map fun x => x.1)
    let bytes := n * fmtWidth f / 8
    let old := e.rdLe (bobLine i dst) bytes
    let codes := blockCodes bs ((List.range n).map fun l => unpack (fmtWidth f) old l)
    let scales := blockScales bs (e.rdBytes (bobLine i dst + bytes) (n / 32))
    let e1 := e.wrBytes (bobLine i dst) (packCodes (fmtWidth f) codes ++ scales ++ List.replicate (1024 - bytes - n / 32) 0)
    ((e1.tallyAt i ((blockTally bs).plus ⟨readSat, 0⟩)).gatherIf i (vGroup w) (vRunning w) bs).issued i

/-- The lane type of a format that is one, as LANES names it. -/
def lanesOfFmt (f : Nat) : Option Nat :=
  match f with
  | 0 => some 0
  | 1 => some 2
  | 2 => some 1
  | 8 => some 3
  | _ => none

/-- CVT between lane types (R617). Where one side is 32 bits wide and the other 16, AUX[0] selects the half of the 16-bit
line and the mask counts the lanes of the 32-bit side. -/
def Dev.cvtLanes (d : Dev) (i w dst : Nat) : Dev :=
  let lanes := vLanes w
  let src := d.source i lanes (vSa w)
  let h := 256 * (vAux w % 2)
  let n := lineLanes lanes
  let m := lineLanes dst
  let from' := fun l => convLane (laneFmt lanes) (laneFmt dst) (nth (0, 0) src l).1 (nth (0, 0) src l).2
  (d.lineIns i w [vSa w] dst fun l =>
    if n = m then (if d.lane? i w l then some (from' l) else none)
    else if m < n then (if d.lane? i w l then some (from' (h + l)) else none)
    else if h ≤ l ∧ l < h + 256 ∧ d.lane? i w (l - h) then some (from' (l - h)) else none).issued i

/-- CVT (R617). A reserved format ends the command (R161). -/
def Dev.cvtIns (d : Dev) (i w : Nat) : Dev :=
  match lanesOfFmt (vFmt w) with
  | some dst => d.cvtLanes i w dst
  | none =>
    if 8 < vFmt w then (d.counted i).endAt i 0x0201
    else match d.firstPoison (d.operandRange i (vSa w)) with
      | some p => d.poisonOperand i (d.resultOf i w) p
      | none => d.cvtBlocks i w

/-! ## LD and ST -/

/-- One line of an LD (R617). -/
def Dev.ldLine (d : Dev) (i w j : Nat) : Dev :=
  let lanes := vLanes w
  let f := vFmt w
  let n := lineLanes lanes
  let v := d.rdLe (d.deskAt i (vSa w) + 1024 * j) (n * fmtWidth f / 8)
  let sc := d.rdLe (d.deskAt i (vSb w) + j * n / 32) (n / 32)
  let out := (List.range n).map fun l =>
    if d.lane? i w l then
      let c := unpack (fmtWidth f) v l
      if blockScaled f then
        let x := elem f c
        let r := conv (laneFmt lanes) (scaled (unpack 8 sc (l / 32)) x.1)
        some ⟨r.1, ⟨x.2.sat + r.2.sat, r.2.nan⟩⟩
      else some (convLane f (laneFmt lanes) c 0)
    else none
  d.putLanes i lanes ((d.lineOf i (vDst w) + j) % 256) out

/-- LD (R617); `lost` cycles are lost to arbitration. -/
def Dev.ldIns (d : Dev) (i w lost : Nat) : Dev :=
  if 8 < vFmt w then (d.counted i).endAt i 0x0201
  else match d.firstPoison (d.deskRanges i w (vSa w)) with
    | some p => d.poisonOperand i (d.resultOf i w) p
    | none => (((List.range (vAux w + 1)).foldl (fun e j => e.ldLine i w j) d).count SPX_VX_DESK_CNT i lost).issued i

/-- One line of an ST (R617), with the scale of its conversion. -/
def Dev.stLine (i w : Nat) (sc : Option Nat) (d : Dev) (j : Nat) : Dev :=
  let lanes := vLanes w
  let f := vFmt w
  let n := lineLanes lanes
  let src := d.lineCodes i lanes ((d.lineOf i (vSa w) + j) % 256)
  let a := d.deskAt i (vDst w) + 1024 * j
  let bytes := n * fmtWidth f / 8
  let old := (List.range n).map fun l => unpack (fmtWidth f) (d.rdLe a bytes) l
  let en := (List.range n).map fun l => d.lane? i w l
  if blockScaled f then
    let xs := src.map fun c => elem (laneFmt lanes) c
    let readSat := ((en.zip xs).map fun p => if p.1 then p.2.2.sat else 0).foldl (· + ·) 0
    let bs := blockLanes f sc en (xs.map fun x => x.1)
    let b := d.deskAt i (vSb w) + j * n / 32
    let d1 := (d.wrDesk i a (packCodes (fmtWidth f) (blockCodes bs old))).wrDesk i b (blockScales bs (d.rdBytes b (n / 32)))
    (d1.tallyAt i ((blockTally bs).plus ⟨readSat, 0⟩)).gatherIf i (vGroup w) (vRunning w) bs
  else
    let out := (en.zip src).map fun p => if p.1 then some (convLane (laneFmt lanes) f p.2 0) else none
    let cs := (old.zip out).map fun p => match p.2 with | some x => x.code | none => p.1
    (d.wrDesk i a (packCodes (fmtWidth f) cs)).tallyAt i (tallyOf (out.filterMap id))

/-- ST (R617). -/
def Dev.stIns (d : Dev) (i w lost : Nat) : Dev :=
  if 8 < vFmt w then (d.counted i).endAt i 0x0201
  else match d.firstPoison ((List.range (vAux w + 1)).map fun j => (bobLine i ((d.lineOf i (vSa w) + j) % 256), 1024)) with
    | some p => d.poisonOperand i (d.resultOf i w) p
    | none =>
      d.withScale i (vGroup w) (blockScaled (vFmt w) && vRunning w) fun sc e =>
        (((List.range (vAux w + 1)).foldl (Dev.stLine i w sc) e).count SPX_VX_DESK_CNT i lost).issued i

/-- ACCRD (R258): two rows of an accumulator set in a line; an FP16 set gives FP32 lanes converted exactly. -/
def Dev.accrdIns (d : Dev) (i w : Nat) : Dev :=
  let a := deskBase i + offAcc (bitsOf (vAux w) 6 1) + 1024 * (vAux w % 64)
  let v := d.rdLe a 1024
  let half := (d.rdByte (deskBase i + offActive + 7)).toNat == 1
  let dst := d.lineOf i (vDst w)
  match d.firstPoison [(a, 1024)] with
  | some p => d.poisonOperand i (d.resultOf i w) p
  | none =>
    (d.putLanes i (vLanes w) dst ((List.range 256).map fun l =>
      if d.lane? i w l then
        let c := unpack 32 v l
        some (.quiet (if half then (conv 0 (elemRaw 1 (c % 2 ^ 16))).1 else c))
      else none)).issued i

/-! ## Commands -/

def execVadd (i : Nat) (err : Option (Nat × Bool)) (s : State) := s.onDev fun d => d.readErr i 0x10 err fun d => d.issue i 0x10 fun w e => e.elementwise i 0x10 w

def execVsub (i : Nat) (err : Option (Nat × Bool)) (s : State) := s.onDev fun d => d.readErr i 0x11 err fun d => d.issue i 0x11 fun w e => e.elementwise i 0x11 w

def execVmul (i : Nat) (err : Option (Nat × Bool)) (s : State) := s.onDev fun d => d.readErr i 0x12 err fun d => d.issue i 0x12 fun w e => e.elementwise i 0x12 w

def execVfma (i : Nat) (err : Option (Nat × Bool)) (s : State) := s.onDev fun d => d.readErr i 0x13 err fun d => d.issue i 0x13 fun w e => e.elementwise i 0x13 w

def execVmin (i : Nat) (err : Option (Nat × Bool)) (s : State) := s.onDev fun d => d.readErr i 0x14 err fun d => d.issue i 0x14 fun w e => e.elementwise i 0x14 w

def execVmax (i : Nat) (err : Option (Nat × Bool)) (s : State) := s.onDev fun d => d.readErr i 0x15 err fun d => d.issue i 0x15 fun w e => e.elementwise i 0x15 w

def execVabs (i : Nat) (err : Option (Nat × Bool)) (s : State) := s.onDev fun d => d.readErr i 0x16 err fun d => d.issue i 0x16 fun w e => e.elementwise i 0x16 w

def execVneg (i : Nat) (err : Option (Nat × Bool)) (s : State) := s.onDev fun d => d.readErr i 0x17 err fun d => d.issue i 0x17 fun w e => e.elementwise i 0x17 w

def execVcmplt (i : Nat) (err : Option (Nat × Bool)) (s : State) := s.onDev fun d => d.readErr i 0x18 err fun d => d.issue i 0x18 fun w e => e.elementwise i 0x18 w

def execVcmpeq (i : Nat) (err : Option (Nat × Bool)) (s : State) := s.onDev fun d => d.readErr i 0x19 err fun d => d.issue i 0x19 fun w e => e.elementwise i 0x19 w

def execVsel (i : Nat) (err : Option (Nat × Bool)) (s : State) := s.onDev fun d => d.readErr i 0x1A err fun d => d.issue i 0x1A fun w e => e.elementwise i 0x1A w

def execVfnma (i : Nat) (err : Option (Nat × Bool)) (s : State) := s.onDev fun d => d.readErr i 0x1B err fun d => d.issue i 0x1B fun w e => e.elementwise i 0x1B w

def execVcvt (i : Nat) (err : Option (Nat × Bool)) (s : State) := s.onDev fun d => d.readErr i 0x20 err fun d => d.cvtIns i (d.insAt i)

def execVand (i : Nat) (err : Option (Nat × Bool)) (s : State) := s.onDev fun d => d.readErr i 0x28 err fun d => d.issue i 0x28 fun w e => e.elementwise i 0x28 w

def execVor (i : Nat) (err : Option (Nat × Bool)) (s : State) := s.onDev fun d => d.readErr i 0x29 err fun d => d.issue i 0x29 fun w e => e.elementwise i 0x29 w

def execVxor (i : Nat) (err : Option (Nat × Bool)) (s : State) := s.onDev fun d => d.readErr i 0x2A err fun d => d.issue i 0x2A fun w e => e.elementwise i 0x2A w

def execVshl (i : Nat) (err : Option (Nat × Bool)) (s : State) := s.onDev fun d => d.readErr i 0x2B err fun d => d.issue i 0x2B fun w e => e.elementwise i 0x2B w

def execVshr (i : Nat) (err : Option (Nat × Bool)) (s : State) := s.onDev fun d => d.readErr i 0x2C err fun d => d.issue i 0x2C fun w e => e.elementwise i 0x2C w

def execIdx (i : Nat) (err : Option (Nat × Bool)) (s : State) := s.onDev fun d => d.readErr i 0x2D err fun d => d.issue i 0x2D fun w e => e.idxIns i w

def execRcp (i : Nat) (err : Option (Nat × Bool)) (s : State) := s.onDev fun d => d.readErr i 0x30 err fun d => d.issue i 0x30 fun w e => e.transcIns i 0x30 w

def execVsqrt (i : Nat) (err : Option (Nat × Bool)) (s : State) := s.onDev fun d => d.readErr i 0x31 err fun d => d.issue i 0x31 fun w e => e.transcIns i 0x31 w

def execRsqrt (i : Nat) (err : Option (Nat × Bool)) (s : State) := s.onDev fun d => d.readErr i 0x32 err fun d => d.issue i 0x32 fun w e => e.transcIns i 0x32 w

def execVexp (i : Nat) (err : Option (Nat × Bool)) (s : State) := s.onDev fun d => d.readErr i 0x33 err fun d => d.issue i 0x33 fun w e => e.transcIns i 0x33 w

def execExp2 (i : Nat) (err : Option (Nat × Bool)) (s : State) := s.onDev fun d => d.readErr i 0x34 err fun d => d.issue i 0x34 fun w e => e.transcIns i 0x34 w

def execVlog (i : Nat) (err : Option (Nat × Bool)) (s : State) := s.onDev fun d => d.readErr i 0x35 err fun d => d.issue i 0x35 fun w e => e.transcIns i 0x35 w

def execLog2 (i : Nat) (err : Option (Nat × Bool)) (s : State) := s.onDev fun d => d.readErr i 0x36 err fun d => d.issue i 0x36 fun w e => e.transcIns i 0x36 w

def execTanh (i : Nat) (err : Option (Nat × Bool)) (s : State) := s.onDev fun d => d.readErr i 0x37 err fun d => d.issue i 0x37 fun w e => e.transcIns i 0x37 w

def execSigm (i : Nat) (err : Option (Nat × Bool)) (s : State) := s.onDev fun d => d.readErr i 0x38 err fun d => d.issue i 0x38 fun w e => e.transcIns i 0x38 w

def execErf (i : Nat) (err : Option (Nat × Bool)) (s : State) := s.onDev fun d => d.readErr i 0x39 err fun d => d.issue i 0x39 fun w e => e.transcIns i 0x39 w

def execVsin (i : Nat) (err : Option (Nat × Bool)) (s : State) := s.onDev fun d => d.readErr i 0x3A err fun d => d.issue i 0x3A fun w e => e.transcIns i 0x3A w

def execVcos (i : Nat) (err : Option (Nat × Bool)) (s : State) := s.onDev fun d => d.readErr i 0x3B err fun d => d.issue i 0x3B fun w e => e.transcIns i 0x3B w

def execRsum (i : Nat) (err : Option (Nat × Bool)) (s : State) := s.onDev fun d => d.readErr i 0x40 err fun d => d.issue i 0x40 fun w e => e.reduceIns i 0x40 w

def execRmax (i : Nat) (err : Option (Nat × Bool)) (s : State) := s.onDev fun d => d.readErr i 0x41 err fun d => d.issue i 0x41 fun w e => e.reduceIns i 0x41 w

def execRmin (i : Nat) (err : Option (Nat × Bool)) (s : State) := s.onDev fun d => d.readErr i 0x42 err fun d => d.issue i 0x42 fun w e => e.reduceIns i 0x42 w

def execVld (i lost : Nat) (err : Option (Nat × Bool)) (s : State) := s.onDev fun d =>
  d.readErr i 0x48 err fun d => d.ldIns i (d.insAt i) lost

def execVst (i lost : Nat) (err : Option (Nat × Bool)) (s : State) := s.onDev fun d =>
  d.readErr i 0x49 err fun d => d.stIns i (d.insAt i) lost

def execAccrd (i : Nat) (err : Option (Nat × Bool)) (s : State) := s.onDev fun d => d.readErr i 0x4A err fun d => d.accrdIns i (d.insAt i)

end Sys2Proof.Machine
end

