-- ==== Sys2Proof/Machine/Matrix.lean ====
section
/-! DEFINITION. The matrix engine: tile instructions and their operands, what a cell computes, the Monitor's sample of it,
the drain, and the gathering of CONV tiles (Matrix engine and accumulation; Convolution, pooling and region operators). -/

namespace Sys2Proof.Machine

/-! ## Tile instructions -/

/-- The Desk window address that a field in 64-byte units names. -/
def Tile.at (t : Tile) (i n : Nat) : Nat := deskBase i + 64 * bitsOf (t.w n) 0 17

/-- A byte of the active frame's header (R85). -/
def Dev.frameByte (d : Dev) (i n : Nat) : Nat := (d.rdByte (deskBase i + offActive + n)).toNat

/-- The set in which the next tile accumulates: the active one, or what it will be once the tile in the array has ended (R209). -/
def SpindleSt.nextSet (x : SpindleSt) (active : Nat) : Nat :=
  match x.arr with
  | some t => if t.drain then 1 - t.set else t.set
  | none => active

/-- The tile instruction at slot `ip + 1`: 2 slots, or 4 in CONV mode (R201, R226). -/
def Dev.tileAt (d : Dev) (i ip : Nat) : Tile :=
  let n := if d.frameByte i 4 = 2 then 16 else 8
  let a := deskBase i + offActive + 0x3000 + 16 * (ip + 1)
  ⟨(List.range n).map fun k => d.rdLe (a + 4 * k) 4, (d.sp i).issued, (d.sp i).nextSet (d.get SPX_MX_STAT.ACTIVE i)⟩

/-- The metadata of a set. -/
def SpindleSt.acc (x : SpindleSt) (s : Nat) : AccSet := if s = 0 then x.acc0 else x.acc1
def SpindleSt.setAcc (x : SpindleSt) (s : Nat) (a : AccSet) : SpindleSt := if s = 0 then { x with acc0 := a } else { x with acc1 := a }

/-- The accumulator of a tile: the frame's, or FP32 for POOL (R236). -/
def Dev.accMode (d : Dev) (i : Nat) (t : Tile) : Nat := if t.method = 2 then 0 else d.frameByte i 7

/-! ## Operands -/

/-- An element as the array reads it: its value, the saturations of its reading, and its scale code (256 at a pad position,
where none is read). -/
structure Operand where
  v : FVal
  sat : Nat
  sc : Nat
  deriving DecidableEq, Repr

/-- An element of a format under a scale code. In the INT32 mode the scale stays aside (R207), but for 0xFF, which makes
the element NaN (R166). -/
def operand (f : Nat) (int : Bool) (c sc : Nat) : Operand :=
  let x := elem f c
  if !blockScaled f then ⟨x.1, x.2.sat, 127⟩
  else if int then ⟨if sc = 0xFF then .nan else x.1, x.2.sat, sc⟩
  else ⟨scaled sc x.1, x.2.sat, sc⟩

/-- A pad position (R228). -/
def Operand.pad : Operand := ⟨.num false 0 0, 0, 256⟩

/-- Row `k` of a panel with its scale row (R203, R204); `s` is the Desk as it stood when the scale row was read. -/
def Dev.panelRow (d s : Dev) (f : Nat) (int : Bool) (a sa k : Nat) : List Operand :=
  let w := fmtWidth f
  let v := d.rdLe (a + 16 * w * k) (16 * w)
  let s := if blockScaled f then s.rdLe (sa + 128 * (k / 32)) 128 else 0
  (List.range 128).map fun j => operand f int (unpack w v j) (unpack 8 s j)

/-- The slab position that output pixel `i` reads for tap `q`, none for a pad position (R228). -/
def Tile.pixel (t : Tile) (i q : Nat) : Option (Nat × Nat) :=
  let tw := 128 / t.th
  let y := toSigned 16 (t.w 10) + ((i / tw) * (bitsOf (t.w 8) 10 3 + 1) : Nat) + ((q / t.fs) * (bitsOf (t.w 8) 16 4 + 1) : Nat)
  let x := toSigned 16 (t.w 10 / 2 ^ 16) + ((i % tw) * (bitsOf (t.w 8) 13 3 + 1) : Nat) + ((q % t.fs) * (bitsOf (t.w 8) 20 4 + 1) : Nat)
  if 0 ≤ y ∧ y < t.validH ∧ 0 ≤ x ∧ x < t.validW then some (y.toNat, x.toNat) else none

/-- Address of the first byte of slab element (c, y, x), and of its scale (R227). -/
def Tile.slabByte (t : Tile) (i f c y x : Nat) : Nat :=
  t.at i 13 + (c * t.slabH + y) * (ceilDiv (t.slabW * fmtWidth f) 512 * 64) + fmtWidth f * x / 8
def Tile.slabScale (t : Tile) (i c y x : Nat) : Nat :=
  t.at i 14 + (c / 32 * t.slabH + y) * (ceilDiv t.slabW 64 * 64) + x

/-- Code and scale code of slab element (c, y, x). -/
def Dev.slabCode (d : Dev) (i f : Nat) (t : Tile) (c y x : Nat) : Nat × Nat :=
  (bitsOf (d.rdLe (t.slabByte i f c y x) 5) (fmtWidth f * x % 8) (fmtWidth f),
   if blockScaled f then (d.rdByte (t.slabScale i c y x)).toNat else 127)

/-- The element that output pixel `p` reads for tap `q` and channel `c`. -/
def Dev.tapAt (d : Dev) (i f : Nat) (int : Bool) (t : Tile) (p q c : Nat) : Operand :=
  match t.pixel p q with
  | none => Operand.pad
  | some yx =>
    let e := d.slabCode i f t c yx.1 yx.2
    operand f int e.1 e.2

/-- Row `k` of the A operand (R203, R229). The scale of a pad position of an expanded panel is not read. -/
def Dev.aRow (d s : Dev) (i : Nat) (t : Tile) (int : Bool) (k : Nat) : List Operand :=
  let f := d.frameByte i 5
  if t.method = 0 then (List.range 128).map fun p => d.tapAt i f int t p (k / t.ct) (k % t.ct)
  else
    let r := d.panelRow s f int (t.at i 0) (t.at i 2) k
    if t.method = 1 then
      (r.zip (List.range 128)).map fun p => if (t.pixel p.2 (k / t.ct)).isNone then Operand.pad else p.1
    else r

/-- Row `k` of the B operand. -/
def Dev.bRow (d s : Dev) (i : Nat) (t : Tile) (int : Bool) (k : Nat) : List Operand :=
  d.panelRow s (d.frameByte i 6) int (t.at i 1) (t.at i 3) k

/-- Both operands of a tile, by reduction step: each row as its step read it, and a scale row as the first step of its block read it
(R256). -/
def Dev.operands (d : Dev) (i : Nat) (t : Tile) : List (List Operand) × List (List Operand) :=
  let int := d.accMode i t == 2
  let at' := fun (row : Dev → Dev → Nat → List Operand) => (List.range t.kt).map fun k => row (d.viewAt i k) (d.viewAt i (32 * (k / 32))) k
  (at' fun e s => e.aRow s i t int, at' fun e s => e.bRow s i t int)

/-- The Desk ranges that the array reads at step `k` of a tile (R256); a POOL tile takes a tap at each step. -/
def Dev.stepRanges (d : Dev) (i : Nat) (t : Tile) (k : Nat) : List (Nat × Nat) :=
  let fa := d.frameByte i 5
  let fb := d.frameByte i 6
  let panel := fun (f a s : Nat) =>
    (t.at i a + 16 * fmtWidth f * k, 16 * fmtWidth f)
      :: (if blockScaled f && k % 32 == 0 then [(t.at i s + 128 * (k / 32), 128)] else [])
  let tap := fun (p q c : Nat) => match t.pixel p q with
    | some yx => (t.slabByte i fa c yx.1 yx.2, ceilDiv (fmtWidth fa) 8)
        :: (if blockScaled fa then [(t.slabScale i c yx.1 yx.2, 1)] else [])
    | none => []
  let a := match t.method with
    | 0 => (List.range 128).flatMap fun p => tap p (k / t.ct) (k % t.ct)
    | 2 => (List.range 128).flatMap fun p => (List.range t.cols).flatMap fun c => tap p k c
    | _ => panel fa 0 2
  (if k = 0 && t.init == 1 then [(t.at i 5, 65536)] else []) ++ a ++ (if t.method = 2 then [] else panel fb 1 3)

/-- Steps at which the array reads the Desk. -/
def Tile.reads (t : Tile) : Nat := if t.method = 2 then t.fr * t.fs else t.kt

/-- The first poisoned range that the array met (R42). -/
def Dev.tilePoison (d : Dev) (i : Nat) (t : Tile) : Option (Nat × Nat) :=
  if d.poisonW.isEmpty && (d.sp i).rewrites.isEmpty then none
  else (List.range t.reads).findSome? fun k => (d.viewAt i k).firstPoison (d.stepRanges i t k)

/-! ## Cells -/

/-- The value of a cell's 32 bits (R208, R176). -/
def cellVal (mode c : Nat) : FVal :=
  match mode with
  | 0 => elemRaw 0 c
  | 1 => elemRaw 1 (c % 2 ^ 16)
  | _ => if c = 0x80000000 then .nan else FVal.ofInt (toSigned 32 c)

/-- The format whose rounding an accumulator's adds take. -/
def accFmt (mode : Nat) : Nat := if mode = 2 then 8 else mode

/-- A cell's 32 bits (R208). -/
def cellCode (mode : Nat) (v : FVal) : Nat := (conv (accFmt mode) v).1

/-- One rounding add (R206, R174): an exact zero addend leaves the cell as it is. -/
def addStep (mode : Nat) (a : FVal × Nat) (p : FVal) : FVal × Nat :=
  if p.isZero then a
  else
    let r := conv (accFmt mode) (a.1.add p)
    (cellVal mode r.1, a.2 + r.2.sat)

/-- Exact sums of the pairs of R206. -/
def pairUp : List FVal → List FVal
  | a :: b :: t => a.add b :: pairUp t
  | l => l

/-- The addends of a reduction. -/
def addends (mode : Nat) (ps : List FVal) : List FVal := if mode = 1 then pairUp ps else ps

/-- Rounding adds of `k` steps (R218). Log: 76 (DEDUCED). -/
def addCount (mode k : Nat) : Nat := if mode = 1 then (k + 1) / 2 else k

/-- The exact products of cell (r, c). -/
def products (as bs : List (List Operand)) (r c : Nat) : List FVal :=
  (as.zip bs).map fun p => (nth Operand.pad p.1 r).v.mul (nth Operand.pad p.2 c).v

/-- Cell (r, c) of a set as it stands. -/
def Dev.cell (d : Dev) (i set mode r c : Nat) : FVal := cellVal mode (d.rdLe (deskBase i + offAcc set + 512 * r + 4 * c) 4)

/-- The initial value of cell (r, c) with what it counts (R205): a preload is read before the first step (R256). -/
def Dev.cellInit (d : Dev) (i mode : Nat) (t : Tile) (r c : Nat) : FVal × Tally :=
  match t.init with
  | 1 =>
    let w := d.rdLe (t.at i 5 + 512 * r + 4 * c) 4
    if mode = 1 then let x := conv 1 (elemRaw 0 w); (elemRaw 1 x.1, x.2) else (cellVal mode w, Tally.none)
  | 2 => (d.cell i t.set mode r c, Tally.none)
  | _ => (.num false 0 0, Tally.none)

/-- A cell after a tile: its value, the saturations of its adds, and what its initial value counted. -/
structure Cell where
  v : FVal
  sat : Nat
  start : Tally
  deriving DecidableEq, Repr

/-- Every cell of a product tile, by rows (R206). Log: 76 (DEDUCED). -/
def Dev.productCells (d : Dev) (i mode : Nat) (t : Tile) (as bs : List (List Operand)) : List (List Cell) :=
  let v := d.viewAt i 0
  (List.range 128).map fun r => (List.range 128).map fun c =>
    let a := v.cellInit i mode t r c
    let x := (addends mode (products as bs r c)).foldl (addStep mode) (a.1, 0)
    ⟨x.1, x.2, a.2⟩

/-! ## Pooling -/

/-- An element converted to FP32 (R170): its value, and the saturations of its reading and conversion. -/
def Operand.toFp32 (x : Operand) : FVal × Nat := let r := conv 0 x.v; (elemRaw 0 r.1, x.sat + r.2.sat)

/-- The valid taps of an output pixel for a channel, in order, as FP32 (R228, R236, R238, R256). -/
def Dev.poolTaps (d : Dev) (i : Nat) (t : Tile) (p c : Nat) : List (FVal × Nat) :=
  (List.range (t.fr * t.fs)).filterMap fun q =>
    if (t.pixel p q).isSome then some ((d.viewAt i q).tapAt i (d.frameByte i 5) false t p q c).toFp32 else none

/-- A cell of a POOL tile (R238). Log: 78 (DEDUCED). -/
def Dev.poolCell (d : Dev) (i : Nat) (t : Tile) (p c : Nat) : Cell :=
  let taps := d.poolTaps i t p c
  let reads := (taps.map fun x => x.2).foldl (· + ·) 0
  if t.poolOp = 0 then
    let best := match taps with
      | [] => .num false 0 0
      | x :: ys => ys.foldl (fun (m : FVal) y => if m == .nan || y.1 == .nan then .nan else if m.lt y.1 then y.1 else m) x.1
    ⟨best, 0, ⟨reads, 0⟩⟩
  else
    let x := taps.foldl (fun (a : FVal × Nat) y => let r := conv 0 (a.1.add y.1); (elemRaw 0 r.1, a.2 + r.2.sat)) (FVal.num false 0 0, 0)
    ⟨x.1, x.2, ⟨reads, 0⟩⟩

/-- Every cell of a POOL tile: columns above N_VALID keep what they hold (R236). -/
def Dev.poolCells (d : Dev) (i : Nat) (t : Tile) : List (List Cell) :=
  (List.range 128).map fun p => (List.range 128).map fun c =>
    if c < t.cols then d.poolCell i t p c else ⟨d.cell i t.set 0 p c, 0, Tally.none⟩

/-- The divisor of an AVG cell (R238). -/
def Tile.poolCount (t : Tile) (p : Nat) : Nat :=
  if t.poolOp = 1 then t.fr * t.fs else ((List.range (t.fr * t.fs)).filter fun q => (t.pixel p q).isSome).length

/-! ## INT32 scales -/

/-- The scale codes of each row of an operand over the groups of a tile, pads left out (R207). -/
def scaleRows (rows : List (List Operand)) : List (List Nat) :=
  (List.range 128).map fun r => (rows.map fun k => (nth Operand.pad k r).sc).filter fun c => c != 256

/-- The codes that a run is held to: those of its first tile. -/
def runCodes (old : List Nat) (keep : Bool) (rows : List (List Operand)) : List Nat :=
  (scaleRows rows).zip (List.range 128) |>.map fun p =>
    let o := nth 256 old p.2
    if keep && o != 256 then o else match p.1 with | c :: _ => c | [] => 256

/-- Some scale row differs from the run's codes (R207). -/
def scalesDiffer (codes : List Nat) (rows : List (List Operand)) : Bool :=
  ((scaleRows rows).zip codes).any fun p => p.1.any fun c => c != p.2

/-- The tile in an INT32 array meets a scale row that differs (R180, R207). -/
def Dev.mismatch (d : Dev) (i : Nat) (t : Tile) : Bool :=
  d.accMode i t == 2 &&
    (let o := d.operands i t
     let a := (d.sp i).acc t.set
     let keep := t.init == 2
     scalesDiffer (runCodes a.scaleA keep o.1) o.1 || scalesDiffer (runCodes a.scaleB keep o.2) o.2)

/-! ## The Monitor -/

/-- The row that a tile samples, with its layer as 128 × layer + row (R188, R219). Log: 162 (DEDUCED). -/
def Dev.sampleRow (d : Dev) (i : Nat) (t : Tile) : Option Nat :=
  match d.spindleRoom i with
  | none => none
  | some r =>
    let k := (d.room r).monRate
    let n := (d.sp i).tileSeq
    if k ≠ 0 ∧ (n + d.logicalOf i) % 2 ^ k = 0 ∧ n % 128 < t.rows then some (128 * t.layer + n % 128) else none

/-- The FP32 reference and the product magnitudes of the cells of an FP16 run after a tile (R189). Log: 79 (DEDUCED). -/
def Dev.reference (d : Dev) (i : Nat) (t : Tile) (as bs : List (List Operand)) (a : AccSet) : List Nat × List (Nat × Int) :=
  let cells := (List.range 16384).map fun n => (n / 128, n % 128)
  let old := fun n => if t.init = 2 then nth 0 a.ref n else (conv 0 (d.cellInit i 1 t (n / 128) (n % 128)).1).1
  let ref := cells.map fun p =>
    (conv 0 ((products as bs p.1 p.2).foldl (addStep 0) (elemRaw 0 (old (128 * p.1 + p.2)), 0)).1).1
  let mag := cells.map fun p =>
    let m0 := if t.init = 2 then nth (0, 0) a.mag (128 * p.1 + p.2) else (0, 0)
    match (products as bs p.1 p.2).foldl (fun (s : FVal) q => s.add q.abs) (.num false m0.1 m0.2) with
    | .num _ m e => (m, e)
    | _ => (0, 0)
  (ref, mag)

/-- One element of an FP16 row beyond the threshold B = γ_n Σ + 2^−24 n Σ (R189): none where it agrees, else its ratio
as an FP32 code. -/
def beyond (n : Nat) (y ref : FVal) (mag : Nat × Int) : Option Nat :=
  let b := fun (x : FVal) => x.mul (.num false (n * 2 ^ 24 + n * (2048 - n)) 0)
  let diff := (y.add ref.neg).abs.mul (.num false ((2048 - n) * 2 ^ 24) 0)
  let bound := b (.num false mag.1 mag.2)
  if y == .nan && ref == .nan then none
  else if y == .nan || ref == .nan then some 0
  else if bound.lt diff then some (conv 0 (diff.div bound)).1
  else none

/-- A sampled row of an FP16 run: the largest ratio of an element that disagrees, saturated ones being skipped (R189). With n·u ≥ 1 the
bound has no value: whether two numbers then disagree is free, and so is the ratio. Log: 79 (DEDUCED). -/
def Dev.boundRow (d : Dev) (i : Nat) (a : AccSet) (set row : Nat) : Option Nat :=
  let rs := (List.range 128).filterMap fun c =>
    let n := 128 * row + c
    let y := d.cell i set 1 row c
    let ref := elemRaw 0 (nth 0 a.ref n)
    if a.sats.contains n then none
    else if a.adds < 2048 then beyond a.adds y ref (nth (0, 0) a.mag n)
    else if y == .nan || ref == .nan then (if y == ref then none else some 0)
    else if bitAt (Config.freeByte d.free c).toNat 0 then some (d.freeWord % 2 ^ 31) else none
  match rs with
  | [] => none
  | q :: t => some (t.foldl max q)

/-- The Monitor compares the rows sampled in a run that drains (R189 to R191, R219). Log: 79 (DEDUCED). -/
def Dev.compareRows (d : Dev) (i : Nat) (t : Tile) (fault : Bool) : Dev :=
  let a := (d.sp i).acc t.set
  match d.spindleRoom i with
  | none => d
  | some r =>
    a.rows.foldl (fun e n =>
      if a.mode = 1 then
        if a.ref.isEmpty then e
        else (e.monitorRow r (n / 128) (e.boundRow i a t.set (n % 128)) false).drew
      else e.monitorRow r (n / 128) none fault) d

/-! ## A tile in the array -/

/-- The array accepts a tile (R256): into the free array, or behind the tile that has entered its last step and so has read all its
operands. -/
def SpindleSt.accept (x : SpindleSt) (t : Tile) : SpindleSt :=
  let y := { x with issued := x.issued + 1, expanded := none }
  if x.arr.isNone then { y with arr := some t, rewrites := [] } else { y with arr2 := some t }

/-- TILE (R256, R209, R210): the array accepts the tile at its first step, once the tile before it has entered its last, the set it
needs has drained, and its panel is expanded. A Spindle of a Room that unloads stops instead.
Log: 75 (DEDUCED); 82 (DEDUCED). Log: 180 (DEDUCED). -/
def Dev.tileIns (d : Dev) (i : Nat) : Dev :=
  let ip := d.get SPX_VX_STAT.IP i
  let t := d.tileAt i ip
  let x := d.sp i
  let unloading := match d.spindleRoom i with
    | some r => (d.room r).unloadReq
    | none => false
  let clash := match x.drn with
    | some q => t.init != 2 && q.set == t.set
    | none => false
  if unloading then (d.stopSpindle i).settleAt i
  else if x.arr2.isSome || clash || (t.expands && x.expanded != some ip) then d
  else ((d.setSp i (x.accept t)).set SPX_MX_STAT.BUSY i 1).goTo i (ip + (if t.words.length = 16 then 5 else 3))

/-- The metadata of a set after a tile (R207, R218, Table 06-6). -/
def Dev.accAfter (d : Dev) (i : Nat) (t : Tile) (o : List (List Operand) × List (List Operand)) (cells : List (List Cell)) : AccSet :=
  let mode := d.accMode i t
  let a := (d.sp i).acc t.set
  let keep := t.init == 2
  let old := if keep then a else AccSet.init
  let satOf := fun (c : Cell) => c.sat + c.start.sat != 0
  let sats := ((cells.flatten.zip (List.range 16384)).filter fun p => satOf p.1).map fun p => p.2
  let rows := old.rows ++ (match d.sampleRow i t with | some n => [n] | none => [])
  let n := min (old.adds + (if t.method = 2 then 0 else addCount mode t.kt)) (2 ^ 18 - 1)
  let rm := if mode = 1 && !(keep && a.ref.isEmpty) then d.reference i t o.1 o.2 a else ([], [])
  { sat := old.sat || !sats.isEmpty
    adds := n
    mode := mode
    scaleA := if mode = 2 then runCodes a.scaleA keep o.1 else []
    scaleB := if mode = 2 then runCodes a.scaleB keep o.2 else []
    ref := rm.1
    mag := rm.2
    sats := if mode = 1 then sats.foldl (fun l n => sins n l) old.sats else []
    rows := rows }

/-- What a tile counts (R177, R211): its valid rows' operands as they are read, adds and initial values. Log: 76 (DEDUCED). -/
def tileTally (t : Tile) (o : List (List Operand) × List (List Operand)) (cells : List (List Cell)) : Tally :=
  let reads := fun (rows : List (List Operand)) (n : Nat) =>
    (rows.map fun r => ((r.take n).map fun x => x.sat).foldl (· + ·) 0).foldl (· + ·) 0
  let own := (cells.take t.rows).flatten.foldl (fun (y : Tally) c => (y.plus c.start).plus ⟨c.sat, 0⟩) Tally.none
  own.plus ⟨if t.method = 2 then 0 else reads o.1 t.rows + reads o.2 128, 0⟩

/-- The swap at the end of a tile that drains (R209). -/
def Dev.swapSets (d : Dev) (i : Nat) (t : Tile) : Dev :=
  let d1 := d.setSp i { d.sp i with drn := some t }
  (d1.set SPX_MX_STAT.DRAINING i 1).set SPX_MX_STAT.ACTIVE i (1 - t.set)

/-- The tile accepted behind the one that leaves is the tile in the array (R256). -/
def SpindleSt.nextTile (x : SpindleSt) : SpindleSt :=
  { x with
    arr := x.arr2
    arr2 := none
    rewrites := (x.rewrites.map fun o => { o with fed := o.fed2, fed2 := 0 }).filter fun o => o.fed != 0 }

/-- A tile finishes in the array (R206, R208, R209, R219); `stall` cycles were lost (R210, R217), and `fault` says that a row the Monitor compares
was not computed as the rules define. Log: 75 (DEDUCED). -/
def Dev.tileDone (d : Dev) (i : Nat) (t : Tile) (stall : Nat) (fault : Bool) : Dev :=
  let mode := d.accMode i t
  let o := if t.method = 2 then ([], []) else d.operands i t
  let cells := if t.method = 2 then d.poolCells i t else d.productCells i mode t o.1 o.2
  let acc := d.accAfter i t o cells
  let bytes := (cells.flatten.map fun c => toLe 4 (cellCode mode c.v)).flatten
  let d1 := (d.wrBytes (deskBase i + offAcc t.set) bytes).count SPX_MX_TILE_CNT i 1
  let d2 := (d1.count SPX_MX_STALL_CNT i stall).set SPX_MX_STAT.BUSY i (bit (d1.sp i).arr2.isSome)
  let d3 := d2.set (if t.set = 0 then SPX_MX_STAT.IN_USE0 else SPX_MX_STAT.IN_USE1) i (bit (!t.drain))
  let x := d3.sp i
  let d4 := d3.setSp i ({ x.nextTile with tileSeq := (x.tileSeq + 1) % 2 ^ 32 }.setAcc t.set acc)
  let d5 := if t.drain then d4.compareRows i t fault else d4
  let d6 := d5.tallyAt i (tileTally t o cells)
  if t.drain && fault && !acc.rows.isEmpty && acc.mode != 1 then d6.spindleFault i 3 0x0B04 (d6.logicalOf i) 0
  else ((if t.drain then d6.swapSets i t else d6).passReleases i).settleAt i

/-- TILE_COMPLETE: `err` is a storage error met in an operand. -/
def Dev.tileComplete (d : Dev) (i stall : Nat) (fault : Bool) (err : Option (Nat × Bool)) : Dev :=
  let d := match err with
    | some (off, dbl) => d.storageError i off dbl
    | none => d
  match (d.sp i).arr with
  | none => d
  | some t =>
    if t.drain && (d.sp i).drn.isSome then d
    else if d.mismatch i t then d.endAt i 0x0204
    else match d.tilePoison i t with
      | some p => d.poisonRead i (p.1 - deskBase i)
      | none => d.tileDone i t stall fault

/-- A scale row of an INT8 tile differs before the tile's end (R207): the command ends, and the tile is not drained. -/
def Dev.scaleMismatch (d : Dev) (i : Nat) : Dev :=
  match (d.sp i).arr with
  | none => d
  | some t => if d.mismatch i t then d.endAt i 0x0204 else d

/-! ## The drain -/

/-- The value of cell (r, c) as the drain converts it (R211, R238). Log: 78 (DEDUCED). -/
def Dev.drainVal (d : Dev) (i : Nat) (t : Tile) (r c : Nat) : FVal :=
  let a := (d.sp i).acc t.set
  let v := d.cell i t.set a.mode r c
  if t.method = 2 then
    if t.poolOp = 0 then v
    else if t.poolCount r = 0 then .num false 0 0 else v.div (.num false (t.poolCount r) 0)
  else if a.mode = 2 then (v.scale (((nth 127 a.scaleA r : Nat) : Int) - 127)).scale (((nth 127 a.scaleB c : Nat) : Int) - 127)
  else v

/-- A drained row: the bytes of its elements, its scale bytes with the blocks that are written, the value of each valid column as the
output holds it, and what its conversion counted. -/
structure DrainRow where
  codes : List Nat
  blocks : List Block
  vals : List FVal
  tally : Tally
  deriving DecidableEq, Repr

/-- Convert row `r` (R211, R212); `scale` is the RUNNING scale. Log: 76 (DEDUCED). -/
def Dev.drainRow (d : Dev) (i : Nat) (t : Tile) (scale : Option Nat) (r : Nat) : DrainRow :=
  let mode := ((d.sp i).acc t.set).mode
  let cell := fun c => d.rdLe (deskBase i + offAcc t.set + 512 * r + 4 * c) 4
  if t.raw then
    let cs := (List.range t.cols).map cell
    ⟨cs, [], cs.map (cellVal mode), Tally.none⟩
  else
    let vs := (List.range t.cols).map (d.drainVal i t r)
    let f := t.outFmt
    if blockScaled f then
      let pad := vs ++ List.replicate (32 * ceilDiv t.cols 32 - t.cols) (FVal.num false 0 0)
      let bs := (chunks 32 (ceilDiv t.cols 32) pad).map fun b => match scale with
        | some c => convWith f c b
        | none => convBlockMax f b
      let vals := bs.flatMap fun b => b.codes.map fun c => scaled b.scale (elemRaw f c)
      ⟨bs.flatMap fun b => b.codes, bs, vals.take t.cols, bs.foldl (fun y b => y.plus b.tally) Tally.none⟩
    else
      let rs := vs.map (conv f)
      ⟨rs.map fun x => x.1, [], rs.map fun x => elemRaw f x.1, rs.foldl (fun y x => y.plus x.2) Tally.none⟩

/-- Bits of an output element, and bytes of an output row (R212). -/
def Tile.outWidth (t : Tile) : Nat := if t.raw then 32 else fmtWidth t.outFmt
def Tile.outRow (t : Tile) : Nat := 16 * t.outWidth

/-- Write elements of `w` bits from an address, keeping the other bits of the last byte. -/
def Dev.putCodes (d : Dev) (a w : Nat) (cs : List Nat) : Dev :=
  let n := ceilDiv (w * cs.length) 8
  let v := cs.foldr (fun c acc => c % 2 ^ w + 2 ^ w * acc) 0
  d.wrLe a n (d.rdLe a n / 2 ^ (w * cs.length) * 2 ^ (w * cs.length) + v)

/-- Write the rows to the Desk (R212). -/
def Dev.drainDesk (d : Dev) (i : Nat) (t : Tile) (rows : List DrainRow) : Dev :=
  let a := t.at i 4
  (rows.zip (List.range rows.length)).foldl (fun e p =>
    let e1 := e.putCodes (a + p.2 * t.outRow) t.outWidth p.1.codes
    if p.1.blocks.isEmpty then e1
    else e1.wrBytes (a + 128 * t.outRow + 4 * p.2) (p.1.blocks.map fun b => BitVec.ofNat 8 b.scale)) (d.journal i a (128 * t.outRow + 512))

/-- Words of 64 bytes of a byte list, padded with zeros, each with a marker for the last. -/
def yarnWords (port last : Nat) (bs : List (BitVec 8)) : List (Nat × Nat × Nat) :=
  let n := ceilDiv bs.length 64
  (List.range n).map fun k => (port, ofLe ((bs.drop (64 * k)).take 64), if k + 1 = n then last else 0)

/-- Give the last word of each port its tile-end marker (R213). -/
def tileEnds : List (Nat × Nat × Nat) → List (Nat × Nat × Nat)
  | [] => []
  | (p, v, m) :: t => (p, v, if t.any fun x => x.1 == p then m else 2) :: tileEnds t

/-- The words of a drain to Yarns in the order they are sent (R213). -/
def Tile.drainWords (t : Tile) (rows : List DrainRow) : List (Nat × Nat × Nat) :=
  let ps := t.ports
  let port := fun k => nth 0 ps (k % ps.length)
  let body := (rows.zip (List.range rows.length)).flatMap fun p =>
    yarnWords (port p.2) 1 (packCodes t.outWidth (p.1.codes ++ List.replicate (128 - p.1.codes.length) 0))
  let scales := rows.flatMap fun r => (List.range 4).map fun b => BitVec.ofNat 8 (nth ⟨[], 0, Tally.none, (0, 0), 0⟩ r.blocks b).scale
  let tail := if t.raw || !blockScaled t.outFmt then [] else yarnWords (port rows.length) 1 scales
  tileEnds (body ++ tail)

/-- One step of the running maximum of a row (R242). -/
def argStep (m : Option FVal × Nat) (v : FVal) (idx : Nat) : Option FVal × Nat :=
  match m.1 with
  | none => (some v, idx)
  | some w => if (v == .nan && w != .nan) || w.lt v then (some v, idx) else m

/-- The argmax of an AM_EN tile (R242), and its indices at an AM_WRITE tile (R243). -/
def Dev.argmax (d : Dev) (i : Nat) (t : Tile) (rows : List DrainRow) : Dev :=
  if t.method = 4 || !bitAt (t.w 15) 17 then d else
  let x := d.sp i
  let start := if bitAt (t.w 15) 18 then [] else x.argmax
  let blk := 128 * bitsOf (t.w 15) 22 10
  let run := (List.range 128).map fun r =>
    let m := nth (none, 0) start r
    if r < rows.length then
      ((nth ⟨[], [], [], Tally.none⟩ rows r).vals.zip (List.range 128)).foldl (fun a p => argStep a p.1 (blk + p.2)) m
    else m
  let d1 := d.setSp i { x with argmax := run }
  if bitAt (t.w 15) 19 then
    d1.wrDesk i (t.at i 15) ((List.range 128).flatMap fun r => toLe 4 (if r < t.rows then (nth (none, 0) run r).2 else 0xFFFFFFFF))
  else d1

/-- The limit on rounding adds of an accumulator (R218). -/
def addLimit (mode : Nat) : Nat := if mode = 0 then 65536 else if mode = 1 then 1024 else 131072

/-- What a drain gathered after its Lesson's end is merged before the Spindle counts as stopped (R185). -/
def Dev.mergeLate (d : Dev) (i : Nat) : Dev :=
  if !(d.sp i).mergeDue then d else
  match d.spindleRoom i with
  | none => d
  | some r =>
    let e := Dev.mergeSpindle r d i
    e.setSp i { e.sp i with mergeDue := (e.sp i).willDrain && e.get SPX_VX_STAT.STOPPED i == 1 }

/-- The drain is over (R210, R220). -/
def Dev.drainEnds (d : Dev) (i : Nat) : Dev :=
  let d1 := (d.setSp i { d.sp i with drn := none, drainq := none }).set SPX_MX_STAT.DRAINING i 0
  ((d1.passReleases i).mergeLate i).settleAt i

/-- Send what is left of a drain to Yarns; the drain ends with the last word (R213, R214). -/
def Dev.drainSend (d : Dev) (i : Nat) (q : List (Nat × Nat × Nat)) : Dev :=
  let r := d.sendWords i q
  let e := r.2.setSp i { r.2.sp i with drainq := some r.1 }
  if r.1.isEmpty then e.drainEnds i else e

/-- Convert the shadow set and write its output (R211 to R213, R218, R242). -/
def Dev.drainOut (d : Dev) (i : Nat) (t : Tile) (scale : Option Nat) : Dev :=
  let a := (d.sp i).acc t.set
  let rows := (List.range t.rows).map (d.drainRow i t scale)
  let d1 := if addLimit a.mode < a.adds then d.count SPX_MX_KLONG_CNT i 1 else d
  let tally := rows.foldl (fun (y : Tally) r => y.plus r.tally) Tally.none
  let d2 := d1.gatherIf i t.group scale.isSome ((rows.flatMap fun r => r.blocks).map some)
  let d3 := (d2.argmax i t rows).tallyAt i tally
  if t.toYarn then d3.drainSend i (t.drainWords rows) else (d3.drainDesk i t rows).drainEnds i

/-- A drain that cannot be converted ends the command, and its set is given up. -/
def Dev.drainFails (d : Dev) (i code : Nat) : Dev := (d.endAt i code).drainEnds i

/-- DRAIN_COMPLETE (R211): a RUNNING scale is read first (R172, R187), and a reserved format ends the command (R161).
Log: 80 (DEDUCED). -/
def Dev.drainComplete (d : Dev) (i : Nat) (err : Option (Nat × Bool)) : Dev :=
  let d := match err with
    | some (off, dbl) => d.storageError i off dbl
    | none => d
  match (d.sp i).drn, (d.sp i).drainq with
  | none, _ => d
  | some _, some q => d.drainSend i q
  | some t, none =>
    match if d.poisonW.isEmpty then none else d.firstPoison [(deskBase i + offAcc t.set, 65536)] with
    | some p => (d.poisonRead i (p.1 - deskBase i)).drainEnds i
    | none =>
      if !t.raw && decide (7 < t.outFmt) then d.drainFails i 0x0201
      else if t.raw || !blockScaled t.outFmt || !t.running then d.drainOut i t none
      else match d.spindleRoom i with
        | none => d.drainEnds i
        | some r =>
          match d.scaleRead r i t.group with
          | .scale e c => e.drainOut i t (some c)
          | .ends code => d.drainFails i code
          | .wait => d.beginScaleWait r i t.group

/-! ## The expander -/

/-- One FP32 operation with one rounding, counting its saturation. -/
def fp32 (f : FVal → FVal → FVal) (a b : FVal) : StateM Nat FVal := fun n =>
  let c := conv 0 (f a b)
  (elemRaw 0 c.1, n + c.2.sat)

/-- The integer part of a nonnegative value. -/
def FVal.floor (v : FVal) : Nat :=
  match v with
  | .num _ m e => if 0 ≤ e then m * 2 ^ e.toNat else m / 2 ^ (-e).toNat
  | _ => 0

/-- Limit a value to [0, hi]. -/
def FVal.clampTo (v : FVal) (hi : Nat) : FVal :=
  if v.lt (.num false 0 0) then .num false 0 0 else if (FVal.num false hi 0).lt v then .num false hi 0 else v

/-- A sample of a box at (u, v) (R240): `p` reads the feature map. -/
def regionSample (p : Nat → Nat → Operand) (vh vw : Nat) (u v : FVal) : StateM Nat FVal := do
  let u := u.clampTo (vh - 1)
  let v := v.clampTo (vw - 1)
  if u == .nan || v == .nan then
    return .nan
  let ya := u.floor
  let xa := v.floor
  let yb := min (ya + 1) (vh - 1)
  let xb := min (xa + 1) (vw - 1)
  let one : FVal := .num false 1 0
  let sub := fun (a b : FVal) => a.add b.neg
  let ly ← fp32 sub u (.num false ya 0)
  let lx ← fp32 sub v (.num false xa 0)
  let hy ← fp32 sub one ly
  let hx ← fp32 sub one lx
  let term := fun (a b : FVal) (y x : Nat) => do
    let w ← fp32 FVal.mul a b
    modify (· + (p y x).sat)
    fp32 FVal.mul w (p y x).v
  let t1 ← term hy hx ya xa
  let t2 ← term hy lx ya xb
  let t3 ← term ly hx yb xa
  let t4 ← term ly lx yb xb
  let s ← fp32 FVal.add t1 t2
  let s ← fp32 FVal.add s t3
  fp32 FVal.add s t4

/-- The coordinate of a sample along one axis: `lo + ((b * sr + k + 0.5) / sr) * bin - 0.5`. -/
def regionCoord (lo bin : FVal) (b sr k : Nat) : StateM Nat FVal := do
  let q ← fp32 FVal.div (.num false (2 * (b * sr + k) + 1) (-1)) (.num false sr 0)
  let m ← fp32 FVal.mul q bin
  let s ← fp32 FVal.add lo m
  fp32 (fun a b => a.add b.neg) s (.num false 1 (-1))

/-- The value of one bin of a box for one channel (R240): the corners Y1, X1, Y2, X2, the bins and samples of the tile. -/
def regionValue (p : Nat → Nat → Operand) (vh vw ph pw sr bh bw : Nat) (y1 x1 y2 x2 : FVal) : StateM Nat FVal := do
  let sub := fun (a b : FVal) => a.add b.neg
  let dy ← fp32 sub y2 y1
  let binH ← fp32 FVal.div dy (.num false ph 0)
  let dx ← fp32 sub x2 x1
  let binW ← fp32 FVal.div dx (.num false pw 0)
  let low : FVal := .num true 1 0
  let acc ← (List.range (sr * sr)).foldlM (fun (acc : FVal) k => do
    let u ← regionCoord y1 binH bh sr (k / sr)
    let v ← regionCoord x1 binW bw sr (k % sr)
    if u.lt low || (FVal.num false vh 0).lt u || v.lt low || (FVal.num false vw 0).lt v then
      pure acc
    else
      let s ← regionSample p vh vw u v
      fp32 FVal.add acc s) (FVal.num false 0 0)
  fp32 FVal.div acc (.num false (sr * sr) 0)

/-- The row of A for box `b` of a REGION tile, by step, with the saturations of its arithmetic (R239, R240). -/
def Dev.regionRow (d : Dev) (i : Nat) (t : Tile) (b : Nat) : List FVal × Nat :=
  let f := d.frameByte i 5
  let ph := bitsOf (t.w 9) 16 4 + 1
  let pw := bitsOf (t.w 9) 20 4 + 1
  let sr := bitsOf (t.w 9) 24 2 + 1
  let box := (List.range 4).map fun k => elemRaw 0 (d.rdLe (t.at i 15 + 16 * b + 4 * k) 4)
  let g := nth .nan box
  if t.rows ≤ b then ((List.range t.kt).map fun _ => .num false 0 0, 0)
  else if box.contains .nan then ((List.range t.kt).map fun _ => .nan, 0)
  else
    (List.range t.kt).foldl (fun (a : List FVal × Nat) k =>
      let bin := k / t.ct
      let read := fun (y x : Nat) =>
        let e := d.slabCode i f t (k % t.ct) y x
        if y < t.validH ∧ x < t.validW then (let p := (operand f false e.1 e.2).toFp32; ⟨p.1, p.2, 127⟩) else Operand.pad
      let r := (regionValue read t.validH t.validW ph pw sr (bin / pw) (bin % pw) (g 0) (g 1) (g 2) (g 3)).run a.2
      (a.1 ++ [r.1], r.2)) ([], 0)

/-- Element codes of a panel by row of the operand, with the scale codes of each row's blocks, and what their making counted. -/
structure Panel where
  codes : List (List Nat)
  scales : List (List Nat)
  tally : Tally
  deriving DecidableEq, Repr

/-- The A panel of a REGION tile (R240). -/
def Dev.regionPanel (d : Dev) (i : Nat) (t : Tile) : Panel :=
  let f := d.frameByte i 5
  let rows := (List.range 128).map (d.regionRow i t)
  let conved := rows.map fun r =>
    if blockScaled f then
      let bs := (chunks 32 (t.kt / 32) r.1).map (convBlockMax f)
      (bs.flatMap fun b => b.codes, bs.map fun b => b.scale, bs.foldl (fun (y : Tally) b => y.plus b.tally) ⟨r.2, 0⟩)
    else
      let rs := r.1.map (conv f)
      (rs.map fun x => x.1, [], rs.foldl (fun (y : Tally) x => y.plus x.2) ⟨r.2, 0⟩)
  ⟨conved.map fun c => c.1, conved.map fun c => c.2.1, conved.foldl (fun y c => y.plus c.2.2) Tally.none⟩

/-- The A panel of an EXPAND tile (R231): pad positions are +0. The manual gives no scale for a block of pads: a free byte, not 0xFF.
Log: 77 (DESIGN CHOICE). -/
def Dev.expandPanel (d : Dev) (i : Nat) (t : Tile) : Panel :=
  let f := d.frameByte i 5
  let at' := fun (p k : Nat) => (t.pixel p (k / t.ct)).map fun yx => d.slabCode i f t (k % t.ct) yx.1 yx.2
  let free := fun (n : Nat) => min 254 (Config.freeByte d.free n).toNat
  ⟨(List.range 128).map fun p => (List.range t.kt).map fun k => ((at' p k).getD (0, 0)).1,
   (List.range 128).map fun p => (List.range (t.kt / 32)).map fun g => ((at' p (32 * g)).getD (0, free (128 * g + p))).2,
   Tally.none⟩

/-- Write a panel in panel form, and its scale panel (R203, R204). -/
def Dev.putPanel (d : Dev) (i : Nat) (t : Tile) (p : Panel) : Dev :=
  let f := d.frameByte i 5
  let d1 := d.wrDesk i (t.at i 0) ((List.range t.kt).flatMap fun k => packCodes (fmtWidth f) (p.codes.map fun r => nth 0 r k))
  if blockScaled f then
    d1.wrDesk i (t.at i 2) ((List.range (t.kt / 32)).flatMap fun g => p.scales.map fun r => BitVec.ofNat 8 (nth 0 r g))
  else d1

/-- The ranges that an expansion reads: the slab, and the box list. -/
def Dev.expandRanges (d : Dev) (i : Nat) (t : Tile) : List (Nat × Nat) :=
  let f := d.frameByte i 5
  if t.method = 3 then [(t.at i 15, 16 * t.rows), (t.at i 13, t.ct * t.slabH * (ceilDiv (t.slabW * fmtWidth f) 512 * 64))]
  else (List.range 128).flatMap fun p => (List.range t.kt).flatMap fun k => match t.pixel p (k / t.ct) with
    | some yx => [(t.slabByte i f (k % t.ct) yx.1 yx.2, ceilDiv (fmtWidth f) 8)]
    | none => []

/-- The expander finishes the panel of the TILE at which the Spindle stands (R231, R240); for REGION once every drain of an
earlier tile has ended (R241). -/
def Dev.expandDone (d : Dev) (i : Nat) (err : Option (Nat × Bool)) : Dev :=
  let d := match err with
    | some (off, dbl) => d.storageError i off dbl
    | none => d
  let ip := d.get SPX_VX_STAT.IP i
  let t := d.tileAt i ip
  let x := d.sp i
  let drains := x.drn.isSome || x.willDrain
  if !d.canIssue i 6 || !t.expands || x.expanded == some ip || (t.method == 3 && drains) then d
  else match if d.poisonW.isEmpty then none else d.firstPoison (d.expandRanges i t) with
    | some p => d.poisonRead i (p.1 - deskBase i)
    | none =>
      let p := if t.method = 3 then d.regionPanel i t else d.expandPanel i t
      let d1 := ((d.putPanel i t p).tallyAt i p.tally).drew
      d1.setSp i { d1.sp i with expanded := some ip }

/-! ## Commands -/

def execTile (i : Nat) (s : State) := s.onDev fun d => if d.canIssue i 6 then d.tileIns i else d

def execTileComplete (i stall : Nat) (fault : Bool) (err : Option (Nat × Bool)) (s : State) := s.onDev fun d =>
  if i < 1024 then d.tileComplete i stall fault err else d

def execDrainComplete (i : Nat) (err : Option (Nat × Bool)) (s : State) := s.onDev fun d =>
  if i < 1024 then d.drainComplete i err else d

def execIntScaleMismatch (i : Nat) (s : State) := s.onDev fun d => if i < 1024 then d.scaleMismatch i else d

def execExpandComplete (i : Nat) (err : Option (Nat × Bool)) (s : State) := s.onDev fun d =>
  if i < 1024 then d.expandDone i err else d

end Sys2Proof.Machine
end

