-- ==== Sys2Proof/Machine/Remote.lean ====
section
/-! DEFINITION. Remote accesses at the far device: the check of the job tag, windows, poison, and the answers (Kaluf Link
and multi-device agreement, R399). -/

namespace Sys2Proof.Machine

/-- Message types of Table 13-3 that the device itself forms. -/
def mtReadResp : Nat := 0xA
def mtCompletion : Nat := 0xB
def mtRemoteAcc : Nat := 0xC
def mtParam : Nat := 0xD

/-- The LOADED or HELD Room that holds a nonzero job tag (R399, R407). -/
def Dev.jobRoom (d : Dev) (job : Nat) : Option Nat :=
  if job = 0 then none else
  (List.range 16).find? fun r => (d.roomState r == stLoaded || d.roomState r == stHeld) && d.get KL_ROOM_JOB.JOB r == job

/-- Answer a remote message with a COMPLETION that carries a code and a STATE byte (R399, R423). -/
def Dev.reply (d : Dev) (dst cls id code state : Nat) : Dev := (d.sendMsg dst mtCompletion cls [id, code, state] [] false none).1

/-- Answer a remote read (R399). -/
def Dev.answerRead (d : Dev) (dst cls id code : Nat) (data : List (BitVec 8)) : Dev :=
  (d.sendMsg dst mtReadResp cls [id, code] data false none).1

/-- The code of a REMOTE_WRITE part of which a DEAD channel discards: 0x0000 or a code of Table 13-9, which the manual does not
choose between. -/
def Dev.deadCode (d : Dev) : Nat := nth 0 [0x0000, 0x0601, 0x0602, 0x0603, 0x0604, 0x0605, 0x0610] (d.freeWord % 7)

/-- A REMOTE_WRITE is checked and performed (R399), the sectors of a DEAD channel left out; a refusal performs nothing.
Log: 99 (DESIGN CHOICE); 100 (DEDUCED). -/
def Dev.remoteWrite (d : Dev) (src cls job id addr : Nat) (data : List (BitVec 8)) (poisoned : Bool) : Dev :=
  match d.jobRoom job with
  | none => d.reply src cls id 0x0602 0
  | some r =>
    if !d.inWindows r addr data.length then (d.winEv (some r)).reply src cls id 0x0603 0
    else if d.requestWaits (some r) addr data.length then d.heldAt (some r) addr
    else
      let d1 := d.payOne (some r) true addr data.length
      if !d1.deadRange addr data.length then (d1.store addr data poisoned).reply src cls id 0 0
      else if d1.deadCode = 0 then ((d1.store addr data poisoned).reply src cls id 0 0).drew
      else (d1.reply src cls id d1.deadCode 0).drew

/-- A REMOTE_READ is checked and answered with READ_RESP (R399). Log: 100 (DEDUCED). -/
def Dev.remoteRead (d : Dev) (src cls job id addr len : Nat) : Dev :=
  match d.jobRoom job with
  | none => d.answerRead src cls id 0x0602 []
  | some r =>
    if !d.inWindows r addr len then (d.winEv (some r)).answerRead src cls id 0x0603 []
    else if d.requestWaits (some r) addr len then d.heldAt (some r) addr
    else
      let d1 := d.payOne (some r) false addr len
      if d1.poisoned addr len then d1.answerRead src cls id 0x0604 []
      else d1.answerRead src cls id 0 (d1.rdBytes addr len)

def execRemoteWrite (src cls job id addr : Nat) (data : List (BitVec 8)) (poisoned : Bool) (s : State) := s.onDev fun d =>
  d.remoteWrite src cls job id addr data poisoned

def execRemoteRead (src cls job id addr len : Nat) (s : State) := s.onDev fun d => d.remoteRead src cls job id addr len

end Sys2Proof.Machine
end

