-- ==== Sys2Proof/Machine/RollCall.lean ====
section
/-! DEFINITION. Roll call: fingerprints, records and their merge, deadlines and verdicts (Kaluf Link and multi-device
agreement, R407 to R412). -/

namespace Sys2Proof.Machine

/-! ## Records -/

/-- The fingerprint of a Room at a boundary (Table 13-6): its bytes 0 to 39. -/
def Dev.fingerprint (d : Dev) (r step epochBase : Nat) : List (BitVec 8) :=
  let digest := (List.range 4).flatMap fun k => toLe 4 (d.rd CFG_DIGEST (12 * r + k))
  let sel := if (d.room r).lessons.any fun l => l.hostSel then d.get CFG_VAR_SEL.NEXT r else 0xFF
  digest ++ toLe 4 (d.rd SYS_FW_VER 0) ++ toLe 1 (d.get NUM_GEN.GEN 0) ++ toLe 1 sel ++ toLe 2 (d.get KL_ROOM_JOB.JOB r)
    ++ toLe 4 (d.rd TT_ROUND 0) ++ toLe 4 ((d.rd TT_EPOCH 0 + 2 ^ 32 - epochBase) % 2 ^ 32) ++ toLe 8 step

/-- The entry that a full record drops (R410): the smallest count, of equal counts the higher lowest device. -/
def dropEntry (es : List RcEntry) : List RcEntry :=
  match es.find? fun e => es.all fun f => decide (e.n < f.n) || (e.n == f.n && decide (f.low ≤ e.low)) with
  | some e => es.filter fun f => f != e
  | none => es

/-- Merge one entry into a record (R410). -/
def RcRecord.add (m : RcRecord) (e : RcEntry) : RcRecord :=
  if m.entries.any fun f => f.fp == e.fp then
    { m with entries := m.entries.map fun f => if f.fp == e.fp then { f with n := f.n + e.n, low := min f.low e.low } else f }
  else if m.entries.length < 2 then { m with entries := m.entries ++ [e] }
  else { m with beyond := true, entries := dropEntry (m.entries ++ [e]) }

/-- Merge a child's record (R410). -/
def RcRecord.merge (m c : RcRecord) : RcRecord :=
  let m1 := c.entries.foldl RcRecord.add m
  { m1 with beyond := m1.beyond || c.beyond, absent := m1.absent + c.absent, absentLow := min m1.absentLow c.absentLow }

/-- The bytes in which a record's devices and fingerprints travel. -/
def RcRecord.bytes (m : RcRecord) : List (BitVec 8) :=
  (m.entries.flatMap fun e => e.fp ++ List.replicate 8 0 ++ toLe 2 e.n ++ toLe 2 e.low)

/-! ## Verdicts -/

/-- The fields of a fingerprint by DIFF bit (Table 13-6): offset and size. -/
def fpFields : List (Nat × Nat) := [(0, 16), (16, 4), (20, 1), (21, 1), (22, 2), (24, 4), (28, 4), (32, 8)]

/-- The DIFF bits of two fingerprints (R411). -/
def fpDiff (a b : List (BitVec 8)) : Nat :=
  (fpFields.zip (List.range 8)).foldl (fun n p =>
    if (a.drop p.1.1).take p.1.2 == (b.drop p.1.1).take p.1.2 then n else n + 2 ^ p.2) 0

/-- The root's verdict on a record (R411). -/
def RcRecord.verdict (m : RcRecord) : Verdict :=
  let ref := m.entries.find? fun e => m.entries.all fun f => decide (f.n < e.n) || (f.n == e.n && decide (e.low ≤ f.low))
  let other := m.entries.find? fun e => some e != ref
  let agree := m.entries.length == 1 && !m.beyond && m.absent == 0
  let diff := (match ref, other with | some e, some f => fpDiff e.fp f.fp | _, _ => 0) + (if m.absent = 0 then 0 else 256)
  ⟨if agree then 1 else 2, diff, m.beyond,
    match other with
    | some f => some f.low
    | none => if m.absent = 0 then none else some m.absentLow,
    (ref.map fun e => e.low).getD 0, (ref.map fun e => e.n).getD 0, (other.map fun e => e.n).getD 0⟩

/-- The child ports of a Room in the Roll-call tree (R409). -/
def Dev.rcChildren (d : Dev) (r : Nat) : List Nat := (List.range 12).filter fun p => bitAt (d.get KL_RC_CTL.CHILDREN r) p

/-- The verdict of a step, 0 while there is none. -/
def RcSt.verdictOf (x : RcSt) (step : Nat) : Nat := tget (fun _ => 0) x.verdicts step

/-- Record a verdict of a step in the Room's registers (R411, R412). Log: 102 (DEDUCED). -/
def Dev.putVerdict (d : Dev) (r step : Nat) (v : Verdict) (none : Bool) : Dev :=
  let x := d.rc r
  let d1 := d.setRc r { x with verdicts := tset (fun _ => 0) x.verdicts step v.verdict }
  let d2 := ((d1.set KL_RC_STAT.VERDICT r v.verdict).set KL_RC_STAT.DIFF r v.diff).set KL_RC_STAT.OVER r (bit v.beyond)
  let d3 := ((d2.set KL_RC_STAT.NO_VERDICT r (bit none)).set KL_RC_DISSENT.DEV r (v.dissent.getD 0)).set
    KL_RC_DISSENT.VALID r (bit v.dissent.isSome)
  let d4 := ((d3.set KL_RC_DISSENT.REF_LOW r v.refLow).set KL_RC_COUNT.REF_N r v.refN).set KL_RC_COUNT.DIS_N r v.disN
  let d5 := d4.set64 KL_RC_STEP_LO KL_RC_STEP_HI r step
  let d6 := if v.verdict = 2 then (d5.set KL_RC_STAT.FENCED r 1).count KL_RC_FENCE_CNT r 1 else d5.set KL_RC_STAT.FENCED r 0
  d6.raise KL_RC_STAT.RC_EV r

/-- The fields of a verdict as a ROLL_VERDICT flit carries them. -/
def Verdict.fields (v : Verdict) : List Nat :=
  [v.verdict, v.diff, bit v.beyond, bit v.dissent.isSome, v.dissent.getD 0, v.refLow, v.refN, v.disN]

/-- A verdict is recorded and goes on to the children (R411). A step keeps the first verdict that is recorded for it. -/
def Dev.verdictTo (d : Dev) (r step : Nat) (v : Verdict) : Dev :=
  if (d.rc r).verdictOf step ≠ 0 then d else
  (d.rcChildren r).foldl (fun e p => e.sendCtl p 5 ([d.get KL_ROOM_JOB.JOB r, step] ++ v.fields) []) (d.putVerdict r step v false)

/-! ## Collection -/

/-- The deadline of a Room's record (R409). -/
def Dev.rcDeadline (d : Dev) (r : Nat) : Nat :=
  d.get64 TT_ROUND_START_LO TT_ROUND_START_HI 0 + d.bell.win + 1000 * d.get KL_RC_CTL.HEIGHT r * d.get KL_RC_TMO.TMO_US 0

/-- The record goes up, or the root forms the verdict (R409, R411). -/
def Dev.rcSend (d : Dev) (r : Nat) : Dev :=
  let x := d.rc r
  let d1 := d.setRc r { x with sent := true }
  if d.get KL_RC_CTL.ROOT r = 1 then d1.verdictTo r x.step x.record.verdict
  else d1.sendCtl (d.get KL_RC_CTL.PARENT r) 4
    [d.get KL_ROOM_JOB.JOB r, x.step, x.record.entries.length, bit x.record.beyond, x.record.absent, x.record.absentLow] x.record.bytes

/-- Send when every child has reported (R409). -/
def Dev.rcTry (d : Dev) (r : Nat) : Dev :=
  let x := d.rc r
  if !x.sent && (d.rcChildren r).all fun p => x.reported.contains p then d.rcSend r else d

/-- A child's record joins the step in collection. Log: 102 (DEDUCED). -/
def RcSt.take (x : RcSt) (p : Nat) (c : RcRecord) : RcSt :=
  if x.sent || x.reported.contains p then x else { x with record := x.record.merge c, reported := x.reported ++ [p] }

/-- A Room's Roll call begins a step at a Round boundary (R407 to R409, R411): the bases at the first boundary at or after
T_s, a FENCE without verdict for the step before where none has come, this device's own entry, and the children's records
that have come early. Log: 103 (DEDUCED). -/
def Dev.rcBoundary (d : Dev) (r : Nat) : Dev :=
  if d.get KL_RC_CTL.EN r = 0 || !(d.roomState r == stLoaded || d.roomState r == stHeld) then d else
  let t := d.get64 TT_ROUND_START_LO TT_ROUND_START_HI 0
  let cnt := d.get64 TT_ROUND_CNT_LO TT_ROUND_CNT_HI 0
  let bases := match (d.rc r).bases with
    | some b => some b
    | none => if d.get64 KL_RC_START_LO KL_RC_START_HI r ≤ t then some (cnt, d.rd TT_EPOCH 0) else none
  match bases with
  | none => d
  | some b =>
    let n := (cnt + 2 ^ 64 - b.1) % 2 ^ 64
    let d1 := if 0 < n && (d.rc r).verdictOf (n - 1) = 0 then d.putVerdict r (n - 1) ⟨2, 0, false, none, 0, 0, 0⟩ true else d
    let x := d1.rc r
    let me : RcEntry := ⟨d.fingerprint r n b.2, 1, d.devId⟩
    let y : RcSt := { x with
      bases := some b
      step := n
      record := RcRecord.empty.add me
      reported := []
      sent := false
      early := []
      rounds := tset (fun _ => 0) x.rounds n t }
    (d1.setRc r (x.early.foldl (fun z q => z.take q.1 q.2) y)).rcTry r

/-- A child's record for a step arrives (R409, R410): merged, kept for the next step, or discarded when it is late. -/
def Dev.rollCall (d : Dev) (p job step : Nat) (c : RcRecord) : Dev :=
  match d.jobRoom job with
  | none => d
  | some r =>
    let x := d.rc r
    let next := if x.bases.isSome then x.step + 1 else 0
    if d.get KL_RC_CTL.EN r = 0 || !(d.rcChildren r).contains p then d
    else if step = next then
      if x.early.any fun q => q.1 == p then d else d.setRc r { x with early := x.early ++ [(p, c)] }
    else if x.bases.isNone || step ≠ x.step || d.rcDeadline r < d.now then d
    else (d.setRc r (x.take p c)).rcTry r

/-- The deadline passes (R409): a missing child counts as absent, under its NBR_DEV. -/
def Dev.rcExpire (d : Dev) (r : Nat) : Dev :=
  let x := d.rc r
  if x.sent || x.bases.isNone || d.now < d.rcDeadline r then d else
  let gone := (d.rcChildren r).filter fun p => !x.reported.contains p
  let rec1 := gone.foldl (fun (m : RcRecord) p =>
    { m with absent := m.absent + 1, absentLow := min m.absentLow (d.get KL_PORT_STAT.NBR_DEV p) }) x.record
  (d.setRc r { x with record := rec1 }).rcSend r

/-- A verdict arrives from the parent (R411). Log: 102 (DEDUCED). -/
def Dev.rollVerdict (d : Dev) (p job step : Nat) (v : Verdict) : Dev :=
  match d.jobRoom job with
  | none => d
  | some r =>
    if d.get KL_RC_CTL.EN r = 1 && d.get KL_RC_CTL.ROOT r = 0 && d.get KL_RC_CTL.PARENT r = p then d.verdictTo r step v else d

/-- KL_RC_CTL.EN is written (R407). -/
def Dev.rcEnable (d : Dev) (r : Nat) (en : Bool) : Dev :=
  let old := d.get KL_RC_CTL.EN r
  let d1 := d.set KL_RC_CTL.EN r (bit en)
  if en then (if old = 1 then d1 else d1.setRc r RcSt.init) else (d1.setRc r RcSt.init).set KL_RC_STAT.FENCED r 0

end Sys2Proof.Machine
end

