-- ==== Sys2Proof/Machine/Reduce.lean ====
section
/-! DEFINITION. Gradient reduction at the owner: the reduction table, banks, the arrival checks, exact sums, poison and the
checked adders (Gradient reduction and the parameter update, R416 to R432). -/

namespace Sys2Proof.Machine

/-! ## The reduction table -/

/-- Reduction's state of a Room. -/
def Dev.red? (d : Dev) (r : Nat) : RedSt := tget (fun _ => RedSt.init) d.red r
def Dev.setRed (d : Dev) (r : Nat) (x : RedSt) : Dev := { d with red := tset (fun _ => RedSt.init) d.red r x }

/-- The table's base and header fields (Table 14-7). -/
def Dev.redBase (d : Dev) (r : Nat) : Nat := d.get64 RED_TABLE_BASE_LO RED_TABLE_BASE_HI r
def Dev.nBuckets (d : Dev) (r : Nat) : Nat := d.rdLe (d.redBase r) 4
def Dev.nSlots (d : Dev) (r : Nat) : Nat := d.rdLe (d.redBase r + 4) 2
def Dev.tDead (d : Dev) (r : Nat) : Nat := d.rdLe (d.redBase r + 8) 4
/-- A slot entry. -/
def Dev.slotEntry (d : Dev) (r k : Nat) : Nat := d.rdLe (d.redBase r + 0x40 + 4 * k) 4
/-- Offset of the bucket entries. -/
def bucketOff (nSlots : Nat) : Nat := 64 * ceilDiv (0x40 + 4 * nSlots) 64

/-- A bucket entry (Table 14-8). -/
structure Bucket where
  acc : Nat
  map : Nat
  param : Nat
  first : Nat
  blocks : Nat
  group : Nat
  width : Nat
  recvFirst : Nat
  nRecv : Nat
  deriving DecidableEq, Repr

/-- Bucket `b` of a Room's table. -/
def Dev.bucket (d : Dev) (r b : Nat) : Bucket :=
  let a := d.redBase r + bucketOff (d.nSlots r) + 64 * b
  ⟨d.rdLe a 8, d.rdLe (a + 8) 8, d.rdLe (a + 0x10) 8, d.rdLe (a + 0x18) 4, d.rdLe (a + 0x1C) 4, d.rdLe (a + 0x20) 2,
    d.rdLe (a + 0x22) 1, d.rdLe (a + 0x24) 4, d.rdLe (a + 0x28) 2⟩

/-- Chunks of a bucket, and blocks of a chunk (R424). -/
def Bucket.chunks (b : Bucket) : Nat := ceilDiv b.blocks 64
def Bucket.inChunk (b : Bucket) (c : Nat) : Nat := min 64 (b.blocks - 64 * c)

/-- Bitmap bytes of a chunk (R425). -/
def mapBytes (nSlots : Nat) : Nat := 8 * ceilDiv nSlots 32

/-- Address of the accumulators of a block in a bank (R425). -/
def Bucket.accAt (b : Bucket) (bank block : Nat) : Nat := b.acc + 256 * b.blocks * bank + 256 * block

/-- Address of a chunk's bitmap in a bank (R425). -/
def Bucket.mapAt (b : Bucket) (nSlots bank c : Nat) : Nat := b.map + mapBytes nSlots * (b.chunks * bank + c)

/-- COUNTED and POISON_SEEN of a slot in a chunk (R425). -/
def Dev.slotBits (d : Dev) (r : Nat) (b : Bucket) (bank c k : Nat) : Nat :=
  bitsOf (d.rdLe (b.mapAt (d.nSlots r) bank c + k / 4) 1) (2 * (k % 4)) 2

/-- Set bits of a slot in a chunk. -/
def Dev.setSlotBits (d : Dev) (r : Nat) (b : Bucket) (bank c k v : Nat) : Dev :=
  let a := b.mapAt (d.nSlots r) bank c + k / 4
  d.wrLe a 1 (d.rdLe a 1 ||| (v * 2 ^ (2 * (k % 4))))

/-- The two banks of accumulators and bitmaps of a bucket lie in the Room's fast-tier window (R425). -/
def Dev.bucketInside (d : Dev) (r : Nat) (b : Bucket) : Bool :=
  inside (d.ftWin r) b.acc (512 * b.blocks) && inside (d.ftWin r) b.map (2 * mapBytes (d.nSlots r) * b.chunks)

/-- The table up to bucket `b` lies in the Room's fast-tier window (R424). -/
def Dev.tableInside (d : Dev) (r b : Nat) : Bool :=
  inside (d.ftWin r) (d.redBase r) (bucketOff (d.nSlots r) + 64 * b)

/-! ## Banks -/

/-- Show which banks are open. -/
def Dev.showOpen (d : Dev) (r : Nat) : Dev :=
  let x := d.red? r
  d.set RED_STAT.OPEN r (bit (tget (fun _ => none) x.opened 0).isSome + 2 * bit (tget (fun _ => none) x.opened 1).isSome)

/-- Open a bank for a step, or close it for a step (R425). -/
def Dev.openBank (d : Dev) (r step : Nat) : Dev :=
  let x := d.red? r
  (d.setRed r { x with
    opened := tset (fun _ => none) x.opened (step % 2) (some step)
    closed := tset (fun _ => none) x.closed (step % 2) none }).showOpen r
def Dev.closeBank (d : Dev) (r step : Nat) : Dev :=
  let x := d.red? r
  (d.setRed r { x with
    opened := tset (fun _ => none) x.opened (step % 2) none
    closed := tset (fun _ => none) x.closed (step % 2) (some step) }).showOpen r

/-- The bank of a step is open for it, or closed for it. -/
def Dev.bankOpen (d : Dev) (r step : Nat) : Bool := tget (fun _ => none) (d.red? r).opened (step % 2) == some step
def Dev.bankClosed (d : Dev) (r step : Nat) : Bool := tget (fun _ => none) (d.red? r).closed (step % 2) == some step

/-- RED_CTL.EN is written (R425): setting it opens the banks of the present step and of the next. Log: 103 (DEDUCED). -/
def Dev.redEnable (d : Dev) (r : Nat) (en : Bool) : Dev :=
  let old := d.get RED_CTL.EN r
  let d1 := d.set RED_CTL.EN r (bit en)
  if en && old == 0 then
    ((d1.setRed r { d1.red? r with outcomes := [] }).openBank r (d.rcStep r)).openBank r (d.rcStep r + 1)
  else d1

/-! ## Update groups -/

/-- Address of an update group entry (R436). -/
def Dev.updGroup (d : Dev) (r g : Nat) : Nat := d.get64 UPD_GROUP_BASE_LO UPD_GROUP_BASE_HI r + 128 * g

/-- The scale group of an update group (Table 14-11). -/
def Dev.sgroup (d : Dev) (r g : Nat) : Nat := d.rdLe (d.updGroup r g + 2) 2

/-- The local Round number of a step (R426): STEP_BASE + STEP. -/
def Dev.stepRound (d : Dev) (r step : Nat) : Nat := (((d.rc r).bases.map fun b => b.1).getD 0 + step) % 2 ^ 32

/-- The code of a scale group for a step (R426): the state after the read that advances it, none while the system-wide
values have not come. A group outside the table has no code. -/
def Dev.stepScale (d : Dev) (r g step : Nat) : Option (Dev × Nat) :=
  let n := d.stepRound r step
  let a := d.groupAddr r g
  if !d.groupOk r g then some (d, 256)
  else if d.rdLe (a + 8) 4 = n then some (d, d.rdLe (a + 2) 1)
  else if !d.groupAgreed a then none
  else some (d.groupAdvance r a n, (d.groupAdvance r a n).rdLe (a + 2) 1)

/-! ## Messages -/

/-- The header of a REMOTE_ACC or PARAM message (Table 14-5) and what follows it. -/
structure AccMsg where
  kind : Nat
  fmt : Nat
  n : Nat
  scale : Nat
  slot : Nat
  role : Nat
  bucket : Nat
  chunk : Nat
  step : Nat
  poison : Nat
  body : List (BitVec 8)
  deriving DecidableEq, Repr

/-- Read a message (Table 14-5). -/
def accMsg (b : List (BitVec 8)) : AccMsg :=
  let f := fun (o n : Nat) => ofLe ((b.drop o).take n)
  ⟨f 0 1, f 1 1, f 2 1, f 3 1, f 4 2, f 6 1, f 8 4, f 12 4, f 16 8, f 24 8, b.drop 32⟩

/-- A message is refused (R412, R426). Log: 104 (DEDUCED). -/
def Dev.refuseAcc (d : Dev) (r src cls id code : Nat) : Dev :=
  ((d.raise RED_STAT.REFUSE_EV r).count RED_REFUSE_CNT r 1).reply src cls id code 0

/-- Checks 1 to 4 of R426, and the fence (R412). Log: 104 (DEDUCED). -/
def Dev.accCode (d : Dev) (r src : Nat) (m : AccMsg) : Nat :=
  let b := d.bucket r m.bucket
  let e := d.slotEntry r m.slot
  firstCode [
    need (d.get KL_RC_STAT.FENCED r == 0) 0x0610,
    need (d.get RED_CTL.EN r == 1) 0x0701,
    need (decide (m.bucket < d.nBuckets r) && d.tableInside r (m.bucket + 1) && decide (m.slot < d.nSlots r)
      && decide (m.chunk < b.chunks) && decide (m.n ≤ b.inChunk m.chunk) && d.bucketInside r b) 0x0702,
    need (if m.role = 0 then bitsOf e 0 15 == src else m.role == 1 && bitAt e 15 && bitsOf e 16 15 == src) 0x0703]

/-! ## Adders -/

/-- The adder that serves a channel (R417). -/
def adderOf (ch : Nat) : Nat := 4 * (ch / 32) + ch % 4

/-- The base tile of an adder (R417). -/
def adderTile (a : Nat) : Nat := if a < 48 then a / 12 else (a - 48) / 2

/-- The adder in service for number `a`: itself, or the spare that serves it (R432). -/
def Dev.adderFor (d : Dev) (a : Nat) : Nat :=
  if d.get RED_ADDER_STAT.STATE a ≠ 2 then a else
  ((List.range 8).map fun k => 48 + k).find? (fun s => d.get RED_ADDER_STAT.STATE s == 0 && d.get RED_ADDER_STAT.SERVES s == a) |>.getD a

/-- An adder is retired (R432): the lowest free spare of its base tile takes over. -/
def Dev.retireAdder (d : Dev) (a : Nat) : Dev :=
  if d.get RED_ADDER_STAT.STATE a = 2 then d else
  let served := if a < 48 then a else d.get RED_ADDER_STAT.SERVES a
  let t := adderTile a
  let d1 := (((d.set RED_ADDER_STAT.STATE a 2).burn (.adder a))).raise RED_CHECK_STAT.RETIRE_EV 0
  match [48 + 2 * t, 49 + 2 * t].find? fun s => d1.get RED_ADDER_STAT.STATE s == 1 with
  | some s =>
    (((d1.set RED_ADDER_STAT.STATE s 0).set RED_ADDER_STAT.SERVES s served).set RED_CHECK_STAT.SPARES_FREE 0
      (d1.get RED_CHECK_STAT.SPARES_FREE 0 - 1)).log 9 2 5 none (d.strikesOf (.adder a)) a 0xFFFF 0 0
  | none =>
    ((d1.set RED_CHECK_STAT.ACTIVE 0 (d1.get RED_CHECK_STAT.ACTIVE 0 - 1)).degrade 4).log 9 2 6 none (d.strikesOf (.adder a)) a 0xFFFF 0 0

/-- A checked block's sums differ (R432): `out` is the outvoted adder, none where all three differ and the block's sectors
become poison. Log: 106 (DESIGN CHOICE). -/
def Dev.adderMismatch (d : Dev) (r acc : Nat) (out : Option Nat) : Dev :=
  let d1 := (d.count RED_MISMATCH_CNT 0 1).raise RED_CHECK_STAT.MISMATCH_EV 0
  match out with
  | some a0 =>
    let a := d.adderFor (a0 % 56)
    let d2 := d1.addStrike (.adder a)
    let d3 := d2.log 9 1 3 (some r) (d2.strikesOf (.adder a)) a 0xFFFF acc 0
    if d3.get RED_CHECK_CTL.STRIKES 0 ≤ d3.strikesOf (.adder a) then
      (if d3.flt.wdogBusy then { d3 with flt := { d3.flt with deferred := d3.flt.deferred ++ [.adder a] } } else d3.retireAdder a)
    else d3
  | none =>
    let a := d.adderFor (adderOf ((d.homeOf acc).getD 0))
    let d2 := (d1.raise RED_CHECK_STAT.TRIPLE_EV 0).log 9 1 7 (some r) (d1.strikesOf (.adder a)) a 0xFFFF acc 0
    (sectorsOf acc 256).foldl (fun e s => e.markPoison s 2) d2

/-! ## Sums -/

/-- Write over sectors and keep the poison of those that were poisoned: a sum with a poisoned sector is poisoned. -/
def Dev.wrKeep (d : Dev) (a : Nat) (bs : List (BitVec 8)) : Dev :=
  let bad := (sectorsOf a bs.length).filter d.badSector
  let d1 := d.wrBytes a bs
  { d1 with poison := bad.foldl (fun l s => sins s l) d1.poison }

/-- Add one block of contributions (R427): 32 elements, their accumulators in the bank. -/
def Dev.addBlock (d : Dev) (acc width : Nat) (body : List (BitVec 8)) : Dev :=
  let w := if width = 0 then 16 else 32
  let q := ofLe body
  let sums := (List.range 32).map fun k =>
    toLe 8 (ofSigned 64 (toSigned 64 (d.rdLe (acc + 8 * k) 8) + toSigned w (unpack w q k)))
  d.wrKeep acc sums.flatten

/-- A block is sampled (R431). -/
def Dev.sampled (d : Dev) (c b s : Nat) : Bool :=
  let k := d.get RED_CHECK_CTL.RATE_LOG2 0
  k != 0 && (64 * c + b + s) % 2 ^ k == 0

/-- Add every block of a contribution, with the checks of those sampled (R427, R431, R432). Log: 106 (DESIGN CHOICE). -/
def Dev.addAll (d : Dev) (r : Nat) (b : Bucket) (m : AccMsg) (wrong : List (Nat × Option Nat)) : Dev :=
  let w := if m.fmt = 0 then 64 else 128
  (List.range m.n).foldl (fun e k =>
    let acc := b.accAt (m.step % 2) (64 * m.chunk + k)
    let e1 := e.addBlock acc m.fmt ((m.body.drop (w * k)).take w)
    if e.sampled m.chunk k m.slot then
      let e2 := e1.count RED_CHECK_CNT 0 1
      match wrong.find? fun p => p.1 == k with
      | some p => e2.adderMismatch r acc p.2
      | none => e2
    else e1) d

/-! ## Arrivals -/

/-- The traffic of a contribution that is added (R427): every sector of its accumulators is read and written, 128 bytes of charge. -/
def Bucket.addTraffic (b : Bucket) (m : AccMsg) : List (Bool × Nat × Nat) :=
  let a := b.accAt (m.step % 2) (64 * m.chunk)
  [(false, a, 256 * m.n), (true, a, 256 * m.n)]

/-- A contribution or a probe arrives (R426 to R429). `waited` says that the wait for system-wide scale values has run out;
without it a message whose scale is not agreed yet goes on waiting, as does one whose additions wait for tokens or for a channel that
retrains (R322, R427). `wrong` names the sampled blocks whose sums differ. Log: 105 (DEDUCED); 165 (DEDUCED).
Log: 196 (DEDUCED). -/
def Dev.accArrive (d : Dev) (src cls job id : Nat) (m : AccMsg) (waited : Bool) (wrong : List (Nat × Option Nat)) : Dev :=
  match d.jobRoom job with
  | none => d.reply src cls id 0x0602 0
  | some r =>
    let b := d.bucket r m.bucket
    let bank := m.step % 2
    let bits := d.slotBits r b bank m.chunk m.slot
    let counted := bits % 2 == 1
    let code := d.accCode r src m
    let f := d.forgive (.add src id)
    let dup := (if m.kind = 0 then f.count RED_DUP_CNT r 1 else f).reply src cls id 0 1
    if code ≠ 0 then f.refuseAcc r src cls id code
    else if d.bankClosed r m.step then (if counted then dup else f.refuseAcc r src cls id 0x0706)
    else if !d.bankOpen r m.step then f.refuseAcc r src cls id 0x0704
    else if m.kind = 1 then (if counted then dup else d.reply src cls id 0 2)
    else if m.fmt ≠ b.width then d.refuseAcc r src cls id 0x0705
    else match d.stepScale r (d.sgroup r b.group) m.step with
    | none => if waited then d.refuseAcc r src cls id 0x0708 else d
    | some (e, c) =>
      if c ≠ m.scale then e.refuseAcc r src cls id 0x0707
      else if counted then ((e.forgive (.add src id)).count RED_DUP_CNT r 1).reply src cls id 0 1
      else if m.poison % 2 ^ m.n = 0 then
        let g := e.gate (.add src id) r (b.addTraffic m)
        if !g.2 then g.1 else ((g.1.addAll r b m wrong).setSlotBits r b bank m.chunk m.slot 1).reply src cls id 0 0
      else (e.setSlotBits r b bank m.chunk m.slot (if e.get UPD_POLICY.POLICY r = 0 then 3 else 2)).reply src cls id 0 0

end Sys2Proof.Machine
end

