-- ==== Sys2Proof/Machine/Update.lean ====
section
/-! DEFINITION. The UPDATE command: verdict, bank close, pass 1, the step tally, pass 2 and the parameter broadcast (Gradient
reduction and the parameter update, R430 to R443), with the commands of the link and of Roll call that move it on. -/

namespace Sys2Proof.Machine

/-! ## Tables -/

/-- An update group entry (Table 14-11), as read when it is needed. -/
structure UGroup where
  addr : Nat
  rule : Nat
  cls : Nat
  flags : Nat
  fmt : Nat
  kl : Nat
  quiet : Nat
  nElem : Nat
  w : Nat
  r : Nat
  m : Nat
  v : Nat
  deriving DecidableEq, Repr

/-- Update group `g` of a Room. -/
def Dev.ugroup (d : Dev) (r g : Nat) : UGroup :=
  let a := d.updGroup r g
  ⟨a, d.rdLe a 1, d.rdLe (a + 1) 1, d.rdLe (a + 4) 1, d.rdLe (a + 5) 1, d.rdLe (a + 6) 1, d.rdLe (a + 7) 1, d.rdLe (a + 0x30) 8,
    d.rdLe (a + 0x38) 8, d.rdLe (a + 0x40) 8, d.rdLe (a + 0x48) 8, d.rdLe (a + 0x50) 8⟩

/-- An FP32 coefficient of a group: LR, WD, B1, B2, OMB1, OMB2, EPS, GMUL are 0 to 7, B1T and B2T 8 and 9. -/
def Dev.coef (d : Dev) (g : UGroup) (k : Nat) : Nat := d.rdLe (g.addr + 8 + 4 * k) 4

/-- Bytes per element of the stored weight (Table 05-10), and its format. -/
def UGroup.wBytes (g : UGroup) : Nat := if g.cls = 0 then 4 else 2
def UGroup.tableFmt (g : UGroup) : Nat := if bitAt g.flags 2 then 1 else 2

/-- The number of update groups. -/
def Dev.nGroups (d : Dev) (r : Nat) : Nat := d.get UPD_GROUPS.COUNT r

/-- A group entry is valid (R436). -/
def Dev.ugroupOk (d : Dev) (r k : Nat) : Bool :=
  let g := d.ugroup r k
  decide (g.rule ≤ 2) && decide (g.cls ≤ 2) && decide (g.flags < 8)
    && (if g.cls = 0 then decide (g.fmt ≤ 2) else if g.cls = 1 then g.fmt == 2 else g.fmt == g.tableFmt)
    && (g.rule != 0 || (FVal.num false 0 0).lt (elemRaw 0 (d.coef g 6)))
    && decide (1 ≤ g.nElem) && decide (g.nElem ≤ 2 ^ 35) && d.isZero (g.addr + 0x64) 28

/-- A bucket entry is valid (R424, R425, R436): its fields, its banks, its receivers, and the state arrays of its elements. -/
def Dev.bucketOk (d : Dev) (r k : Nat) : Bool :=
  let b := d.bucket r k
  let g := d.ugroup r b.group
  let i0 := 32 * b.first
  let n := 32 * b.blocks
  let arr := fun (base size : Nat) => d.inWindows r (base + size * i0) (size * n)
  let recv := d.redBase r + d.rdLe (d.redBase r + 12) 4 + 2 * b.recvFirst
  decide (1 ≤ b.blocks) && decide (b.blocks ≤ 4194304) && decide (b.group < d.nGroups r) && decide (b.width ≤ 1)
    && decide (b.nRecv ≤ 1024) && d.isZero (d.redBase r + bucketOff (d.nSlots r) + 64 * k + 0x2A) 22
    && d.rdLe (d.redBase r + bucketOff (d.nSlots r) + 64 * k + 0x23) 1 == 0
    && d.bucketInside r b && inside (d.ftWin r) recv (2 * b.nRecv)
    && (List.range b.nRecv).all (fun j => !bitAt (d.rdLe (recv + 2 * j) 2) 15)
    && arr g.w g.wBytes && (g.cls != 1 || arr g.r 1) && arr g.m 4 && (g.rule != 0 || arr g.v 4)

/-- Step 1 of UPDATE (Table 14-12): both tables are valid and Roll call is enabled. -/
def Dev.tablesOk (d : Dev) (r : Nat) : Bool :=
  let a := d.redBase r
  let nb := d.nBuckets r
  d.get KL_RC_CTL.EN r == 1 && inside (d.ftWin r) a 64 && decide (nb ≤ 65536) && decide (1 ≤ d.nSlots r) && decide (d.nSlots r ≤ 32768)
    && d.rdLe (a + 6) 2 == 0 && d.rdLe (a + 12) 4 % 64 == 0 && d.isZero (a + 16) 48 && d.tableInside r nb
    && (List.range (d.nSlots r)).all (fun k => !bitAt (d.slotEntry r k) 31)
    && d.inWindows r (d.updGroup r 0) (128 * d.nGroups r)
    && (List.range (d.nGroups r)).all (d.ugroupOk r) && (List.range nb).all (d.bucketOk r)

/-- The buckets of a Room. -/
def Dev.buckets (d : Dev) (r : Nat) : List Bucket := (List.range (d.nBuckets r)).map (d.bucket r)

/-! ## Shared operations -/

/-- The running UPDATE of a Room. -/
def Dev.upd (d : Dev) (r : Nat) : Option UpdSt := (d.red? r).upd
def Dev.setUpd (d : Dev) (r : Nat) (u : Option UpdSt) : Dev := d.setRed r { d.red? r with upd := u }

/-- The Room that update engine `k` serves: the first with an UPDATE in pass 1 or 2 that has a bucket for it (R417).
Log: 196 (DEDUCED). -/
def Dev.engineRoom (d : Dev) (k : Nat) : Option (Nat × Nat) :=
  (List.range 16).findSome? fun r =>
    match d.upd r with
    | some u => if k < d.nBuckets r then (if u.stage = .pass1 then some (r, 1) else if u.stage = .pass2 then some (r, 2) else none) else none
    | none => none

/-- Show what each update engine does (Table 14-18). Log: 196 (DEDUCED). -/
def Dev.showEngines (d : Dev) : Dev :=
  (List.range 12).foldl (fun e k =>
    match d.engineRoom k with
    | some (r, p) => (e.set UPD_ENGINE_STAT.PASS k p).set UPD_ENGINE_STAT.ROOM k r
    | none => (e.set UPD_ENGINE_STAT.PASS k 0).set UPD_ENGINE_STAT.ROOM k 0) d

/-- Write zero over a range: whole sectors written clean lose their poison (R328). A DEAD channel takes no write (R333). -/
def Dev.wipe (d : Dev) (a n : Nat) : Dev :=
  if d.deadRange a n then d.wrBytes a (List.replicate n 0) else (d.zero a n).cleanSectors a n

/-- Zero the bank of a step in every bucket, which opens it for the second step after (R425). Log: 165 (DEDUCED). -/
def Dev.zeroBank (d : Dev) (r step : Nat) : Dev :=
  let k := step % 2
  let nb := mapBytes (d.nSlots r)
  ((d.buckets r).foldl (fun e b =>
    let a := b.accAt k 0
    let m := b.mapAt (d.nSlots r) k 0
    (((e.wipe a (256 * b.blocks)).charge (some r) a (256 * b.blocks)).wipe m (nb * b.chunks)).charge (some r) m
      (chargeOf true m (nb * b.chunks))) d).openBank r (step + 2)

/-- Why the parameters of a step, named by its low 32 bits, will not arrive (R443): the outcome of its UPDATE, or 0x0712 where
Roll call has fenced the step. -/
def Dev.noParams (d : Dev) (r low : Nat) : Option Nat :=
  match (d.red? r).outcomes.find? fun p => p.1 % 2 ^ 32 == low with
  | some p => some p.2
  | none => if (d.rc r).verdicts.any fun v => v.1 % 2 ^ 32 == low && v.2 == 2 then some 0x0712 else none

/-- PARAM_WAIT commands of a Room end (R443): when the bytes have come, or with the outcome of a step that brings none. -/
def Dev.paramPoll (d : Dev) (r : Nat) : Dev :=
  (d.que.cmds.filter fun c => c.room == r && c.opcode == 0x51 && c.phase == .timeWait).foldl (fun e c =>
    let k := 2 * r + c.arg 2 % 2
    if c.arg64 0 ≤ e.get64 UPD_PARAM_RX_LO UPD_PARAM_RX_HI k then (e.set64 UPD_PARAM_RX_LO UPD_PARAM_RX_HI k 0).finish c 0
    else match e.noParams r (c.arg 2) with
      | some code => (e.set64 UPD_PARAM_RX_LO UPD_PARAM_RX_HI k 0).finish c code
      | none => e) d

/-- An UPDATE ends (Table 14-12, R445): its events and counts, the outcome for PARAM_WAIT, and the tally is given up. -/
def Dev.updEnd (d : Dev) (r code : Nat) : Dev :=
  match d.upd r with
  | none => d
  | some u =>
    let skip := decide (0x0710 ≤ code) && decide (code ≤ 0x0712)
    let x := d.red? r
    let outs := if skip || code == 0x0713 then (u.step, code) :: x.outcomes.filter (fun p => p.1 != u.step) else x.outcomes
    let d1 := ((d.setRed r { x with upd := none, outcomes := outs, tallyStep := none }).set UPD_STAT.RUNNING r 0).forgive (.pass r)
    let d2 := if skip then (d1.raise UPD_STAT.SKIP_EV r).count UPD_SKIP_CNT r 1 else d1
    let d3 := if code = 0x0713 then d2.raise UPD_STAT.TALLY_EV r else if code = 0x0715 then d2.raise UPD_STAT.POISON_EV r else d2
    let d4 := match d3.cmd? u.cmd with
      | some c => d3.finish c code
      | none => d3
    (d4.paramPoll r).showEngines

/-- Level of a Room's UPDATE, in whose class it sends (R158, R437). -/
def Dev.updClass (d : Dev) (r : Nat) : Nat :=
  match (d.upd r).bind fun u => d.cmd? u.cmd with
  | some c => c.level
  | none => 0

/-- Send a message of an UPDATE that will be answered (R399): its number, and the code where no port is usable. -/
def Dev.updSend (d : Dev) (r dev typ : Nat) (bs : List (BitVec 8)) (fields : List Nat) : Dev × Option Nat :=
  let id := d.kl.nextRemote
  let p := (d.remember ⟨id, .update r, dev, none⟩).sendMsg dev typ (d.updClass r) ([d.get KL_ROOM_JOB.JOB r, id] ++ fields) bs false (some id)
  if p.2 then (p.1, some id)
  else (d.remoteErr 0x0601 dev, none)

/-! ## The tally -/

/-- Bytes of a tally record (Table 14-10). -/
def TallyRec.bytes (t : TallyRec) (step : Nat) : List (BitVec 8) :=
  toLe 8 step ++ toLe 4 t.flags ++ toLe 4 t.nDev ++ toLe 16 0
    ++ t.entries.flatMap fun e => toLe 16 e.nsq ++ toLe 8 e.lost ++ toLe 4 e.amax ++ toLe 1 e.ovf ++ toLe 3 0

/-- Read a tally record's bytes. -/
def parseTally (bs : List (BitVec 8)) : TallyRec :=
  let f := fun (o n : Nat) => ofLe ((bs.drop o).take n)
  ⟨f 8 4, f 12 4, (List.range ((bs.length - 32) / 32)).map fun k =>
    ⟨f (32 + 32 * k) 16, f (48 + 32 * k) 8, f (56 + 32 * k) 4, f (60 + 32 * k) 1⟩⟩

/-- Merge entry lists: sums of NSQ and LOST, maxima of AMAX and OVF_M. -/
def mergeEntries : List TallyEntry → List TallyEntry → List TallyEntry
  | [], l => l
  | l, [] => l
  | a :: s, b :: t => ⟨a.nsq + b.nsq, a.lost + b.lost, max a.amax b.amax, max a.ovf b.ovf⟩ :: mergeEntries s t

/-- Merge two records (Table 14-10). -/
def TallyRec.merge (a b : TallyRec) : TallyRec := ⟨a.flags ||| b.flags, a.nDev + b.nDev, mergeEntries a.entries b.entries⟩

/-- Nothing merged. -/
def TallyRec.zero : TallyRec := ⟨0, 0, []⟩

/-- Write the system-wide values of a group's scale entry (R435, R437). -/
def Dev.putSystem (d : Dev) (r g step amax ovf : Nat) : Dev :=
  let a := d.groupAddr r (d.sgroup r g)
  if d.groupOk r (d.sgroup r g) then ((d.wrLe (a + 0x24) 4 amax).wrLe (a + 0x28) 1 ovf).wrLe (a + 0x20) 4 (d.stepRound r step) else d

/-- The new K_L and QUIET of a CLASS_TABLE group, with `lost` of `n` elements lost system-wide in the step before (R194).
Log: 109 (DEDUCED). -/
def Dev.classStep (d : Dev) (r kl quiet lost n : Nat) : Nat × Nat :=
  let hi := d.get NUM_CLASS_CTL.LOST_HI r
  let lo := d.get NUM_CLASS_CTL.LOST_LO r
  if n ≤ lost * 2 ^ hi then (min (kl + 1) (max kl (d.get NUM_CLASS_CTL.K_MAX r)), 0)
  else if lost * 2 ^ lo < n then
    if d.get NUM_CLASS_CTL.DOWN_ROUNDS r ≤ quiet + 1 then (kl - 1, 0) else (kl, quiet + 1)
  else (kl, 0)

/-- The F of a group's carrier (R418): that of a bucket of the group in this device's table. A device that owns none of the
group is not told it: one of the two, free. Log: 109 (DEDUCED). -/
def Dev.groupF (d : Dev) (r g : Nat) : Nat :=
  match (d.buckets r).find? fun b => b.group == g with
  | some b => if b.width = 0 then 8 else 24
  | none => if d.freeWord % 2 = 0 then 8 else 24

/-- Round to FP32, counting a saturation. -/
def rnd32 (v : FVal) : StateM Nat FVal := fp32 (fun a _ => a) v v

/-- The norm and the clip factor (R440), as FP32 values. -/
def clipFactor (en : Bool) (limit : FVal) (gs : List (Bool × Nat × Int × FVal)) : StateM Nat (FVal × FVal) := do
  let n2 ← gs.foldlM (fun (acc : FVal) g =>
    if g.1 then do
      let t ← rnd32 (.num false g.2.1 (2 * g.2.2.1))
      let q ← fp32 FVal.mul g.2.2.2 g.2.2.2
      let p ← fp32 FVal.mul t q
      fp32 FVal.add acc p
    else pure acc) (FVal.num false 0 0)
  let norm ← rnd32 n2.sqrt
  if en && (FVal.num false 0 0).lt limit && limit.lt norm then do
    let cf ← fp32 FVal.div limit norm
    pure (norm, cf)
  else pure (norm, .num false 1 0)

/-- Step 8 (Table 14-12): the coefficients are latched, norm and clip factor computed, B1T, B2T and STEPS advance, and pass 2
begins. -/
def Dev.beginPass2 (d : Dev) (r : Nat) (u : UpdSt) (t : TallyRec) : Dev :=
  let ks := List.range (d.nGroups r)
  let p := ks.foldl (fun (acc : Dev × List GroupCoef) k =>
    let e := acc.1
    let g := e.ugroup r k
    let q := match e.stepScale r (e.sgroup r k) u.step with
      | some q => q
      | none => (e, e.rdLe (e.groupAddr r (e.sgroup r k) + 2) 1)
    (q.1.drew, acc.2 ++ [⟨q.2, e.groupF r k, e.coef g 0, e.coef g 1, e.coef g 7⟩])) (d, [])
  let gs := (ks.zip p.2).map fun q =>
    (bitAt (d.ugroup r q.1).flags 0, (nth ⟨0, 0, 0, 0⟩ t.entries q.1).nsq, (q.2.scale : Int) - 127 - q.2.f, elemRaw 0 q.2.gmul)
  let cr := (clipFactor (d.get UPD_POLICY.CLIP_EN r == 1) (elemRaw 0 (d.rd UPD_CLIP_MAX r)) gs).run 0
  let cf := (conv 0 cr.1.2).1
  let d1 := ((p.1.wr UPD_NORM r (conv 0 cr.1.1).1).wr UPD_CLIP r cf).tally r ⟨cr.2, 0⟩
  let d2 := ks.foldl (fun e k =>
    let g := e.ugroup r k
    let mul := fun (a b : Nat) => (conv 0 ((elemRaw 0 a).mul (elemRaw 0 b))).1
    ((e.wrLe (g.addr + 0x28) 4 (mul (e.coef g 8) (e.coef g 2))).wrLe (g.addr + 0x2C) 4 (mul (e.coef g 9) (e.coef g 3))).wrLe
      (g.addr + 0x60) 4 (e.rdLe (g.addr + 0x60) 4 + 1)) d1
  (d2.setUpd r (some { u with stage := .pass2, cf := cf, coefs := p.2 })).showEngines

/-- The result of the tally is applied (R435). -/
def Dev.applyTally (d : Dev) (r step : Nat) (t : TallyRec) : Dev :=
  match d.upd r with
  | none => d
  | some u =>
    if u.step ≠ step || !(u.stage == .collect || u.stage == .pass1 || u.stage == .tally) then d else
    let ks := (List.range (d.nGroups r)).zip (t.entries ++ List.replicate (d.nGroups r) ⟨0, 0, 0, 0⟩)
    let d1 := ks.foldl (fun e q => e.putSystem r q.1 step q.2.amax q.2.ovf) d
    let d2 := ks.foldl (fun e q =>
      let g := e.ugroup r q.1
      if g.cls = 2 then
        let kq := e.classStep r g.kl g.quiet q.2.lost g.nElem
        (e.wrLe (g.addr + 6) 1 kq.1).wrLe (g.addr + 7) 1 (min kq.2 255)
      else e) d1
    if bitAt t.flags 0 then (d2.zeroBank r step).updEnd r 0x0710
    else if bitAt t.flags 1 || bitAt t.flags 2 then (d2.zeroBank r step).updEnd r 0x0711
    else d2.beginPass2 r u t

/-- A tally message: header and record (Table 14-5). -/
def tallyMsg (kind step : Nat) (t : TallyRec) : List (BitVec 8) :=
  let body := t.bytes step
  accHeader kind 0 0 0 0 0 0 0 step body.length ++ body

/-- The result goes to the children (R434). -/
def Dev.tallyDown (d : Dev) (r step : Nat) (t : TallyRec) : Dev :=
  (d.rcChildren r).foldl (fun e p => (e.updSend r (d.get KL_PORT_STAT.NBR_DEV p) mtParam (tallyMsg 1 step t) []).1) d

/-- The merged record goes up, or at the root the result is formed (R434). -/
def Dev.tallySend (d : Dev) (r : Nat) : Dev :=
  let x := d.red? r
  match x.tallyStep with
  | none => d
  | some step =>
    let d1 := d.setRed r { x with sent := true }
    if d.get KL_RC_CTL.ROOT r = 1 then (d1.tallyDown r step x.tally).applyTally r step x.tally
    else (d1.updSend r (d.get KL_PORT_STAT.NBR_DEV (d.get KL_RC_CTL.PARENT r)) mtRemoteAcc (tallyMsg 2 step x.tally) []).1

/-- Send when the own record is formed and every child's has come. -/
def Dev.tallyTry (d : Dev) (r : Nat) : Dev :=
  let x := d.red? r
  if x.tallyStep.isSome && x.own && !x.sent && (d.rcChildren r).all fun p => x.children.contains p then d.tallySend r else d

/-- A record joins the tally of a step: this device's own, or that of the child on a port. A record for a step that has been
sent, or for an earlier one, is discarded. -/
def Dev.tallyJoin (d : Dev) (r step : Nat) (p : Option Nat) (t : TallyRec) : Dev :=
  let x := d.red? r
  let fresh := match x.tallyStep with
    | none => true
    | some s => x.sent && decide (s < step)
  let y := if fresh then { x with tallyStep := some step, tally := TallyRec.zero, children := [], own := false, sent := false } else x
  let twice := match p with
    | some q => y.children.contains q
    | none => y.own
  if y.tallyStep ≠ some step || y.sent || twice then d else
  (d.setRed r { y with
    tally := y.tally.merge t
    children := match p with | some q => y.children ++ [q] | none => y.children
    own := y.own || p.isNone }).tallyTry r

/-! ## The steps of UPDATE -/

/-- Every chunk and slot of every bucket is COUNTED (Table 14-12, step 4). -/
def Dev.allCounted (d : Dev) (r step : Nat) : Bool :=
  (d.buckets r).all fun b => (List.range b.chunks).all fun c => (List.range (d.nSlots r)).all fun k =>
    d.slotBits r b (step % 2) c k % 2 == 1

/-- The bits of every chunk and slot of a bank. -/
def Dev.bankBits (d : Dev) (r step : Nat) : List Nat :=
  (d.buckets r).flatMap fun b => (List.range b.chunks).flatMap fun c => (List.range (d.nSlots r)).map fun k =>
    d.slotBits r b (step % 2) c k

/-- The deadline for contributions to a step (R424): its Round start plus T_DEAD_NS. -/
def Dev.redDeadline (d : Dev) (r step : Nat) : Nat := tget (fun _ => 0) (d.rc r).rounds step + d.tDead r

/-- The bank closes and pass 1 begins (R429, R430). -/
def Dev.updClose (d : Dev) (r : Nat) (u : UpdSt) : Dev :=
  let bits := d.bankBits r u.step
  let miss := (bits.filter fun b => b == 0).length
  let again := d.bankClosed r u.step
  let d1 := if again || miss = 0 then d else (d.count RED_MISS_CNT r miss).raise RED_STAT.MISS_EV r
  let poison := bits.any fun b => if d.get UPD_POLICY.POLICY r = 0 then 2 ≤ b else b == 2
  let d2 := if again then d1 else d1.closeBank r u.step
  (d2.setUpd r (some { u with stage := .pass1, flags := bit poison + 2 * bit (miss != 0) })).showEngines

/-- An UPDATE moves on as far as it can without waiting (Table 14-12, steps 3 and 4). -/
def Dev.updPoll (d : Dev) (r : Nat) : Dev :=
  match d.upd r with
  | none => d
  | some u =>
    let go := fun (e : Dev) (w : UpdSt) =>
      if e.allCounted r w.step || decide (e.redDeadline r w.step ≤ e.now) then e.updClose r w else e.setUpd r (some w)
    match u.stage with
    | .verdict =>
      match (d.rc r).verdictOf u.step with
      | 0 => d
      | 1 => go d { u with stage := .collect }
      | _ =>
        let d1 := (List.range (d.nGroups r)).foldl (fun e g => e.putSystem r g u.step 0 0) d
        (d1.zeroBank r u.step).updEnd r 0x0712
    | .collect => go d u
    | _ => d

/-- Roll call has moved on: the Room's UPDATE goes on, and a PARAM_WAIT of a fenced step ends (R412, R443). -/
def Dev.verdictPoll (d : Dev) (r : Nat) : Dev := (d.updPoll r).paramPoll r

/-- The step whose low 32 bits an UPDATE names: that for which a bank is open or closed (Table 14-12, step 2). -/
def Dev.updStep (d : Dev) (r low : Nat) : Option Nat :=
  let x := d.red? r
  let k := low % 2
  [tget (fun _ => none) x.opened k, tget (fun _ => none) x.closed k].findSome? fun s =>
    match s with
    | some n => if n % 2 ^ 32 = low then some n else none
    | none => none

/-- UPDATE starts (Table 14-12, steps 1 to 3). -/
def Dev.updStart (d : Dev) (c : Cmd) : Dev :=
  let r := c.room
  if !d.tablesOk r then d.finish c 0x0717
  else if (d.upd r).isSome then d.finish c 0x0718
  else match d.updStep r (c.arg 0) with
  | none => d.finish c 0x0704
  | some step =>
    (((d.begin c .started 0).setUpd r (some ⟨c.id, step, .verdict, 0, 0, [], [], 0⟩)).set UPD_STAT.RUNNING r 1).updPoll r

/-- Σ A² over a bucket's elements in a bank (R433). -/
def Dev.bucketNsq (d : Dev) (b : Bucket) (bank : Nat) : Nat :=
  (List.range (32 * b.blocks)).foldl (fun n k => n + (toSigned 64 (d.rdLe (b.accAt bank 0 + 8 * k) 8)).natAbs ^ 2) 0

/-- The first moments of a bucket: address and bytes (Table 14-11). -/
def Dev.momentOf (d : Dev) (r : Nat) (b : Bucket) : Nat × Nat := ((d.ugroup r b.group).m + 128 * b.first, 128 * b.blocks)

/-- What pass 1 reads (Table 14-12, step 5). -/
def Dev.pass1Traffic (d : Dev) (r bank : Nat) : List (Bool × Nat × Nat) :=
  (d.buckets r).flatMap fun b => [(false, b.accAt bank 0, 256 * b.blocks), (false, (d.momentOf r b).1, (d.momentOf r b).2)]

/-- Pass 1 ends, once its reads have issued (R322): this device's record (R433), with POISON where an accumulator or a first moment read
poisoned (R437). Log: 165 (DEDUCED). -/
def Dev.pass1Done (d : Dev) (r : Nat) : Dev :=
  match d.upd r with
  | none => d
  | some u =>
    if u.stage ≠ .pass1 then d else
    let bank := u.step % 2
    let bs := d.buckets r
    let gate := d.gate (.pass r) r (d.pass1Traffic r bank)
    if !gate.2 then gate.1 else
    let d1 := gate.1
    let bad := bs.any fun b => d.poisoned (b.accAt bank 0) (256 * b.blocks) || d.poisoned (d.momentOf r b).1 (d.momentOf r b).2
    let entries := (List.range (d.nGroups r)).map fun g =>
      let a := d.groupAddr r (d.sgroup r g)
      let mine := d.groupOk r (d.sgroup r g) && d.rdLe (a + 8) 4 == d.stepRound r u.step
      (⟨((bs.filter fun b => b.group == g).map fun b => d.bucketNsq b bank).foldl (· + ·) 0, d.rdLe (d.updGroup r g + 0x58) 8,
        if mine then d.rdLe (a + 0x10) 4 else 0, if mine then d.rdLe (a + 0x14) 1 else 0⟩ : TallyEntry)
    let rec1 : TallyRec := ⟨u.flags ||| bit bad, 1, entries⟩
    ((d1.setUpd r (some { u with stage := .tally, flags := rec1.flags })).showEngines).tallyJoin r u.step none rec1

/-- The deadline of a device's tally record (R434). -/
def Dev.tallyDeadline (d : Dev) (r step : Nat) : Nat :=
  d.redDeadline r step + 1000 * d.get UPD_TALLY_TMO.BASE_US 0 + 1000 * d.get KL_RC_CTL.HEIGHT r * d.get UPD_TALLY_TMO.HOP_US 0

/-- The tally deadline passes: what is missing sets ABSENT, and the record goes up (R434). Log: 108 (DEDUCED). -/
def Dev.tallyExpire (d : Dev) (r : Nat) : Dev :=
  match d.upd r with
  | none => d
  | some u =>
    if !(u.stage == .collect || u.stage == .pass1 || u.stage == .tally) || d.now < d.tallyDeadline r u.step then d else
    let x := d.red? r
    let y := if x.tallyStep = some u.step then x else
      { x with tallyStep := some u.step, tally := TallyRec.zero, children := [], own := false, sent := false }
    if y.sent then d else
    (d.setRed r { y with tally := { y.tally with flags := y.tally.flags ||| 4 } }).tallySend r

/-! ## Pass 2 -/

/-- FP32 arithmetic of one element (R438): the update d, and the new moments. The inputs are g before the clip factor is
applied, w, m, v and the coefficients. -/
def elementStep (rule : Nat) (noBias : Bool) (cf : FVal) (k : Nat → FVal) (lr wd gmul : FVal) (a w m v : FVal) :
    StateM Nat (FVal × FVal × FVal) := do
  let one : FVal := .num false 1 0
  let fma3 := fun (x y z : FVal) => rnd32 (x.fma y z)
  let g ← rnd32 a
  let g ← fp32 FVal.mul g gmul
  let g ← fp32 FVal.mul g cf
  let og ← fp32 FVal.mul (k 4) g
  let out ← if rule = 0 then do
      let m1 ← fma3 (k 2) m og
      let gg ← fp32 FVal.mul g g
      let ogg ← fp32 FVal.mul (k 5) gg
      let v1 ← fma3 (k 3) v ogg
      let bc1 ← if noBias then pure one else fp32 (fun x y => x.add y.neg) one (k 8)
      let bc2 ← if noBias then pure one else fp32 (fun x y => x.add y.neg) one (k 9)
      let mh ← fp32 FVal.div m1 bc1
      let vh ← fp32 FVal.div v1 bc2
      let root ← rnd32 vh.sqrt
      let den ← fp32 FVal.add root (k 6)
      let q ← fp32 FVal.div mh den
      pure (q, m1, v1)
    else if rule = 1 then do
      let m1 ← fma3 (k 2) m g
      pure (m1, m1, v)
    else do
      let c ← fma3 (k 2) m og
      let zero : FVal := .num false 0 0
      let q := if zero.lt c then one else if c.lt zero then one.neg else zero
      let og2 ← fp32 FVal.mul (k 5) g
      let m1 ← fma3 (k 3) m og2
      pure (q, m1, v)
  let s ← fma3 wd w out.1
  let ls ← fp32 FVal.mul lr s
  pure (ls.neg, out.2)

/-- The 24-bit float of a CLASS_DENSE pair (R193). -/
def denseFmt : Fmt := ⟨8, 15, 127, 0x7F7FFF, some 0x7F8000, 0x7FC000⟩

/-- The stored weight after an update (R174, R177, R193, R439): its code, or that of the pair with 8 zero bits dropped; what the conversion
to the stored form counted; and whether the update was lost. Log: 184 (DEDUCED). -/
def storeWeight (cls fmt old : Nat) (w u : FVal) : Nat × Tally × Bool :=
  let sum := w.add u
  if cls = 0 then let c := conv 0 sum; (c.1, ⟨c.2.sat, 0⟩, false)
  else if cls = 1 then
    match sum with
    | .nan => (denseFmt.nan, ⟨0, 1⟩, false)
    | .inf s => (denseFmt.signed s denseFmt.maxf, ⟨1, 0⟩, false)
    | .num s m e =>
      let c := denseFmt.code m e
      if denseFmt.maxf < c then (denseFmt.signed s denseFmt.maxf, ⟨1, 0⟩, false) else (denseFmt.signed s c, Tally.none, false)
  else
    let c := conv fmt sum
    (c.1, c.2, !u.isZero && c.1 == old)

/-- What pass 2 made of one element: codes of the stored weight, m, v and the parameter sent; what it counted, loss, poison. -/
structure ElemOut where
  w : Nat
  m : Nat
  v : Nat
  p : Nat
  tally : Tally
  lost : Bool
  bad : Bool
  deriving DecidableEq, Repr

/-- One element of pass 2 (R437 to R439): element `i` of the group, with its accumulator's address. -/
def Dev.elemUpdate (d : Dev) (g : UGroup) (co : GroupCoef) (cf : FVal) (acc i : Nat) : ElemOut :=
  let wa := g.w + g.wBytes * i
  let old := d.rdLe wa g.wBytes
  let wr : FVal × Nat :=
    if g.cls = 0 then (elemRaw 0 old, 0)
    else if g.cls = 1 then (elemRaw 0 (old * 2 ^ 16 + d.rdLe (g.r + i) 1 * 2 ^ 8), 0)
    else let q := elem g.tableFmt old; (q.1, q.2.sat)
  let k := fun (n : Nat) => elemRaw 0 (d.coef g n)
  let lr0 := elemRaw 0 co.lr
  let lr := if g.cls = 2 then elemRaw 0 (conv 0 (lr0.scale g.kl)).1 else lr0
  let a := (FVal.ofInt (toSigned 64 (d.rdLe acc 8))).scale ((co.scale : Int) - 127 - co.f)
  let out := (elementStep g.rule (bitAt g.flags 1) cf k lr (elemRaw 0 co.wd) (elemRaw 0 co.gmul) a wr.1
    (elemRaw 0 (d.rdLe (g.m + 4 * i) 4)) (elemRaw 0 (d.rdLe (g.v + 4 * i) 4))).run wr.2
  let st := storeWeight g.cls g.tableFmt old wr.1 out.1.1
  let p := if g.cls = 0 then conv g.fmt (elemRaw 0 st.1) else if g.cls = 1 then (st.1 / 2 ^ 8, Tally.none) else (st.1, Tally.none)
  ⟨st.1, (conv 0 out.1.2.1).1, (conv 0 out.1.2.2).1, p.1, (Tally.plus ⟨out.2, 0⟩ st.2.1).plus p.2, st.2.2,
    d.poisoned acc 8 || d.poisoned wa g.wBytes || (g.cls == 1 && d.poisoned (g.r + i) 1) || d.poisoned (g.m + 4 * i) 4
      || (g.rule == 0 && d.poisoned (g.v + 4 * i) 4)⟩

/-- What pass 2 gathers over a chunk: the parameter bytes, the poison bits, the elements lost. -/
structure ChunkOut where
  data : List (BitVec 8)
  poison : Nat
  lost : Nat
  deriving DecidableEq, Repr

/-- One block of pass 2: its state is written, sectors written from poisoned state are poisoned, and its accumulators become
zero (R437 to R439). -/
def Dev.blockUpdate (d : Dev) (bank : Nat) (b : Bucket) (g : UGroup) (co : GroupCoef) (cf : FVal) (blk : Nat) : Dev × List ElemOut :=
  let i0 := 32 * (b.first + blk)
  let acc := b.accAt bank blk
  let es := (List.range 32).map fun k => d.elemUpdate g co cf (acc + 8 * k) (i0 + k)
  let put := fun (e : Dev) (base size : Nat) (f : ElemOut → Nat) =>
    let a := base + size * i0
    e.wrBytes a (es.flatMap fun x => toLe size (f x))
  let d1 := put d g.m 4 fun x => x.m
  let d2 := if g.rule = 0 then put d1 g.v 4 fun x => x.v else d1
  let d3 := if g.cls = 1 then (put d2 g.w 2 fun x => x.w / 2 ^ 8) else put d2 g.w g.wBytes fun x => x.w
  let d4 := if g.cls = 1 then put d3 g.r 1 fun x => x.w % 2 ^ 8 else d3
  let d5 := (es.zip (List.range 32)).foldl (fun e q =>
    if q.1.bad then
      let i := i0 + q.2
      let e1 := (e.markPoison (g.w + g.wBytes * i) 2).markPoison (g.m + 4 * i) 2
      let e2 := if g.rule = 0 then e1.markPoison (g.v + 4 * i) 2 else e1
      if g.cls = 1 then e2.markPoison (g.r + i) 2 else e2
    else e) d4
  (d5.wipe acc 256, es)

/-- One chunk of pass 2, with its message's data. -/
def Dev.chunkUpdate (d : Dev) (r bank : Nat) (b : Bucket) (g : UGroup) (co : GroupCoef) (cf : FVal) (c : Nat) : Dev × ChunkOut :=
  let w := fmtWidth g.fmt
  let p := (List.range (b.inChunk c)).foldl (fun (acc : Dev × ChunkOut) k =>
    let q := acc.1.blockUpdate bank b g co cf (64 * c + k)
    (q.1.tally r (q.2.foldl (fun t x => t.plus x.tally) Tally.none), ⟨acc.2.data ++ packCodes w (q.2.map fun x => x.p),
      acc.2.poison + (if q.2.any fun x => x.bad then 2 ^ k else 0), acc.2.lost + (q.2.filter fun x => x.lost).length⟩)) (d, ⟨[], 0, 0⟩)
  (p.1.wipe (b.mapAt (d.nSlots r) bank c) (mapBytes (d.nSlots r)), p.2)

/-- Record a failing code of an UPDATE: the lowest is reported (R21). Log: 110 (DEDUCED). -/
def UpdSt.fails (u : UpdSt) (code : Nat) : UpdSt := { u with code := if u.code = 0 then code else min u.code code }

/-- The receivers of a bucket (R442). -/
def Dev.receivers (d : Dev) (r : Nat) (b : Bucket) : List Nat :=
  (List.range b.nRecv).map fun j => d.rdLe (d.redBase r + d.rdLe (d.redBase r + 12) 4 + 2 * (b.recvFirst + j)) 2 % 32768

/-- Send one chunk to every receiver (R442). -/
def Dev.broadcast (d : Dev) (r k c : Nat) (b : Bucket) (g : UGroup) (o : ChunkOut) (u : UpdSt) : Dev × UpdSt :=
  let bs := accHeader 0 g.fmt (b.inChunk c) 0 0 0 k c u.step o.poison ++ o.data
  (d.receivers r b).foldl (fun (acc : Dev × UpdSt) dev =>
    let p := acc.1.updSend r dev mtParam bs [b.param]
    match p.2 with
    | some id => (p.1, { acc.2 with waits := acc.2.waits ++ [id] })
    | none => (p.1, acc.2.fails 0x0601)) (d, u)

/-- The last message of an UPDATE has been answered (Table 14-12, step 10). Log: 196 (DEDUCED). -/
def Dev.updFinish (d : Dev) (r : Nat) : Dev :=
  match d.upd r with
  | some u =>
    if u.stage = .params && u.waits.isEmpty then (d.set64 UPD_STEP_LO UPD_STEP_HI r u.step).updEnd r u.code else d
  | none => d

/-- One bucket of pass 2: its chunks, and the elements lost. -/
def Dev.bucketUpdate (d : Dev) (r k : Nat) (u : UpdSt) : Dev × UpdSt × Nat :=
  let b := d.bucket r k
  let g := d.ugroup r b.group
  let co := nth ⟨127, 8, 0, 0, 0⟩ u.coefs b.group
  let cf := if bitAt g.flags 0 then elemRaw 0 u.cf else .num false 1 0
  (List.range b.chunks).foldl (fun (acc : Dev × UpdSt × Nat) c =>
    let q := acc.1.chunkUpdate r (u.step % 2) b g co cf c
    let v := if q.2.poison = 0 then acc.2.1 else acc.2.1.fails 0x0715
    let s := q.1.broadcast r k c b g q.2 v
    (s.1, s.2, acc.2.2 + q.2.lost)) (d, u, 0)

/-- What pass 2 reads and writes (R438, R439; Table 14-12, step 9): the accumulators and bitmaps, which become zero, and the state. -/
def Dev.pass2Traffic (d : Dev) (r bank : Nat) : List (Bool × Nat × Nat) :=
  (d.buckets r).flatMap fun b =>
    let g := d.ugroup r b.group
    let both := fun (a n : Nat) => [(false, a, n), (true, a, n)]
    let state := fun (base size : Nat) => both (base + size * 32 * b.first) (size * 32 * b.blocks)
    both (b.accAt bank 0) (256 * b.blocks)
      ++ [(true, b.mapAt (d.nSlots r) bank 0, mapBytes (d.nSlots r) * b.chunks)]
      ++ state g.m 4 ++ (if g.rule = 0 then state g.v 4 else []) ++ state g.w g.wBytes ++ (if g.cls = 1 then state g.r 1 else [])

/-- Pass 2 ends, once its reads and writes have issued (R322; Table 14-12, step 9): every bucket's state is written, its bank is zero and
opens for the second step after, and its parameters are on their way. LOST of the CLASS_TABLE groups is written (R439).
Log: 165 (DEDUCED). -/
def Dev.pass2Done (d : Dev) (r : Nat) : Dev :=
  match d.upd r with
  | none => d
  | some u =>
    if u.stage ≠ .pass2 then d else
    let gate := d.gate (.pass r) r (d.pass2Traffic r (u.step % 2))
    if !gate.2 then gate.1 else
    let d := gate.1
    let p := (List.range (d.nBuckets r)).foldl (fun (acc : Dev × UpdSt × List (Nat × Nat)) k =>
      let q := acc.1.bucketUpdate r k acc.2.1
      let g := (d.bucket r k).group
      (q.1, q.2.1, tset (fun _ => 0) acc.2.2 g (tget (fun _ => 0) acc.2.2 g + q.2.2))) (d, u, [])
    let d1 := (List.range (d.nGroups r)).foldl (fun e g =>
      if (d.ugroup r g).cls = 2 then e.wrLe (d.updGroup r g + 0x58) 8 (tget (fun _ => 0) p.2.2 g) else e) p.1
    (((d1.openBank r (u.step + 2)).setUpd r (some { p.2.1 with stage := .params })).showEngines).updFinish r

/-- A message of a Room's UPDATE has been answered (R442). -/
def Dev.updAnswer (d : Dev) (r id code : Nat) : Dev :=
  match d.upd r with
  | none => d
  | some u =>
    if !u.waits.contains id then d else
    let v := if code = 0 then u else u.fails code
    (d.setUpd r (some { v with waits := u.waits.filter fun n => n != id })).updFinish r

/-! ## Parameters at a receiver -/

/-- A PARAM message of kind 0 arrives (R442) and is stored once its writes may issue (R322). `addr` is the PARAM_ADDR of the owner's bucket, which the header does not carry.
Log: 107 (DEDUCED). -/
def Dev.param (d : Dev) (src cls job id addr : Nat) (m : AccMsg) : Dev :=
  match d.jobRoom job with
  | none => d.reply src cls id 0x0602 0
  | some r =>
    let p := fmtWidth m.fmt / 8
    let a := addr + 2048 * m.chunk * p
    if !d.inWindows r a (32 * p * m.n) then (d.winEv (some r)).reply src cls id 0x0603 0
    else if d.get KL_RC_STAT.FENCED r = 1 then (d.forgive (.param src id)).reply src cls id 0x0610 0
    else
      let g := d.gate (.param src id) r [(true, a, 32 * p * m.n)]
      if !g.2 then g.1 else
      let d := g.1
      let d1 := (List.range m.n).foldl (fun e b =>
        e.store (a + 32 * p * b) ((m.body.drop (32 * p * b)).take (32 * p)) (bitAt m.poison b)) d
      let k := 2 * r + m.step % 2
      let d3 := d1.set64 UPD_PARAM_RX_LO UPD_PARAM_RX_HI k ((d1.get64 UPD_PARAM_RX_LO UPD_PARAM_RX_HI k + 32 * p * m.n) % 2 ^ 64)
      (d3.reply src cls id 0 0).paramPoll r

/-- A PARAM message of kind 1, a tally result, arrives (R434, R435). -/
def Dev.tallyResult (d : Dev) (src cls job id : Nat) (bs : List (BitVec 8)) : Dev :=
  match d.jobRoom job with
  | none => d.reply src cls id 0x0602 0
  | some r =>
    if d.get KL_RC_STAT.FENCED r = 1 then d.reply src cls id 0x0610 0 else
    let m := accMsg bs
    let t := parseTally m.body
    ((d.reply src cls id 0 0).tallyDown r m.step t).applyTally r m.step t

/-- A child's tally record arrives (R434). -/
def Dev.tallyRecord (d : Dev) (src cls job id : Nat) (bs : List (BitVec 8)) : Dev :=
  match d.jobRoom job with
  | none => d.reply src cls id 0x0602 0
  | some r =>
    if d.get KL_RC_STAT.FENCED r = 1 then d.reply src cls id 0x0610 0 else
    let m := accMsg bs
    let d1 := d.reply src cls id 0 0
    match (d.rcChildren r).find? fun p => d.get KL_PORT_STAT.NBR_DEV p == src with
    | some p => d1.tallyJoin r m.step (some p) (parseTally m.body)
    | none => d1

/-- A new Round begins (R434, R443): an UPDATE of an earlier step without its tally result ends with 0x0713. -/
def Dev.redBoundary (d : Dev) (r : Nat) : Dev :=
  match d.upd r with
  | none => d.paramPoll r
  | some u =>
    if u.step < d.rcStep r && (u.stage == .collect || u.stage == .pass1 || u.stage == .tally) then d.updEnd r 0x0713 else d.verdictPoll r

/-- An answer for a message that this device sent (R399). -/
def Dev.completion (d : Dev) (id code state : Nat) : Dev :=
  match d.remote? id with
  | none => d
  | some q =>
    match q.owner with
    | .reel i _ => d.reelCompletion q i code state
    | .update r => (if code = 0 then d.dropRemote id else d.remoteFail q code).updAnswer r id code

/-- No answer within 1,000 µs (R399). -/
def Dev.answerTimeout (d : Dev) (id : Nat) : Dev :=
  match d.remote? id with
  | some q =>
    match q.owner with
    | .reel _ _ => d.remoteTimeout id
    | .update r => if q.time.any fun t => decide (t + 1000000 ≤ d.now) then (d.remoteTimeout id).updAnswer r id 0x0605 else d
  | none => d

/-- The function `fn` reaches Room `r`'s own registers (R446). -/
def roomReach (fn r : Nat) : Bool := decide (r < 16) && mayAct fn r

/-! ## Commands -/

def execCompletion (id code state : Nat) (s : State) := s.onDev fun d => d.completion id code state

def execRemoteTimeout (id : Nat) (s : State) := s.onDev fun d => d.answerTimeout id

def execRcEnable (fn r : Nat) (en : Bool) (s : State) := s.onHost fn KL_RC_CTL fun d => if fn = 0 ∧ r < 16 then d.rcEnable r en else d

def execRollCall (p job step : Nat) (rec : RcRecord) (s : State) := s.onUnit 12 p fun d =>
  match d.jobRoom job with
  | some r => (d.rollCall p job step rec).verdictPoll r
  | none => d

def execRollCallDeadline (r : Nat) (s : State) := s.onDev fun d => if r < 16 then (d.rcExpire r).verdictPoll r else d

def execRollVerdict (p job step : Nat) (v : Verdict) (s : State) := s.onUnit 12 p fun d =>
  match d.jobRoom job with
  | some r => (d.rollVerdict p job step v).verdictPoll r
  | none => d

def execContribution (src cls job id : Nat) (data : List (BitVec 8)) (waited : Bool) (wrong : List (Nat × Option Nat)) (s : State) :=
  s.onDev fun d =>
    let e := if (accMsg data).kind = 0 then d.accArrive src cls job id (accMsg data) waited wrong else d
    match d.jobRoom job with
    | some r => e.updPoll r
    | none => e

def execProbe (src cls job id : Nat) (data : List (BitVec 8)) (s : State) := s.onDev fun d =>
  if (accMsg data).kind = 1 then d.accArrive src cls job id (accMsg data) false [] else d

def execRedEnable (fn r : Nat) (en : Bool) (s : State) := s.onHost fn RED_CTL fun d => if roomReach fn r then d.redEnable r en else d

def execCmdUpdate (id : Nat) (s : State) := s.onDev fun d =>
  match d.starts id 0x50 with
  | some c => d.updStart c
  | none => d

def execReductionDeadline (r : Nat) (s : State) := s.onDev fun d => if r < 16 then d.updPoll r else d

def execUpdatePass1Done (r : Nat) (s : State) := s.onDev fun d => if r < 16 then d.pass1Done r else d

def execTallyRecord (src cls job id : Nat) (data : List (BitVec 8)) (s : State) := s.onDev fun d => d.tallyRecord src cls job id data

def execTallyDeadline (r : Nat) (s : State) := s.onDev fun d => if r < 16 then d.tallyExpire r else d

def execTallyResult (src cls job id : Nat) (data : List (BitVec 8)) (s : State) := s.onDev fun d => d.tallyResult src cls job id data

def execUpdatePass2Done (r : Nat) (s : State) := s.onDev fun d => if r < 16 then d.pass2Done r else d

def execParam (src cls job id addr : Nat) (data : List (BitVec 8)) (s : State) := s.onDev fun d => d.param src cls job id addr (accMsg data)

def execParamWait (id : Nat) (s : State) := s.onDev fun d =>
  match d.starts id 0x51 with
  | some c => (d.begin c .timeWait (d.now + 1000 * c.arg 3)).paramPoll c.room
  | none => d

def execParamWaitTimeout (id : Nat) (s : State) := s.onDev fun d =>
  match d.cmd? id with
  | some c => if c.opcode == 0x51 && c.phase == .timeWait && decide (c.deadline ≤ d.now) then d.finish c 0x0714 else d
  | none => d

end Sys2Proof.Machine
end

