-- ==== Sys2Proof/Machine/Timetable.lean ====
section
/-! DEFINITION. The Timetable's Rounds and the Bell: boundaries, capture windows, missed windows and free-run (Rooms, queues,
the Timetable and pre-emption, R137 to R143; R108, R111). -/

namespace Sys2Proof.Machine

/-- The device is awake: the Timetable is not stopped by Recess (R560, R563). Log: 66 (DEDUCED). -/
def Dev.awake (d : Dev) : Bool := d.get PWR_RECESS.STATE 0 == 0

/-- Start of the Round in progress. -/
def Dev.roundStart (d : Dev) : Nat := d.get64 TT_ROUND_START_LO TT_ROUND_START_HI 0

/-- N, the nominal next boundary (R141). -/
def Dev.nominal (d : Dev) : Nat := d.roundStart + d.rd TT_ROUND 0

/-- The next boundary as the device plans it. -/
def Dev.nextPlace (d : Dev) : Nat := d.bell.late.getD d.nominal

/-- The instant that a Bell or a missed window has given the next boundary (R141, R143). Log: 65 (DEDUCED). -/
def BellSt.due (b : BellSt) : Option Nat := b.place <|> b.late

/-- BELL_SRC names no source (R140). -/
def Dev.noBell (d : Dev) : Bool := d.get TT_CTL.BELL_SRC 0 == 0 || d.get TT_CTL.BELL_SRC 0 == 3

/-- A Bell is captured (R141, R143): CAPTURED is set, and free-run and the run of missed windows end. -/
def Dev.capture (d : Dev) (b : BellSt) : Dev :=
  (((({ d with bell := b }).raise TT_BELL_STAT.CAPTURED 0).set TT_BELL_STAT.FREE_RUN 0 0).set TT_BELL_STAT.MISS_RUN 0 0)

/-- A Bell at an instant (R141, R143). Before the first boundary the first Bell places it (R108, R563). Log: 64 (DEDUCED). -/
def Dev.bellAt (d : Dev) (t : Nat) : Dev :=
  let b := d.bell
  let n := d.nominal
  let out := d.count TT_BELL_OUT 0 1
  if !d.awake then d
  else if d.rd TT_ROUND 0 = 0 || b.due.isSome then out
  else if !b.started then d.capture { b with place := some t }
  else if d.get TT_BELL_STAT.FREE_RUN 0 = 1 then
    if b.trail && t ≤ d.roundStart + b.win then d.capture { b with late := some (t + d.rd TT_ROUND 0), trail := false }
    else if n ≤ t + b.win && t ≤ n then d.capture { b with place := some t }
    else out
  else if n ≤ t + b.win && t ≤ n + b.win then d.capture { b with place := some t }
  else out

/-- The instant of the boundary that is due now (R137, R141, R143), none while none is. Log: 64 (DEDUCED). -/
def Dev.roundDue (d : Dev) : Option Nat :=
  let b := d.bell
  if !d.awake || d.rd TT_ROUND 0 = 0 then none
  else match b.due with
  | some t => if t ≤ d.now then some t else none
  | none =>
    if !b.started then (if d.noBell then some d.now else none)
    else if (d.noBell || d.get TT_BELL_STAT.FREE_RUN 0 == 1) && d.nominal ≤ d.now then some d.nominal
    else none

/-- A boundary at `t` cuts a Lesson of a kind other than slack short, or skips it (R142). -/
def Dev.truncates (d : Dev) (t : Nat) : Bool :=
  (List.range 16).any fun r => (d.room r).entered && (d.room r).lessons.any fun l =>
    l.kind != 3 && decide (t < d.roundStart + l.start + l.len)

/-- A Room at a Round boundary: the Lesson in progress ends, and the Lessons of a LOADED or HELD Room that wait enter the
Timetable, each entry a new epoch (R108, R139). -/
def Dev.roomBoundary (d : Dev) (r : Nat) : Dev :=
  let x := d.room r
  let live := d.roomState r == stLoaded || d.roomState r == stHeld
  let d1 := if x.cur.isSome then d.lessonEnd r else d
  let enters := live && !x.entered
  let y := d1.room r
  let d2 := d1.setRoom r { y with
    cur := none
    before := if y.switch.isSome then some (y.before.getD x.cur) else y.before
    lateDone := false
    due := y.due || (live && x.cur.isSome)
    entered := y.entered || enters
    monRound := 0 }
  if enters then d2.wr TT_EPOCH 0 (d2.rd TT_EPOCH 0 + 1) else d2

/-- A new Round starts at an instant (R137 to R142): Lessons end, the counters advance, entries leave and enter, the window
is taken anew, BELL_OUT pulses, and Roll call and reduction begin the step. Log: 67 (DESIGN CHOICE). -/
def Dev.newRound (d : Dev) (t : Nat) : Dev :=
  let b := d.bell
  let n := d.nominal
  let shift : Int := if b.started then (t : Int) - n else 0
  let d1 := if b.started && decide (t < n) && d.truncates t then d.raise TT_BELL_STAT.TRUNC 0 else d
  let d2 := if b.trail then d1.count TT_BELL_MISS 0 1 else d1
  let d3 := (List.range 16).foldl Dev.roomBoundary d2
  let d4 := (d3.set TT_FREE.FREE 0 (d3.get TT_FREE.FREE 0 + (b.leaving.map fun x => x.1).sum)).wr TT_EPOCH 0
    (d3.rd TT_EPOCH 0 + (b.leaving.filter fun x => x.2).length)
  let d5 := ((d4.count64 TT_ROUND_CNT_LO TT_ROUND_CNT_HI 0 1).set64 TT_ROUND_START_LO TT_ROUND_START_HI 0 t).wr TT_SHIFT 0 (ofSigned 32 shift)
  let free := !d.noBell && d.get TT_BELL_STAT.FREE_RUN 0 == 1 && b.due.isNone
  let d6 := { d5 with bell := { b with
    win := min (d.rd TT_BELL_WIN 0) (d.rd TT_ROUND 0 / 8)
    started := true
    place := none
    late := none
    trail := free
    leaving := [] } }
  let d7 := if d.get TT_CTL.BELL_OUT_EN 0 = 1 then d6.send (.pin "BELL_OUT" 1) else d6
  (List.range 16).foldl (fun e r => (e.rcBoundary r).redBoundary r) d7

/-- A Round boundary falls if one is due (R137). Log: 64 (DEDUCED). -/
def Dev.roundBoundary (d : Dev) : Dev :=
  match d.roundDue with
  | some t => d.newRound t
  | none => d

/-- A window has passed without a Bell (R141, R143). Log: 65 (DEDUCED). -/
def Dev.windowEnd (d : Dev) : Dev :=
  let b := d.bell
  let n := d.nominal
  if !d.awake || d.noBell || !b.started then d
  else if d.get TT_BELL_STAT.FREE_RUN 0 = 1 then
    if b.trail && d.roundStart + b.win ≤ d.now then ({ d with bell := { b with trail := false } }).count TT_BELL_MISS 0 1 else d
  else if b.due.isSome || d.now < n + b.win then d
  else
    let run := d.get TT_BELL_STAT.MISS_RUN 0 + 1
    let d1 := (({ d with bell := { b with place := some (n + b.win) } }).count TT_BELL_MISS 0 1).set TT_BELL_STAT.MISS_RUN 0 (min run 3)
    if 3 ≤ run then (d1.set TT_BELL_STAT.FREE_RUN 0 1).raise TT_BELL_STAT.FREE_RUN_EV 0 else d1

/-! ## Commands -/

def execRoundBoundary (s : State) := s.onDev fun d => d.roundBoundary

/-- An edge on BELL_IN, with the width of its high pulse in ns (R140, R609). -/
def execBellInEdge (width : Nat) (s : State) := s.onDev fun d =>
  if d.get TT_CTL.BELL_SRC 0 = 1 ∧ 20 ≤ width then d.bellAt d.now else d

def execBellWindowEnd (s : State) := s.onDev fun d => d.windowEnd

end Sys2Proof.Machine
end

