-- ==== Sys2Proof/Machine/Time.lean ====
section
/-! DEFINITION. Time: the tick of SCLK, PPS and two-way transfer, offsets, slewing and steps; and timed Bells (Kaluf Link
and multi-device agreement, R400 to R406). -/

namespace Sys2Proof.Machine

/-- Units of the fraction of TIME_NOW per ns: 2.5 × 10^-9 ns each. -/
def nsUnits : Nat := 400000000

/-! ## Bells -/

/-- Timed Bells whose instant has come are taken by the Timetable (R140). -/
def Dev.dueBells (d : Dev) : Dev :=
  let due := d.kl.bells.filter fun t => decide (t ≤ d.now)
  let d1 := { d with kl := { d.kl with bells := d.kl.bells.filter fun t => decide (d.now < t) } }
  due.foldl (fun e t => if e.get TT_CTL.BELL_SRC 0 = 2 then e.bellAt t else e) d1

/-- A Bell is handed to the Timetable (R405, R406). -/
def Dev.handBell (d : Dev) (t : Nat) : Dev :=
  if d.get TT_CTL.BELL_SRC 0 = 2 then ({ d with kl := { d.kl with bells := d.kl.bells ++ [t] } }).dueBells else d

/-- The Bell master sends a BELL flit LEAD_US before its next boundary, once for each (R405). DESIGN CHOICE (log 68): before
its Timetable's first boundary the boundary it names lies one lead time ahead. Log: 68 (DESIGN CHOICE). -/
def Dev.bellSend (d : Dev) : Dev :=
  let lead := 1000 * d.get KL_BELL_CTL.LEAD_US 0
  let n := if d.bell.started then d.nextPlace else match d.kl.bellSent with
    | some t => if d.now ≤ t then t else d.now + lead
    | none => d.now + lead
  if d.get KL_BELL_CTL.MASTER 0 = 0 || d.rd TT_ROUND 0 = 0 || !d.awake || d.kl.bellSent == some n || d.now + lead < n then d
  else
    let seq := (d.kl.bellTx + 1) % 65536
    let d1 := { d with kl := { d.kl with bellTx := seq, bellSent := some n } }
    let ports := (List.range 12).filter fun p => bitAt (d.get KL_BELL_CTL.FWD_MASK 0) p
    (ports.foldl (fun e p => e.sendCtl p 2 [seq, n] []) d1).handBell n

/-- A BELL flit arrives (R406). Log: 195 (DESIGN CHOICE). -/
def Dev.bellFlit (d : Dev) (p seq t : Nat) : Dev :=
  let ahead := match d.kl.bellRx with
    | none => true
    | some s => let k := (seq + 65536 - s) % 65536; decide (1 ≤ k) && decide (k ≤ 32767)
  if !ahead then d
  else
    let d1 := { d with kl := { d.kl with bellRx := some (seq % 65536) } }
    if t < d.now then d1.count KL_BELL_LATE 0 1
    else
      let ports := (List.range 12).filter fun q => q != p && bitAt (d.get KL_BELL_CTL.FWD_MASK 0) q
      (ports.foldl (fun e q => e.sendCtl q 2 [seq, t] []) d1).handBell t

/-! ## The tick -/

/-- Write TIME_NOW. -/
def Dev.setNow (d : Dev) (ns : Nat) : Dev := d.set64 TIME_NOW_LO TIME_NOW_HI 0 (ns % 2 ^ 64)

/-- Replace the time machinery. -/
def Dev.setTime (d : Dev) (x : TimeSt) : Dev := { d with kl := { d.kl with time := x } }

/-- TIME_CTL.SRC names a reference (R401). Log: 101 (DESIGN CHOICE). -/
def Dev.disciplined (d : Dev) : Bool := d.get TIME_CTL.SRC 0 == 1 || d.get TIME_CTL.SRC 0 == 2

/-- The units slewed in one tick: a free amount of at most 100 ppm towards the offset (R403). Log: 101 (DESIGN CHOICE). -/
def Dev.slewStep (d : Dev) : Int :=
  let x := d.kl.time.slew
  let k : Int := (min (d.freeWord % 100001) x.natAbs : Nat)
  if 0 ≤ x then k else -k

/-- One SCLK cycle (R400, R403): 2.5 ns with the rate correction, and what is slewed. Log: 1 (DESIGN CHOICE). -/
def Dev.tick (d : Dev) : Dev :=
  let x := d.kl.time
  let s := if d.disciplined then d.slewStep else 0
  let u := (1000000000 + (if d.disciplined then x.rate else 0) + s).toNat
  let f := x.frac + u
  ((((d.setTime { x with frac := f % nsUnits, slew := x.slew - s }).drew).setNow (d.now + f / nsUnits)).dueBells)

/-- What an empty queue does: one SCLK cycle, while the device is not held in reset (R400, R568). Log: 1 (DESIGN CHOICE). -/
def Dev.clock (d : Dev) : Dev := if d.boot.stage = .held then d else d.tick

/-! ## Offsets -/

/-- The offset as TIME_OFFSET reports it: two's complement, saturating. -/
def offsetReg (ns : Int) : Nat := ofSigned 32 (max (-2147483648) (min 2147483647 ns))

/-- A measurement of the offset in ns and a fraction in the units of the tick (R401 to R403): the register, whose rounding of
the fraction is not stated, LOCKED and SKEW, a
rate correction within ±500 ppm that the manual leaves open, and the step or the slew that removes the offset.
Log: 101 (DESIGN CHOICE). Log: 195 (DESIGN CHOICE). -/
def Dev.measure (d : Dev) (ns : Int) (frac : Int) : Dev :=
  let x := d.kl.time
  let units : Int := ns * nsUnits + frac
  let size := units.natAbs
  let good := if size ≤ 50 * nsUnits then min (x.good + 1) 10 else 0
  let rate : Int := (d.freeWord % 1000001 : Nat) - 500000
  let was := d.get TIME_STAT.LOCKED 0 == 1
  let shown := if frac = 0 then ns else ns + (d.freeWord / 2 ^ 20 % 2 : Nat)
  let d1 := (d.wr TIME_OFFSET 0 (offsetReg shown)).drew
  let d2 := if !was then d1
    else if 1000 * nsUnits < size then
      let e := d1.set TIME_STAT.SKEW 0 1
      if d1.get TIME_STAT.SKEW 0 = 1 then e else e.raise TIME_STAT.SKEW_EV 0
    else if size < 1000 * nsUnits then d1.set TIME_STAT.SKEW 0 0
    else d1
  let live := (List.range 16).any fun r => d.roomState r == stLoaded || d.roomState r == stHeld
  let d3 := if !was && !live && 0 < units then
      let f := x.frac + units.toNat
      ((d2.setTime { x with frac := f % nsUnits, slew := 0, rate := rate, good := good }).setNow (d.now + f / nsUnits)).dueBells
    else d2.setTime { x with slew := units, rate := rate, good := good }
  if 10 ≤ good then d3.set TIME_STAT.LOCKED 0 1 else d3

/-- An edge on PPS_IN, with the width of its high pulse in ns (R401, R610). Log: 195 (DESIGN CHOICE). -/
def Dev.ppsEdge (d : Dev) (width : Nat) : Dev :=
  let x := d.kl.time
  if d.get TIME_CTL.SRC 0 ≠ 1 || width < 100 then d else
  let target := x.target.getD (d.get64 TIME_TOD_NEXT_LO TIME_TOD_NEXT_HI 0 * 1000000000)
  let now : Int := d.now
  let off : Int := (target : Int) - now
  let far := x.target.isSome && decide (100000 < (off - x.slew / nsUnits).natAbs)
  if far then d.raise TIME_STAT.PPS_MISS_EV 0
  else ((d.setTime { x with target := some (target + 1000000000), missed := 0 }).set TIME_STAT.HOLDOVER 0 0).measure off 0

/-- A PPS edge has not come (R401). After 3 the device holds its last rate correction. -/
def Dev.ppsMiss (d : Dev) : Dev :=
  let x := d.kl.time
  match x.target with
  | none => d
  | some t =>
    if d.get TIME_CTL.SRC 0 ≠ 1 || d.now < t + 100000 then d else
    let d1 := (d.setTime { x with target := some (t + 1000000000), missed := x.missed + 1 }).raise TIME_STAT.PPS_MISS_EV 0
    if 3 ≤ x.missed + 1 then d1.set TIME_STAT.HOLDOVER 0 1 else d1

/-- The millisecond exchange with the parent begins (R402). An exchange that is not answered by the next, or that a
retraining prevents, is lost. -/
def Dev.timeExchange (d : Dev) : Dev :=
  if d.get TIME_CTL.SRC 0 ≠ 2 then d else
  let p := d.get TIME_CTL.PARENT 0
  let x := d.kl.time
  let may := decide (p < 12) && d.mayFly p
  let lost := x.lost + bit x.asked + bit (!may)
  let d1 := d.setTime { x with asked := may, lost := lost }
  let d2 := if 100 ≤ lost then d1.set TIME_STAT.HOLDOVER 0 1 else d1
  if may then d2.sendCtl p 3 [0, 4 * d.now] [] else d2

/-- A TIME flit arrives (R402), its timestamps in quarters of a ns on each end's TIME_NOW. `reply` is none for a child's
request, which is answered with the instants of its arrival and of the answer, and else gives t1 to t4 of an exchange. -/
def Dev.timeFlit (d : Dev) (p : Nat) (t1 t2 t3 t4 : Nat) (reply : Bool) : Dev :=
  if !reply then d.sendCtl p 3 [1, t1, t2, t3] []
  else if d.get TIME_CTL.SRC 0 ≠ 2 || d.get TIME_CTL.PARENT 0 ≠ p || !d.kl.time.asked then d
  else
    let off8 : Int := ((t2 : Int) - t1) - ((t4 : Int) - t3)
    ((d.setTime { d.kl.time with asked := false, lost := 0 }).set TIME_STAT.HOLDOVER 0 0).measure (off8 / 8) (off8 % 8 * (nsUnits / 8))

/-! ## Commands -/

def execPpsEdge (width : Nat) (s : State) := s.onDev fun d => d.ppsEdge width

def execPpsMiss (s : State) := s.onDev fun d => d.ppsMiss

def execTimeExchange (s : State) := s.onDev fun d => d.timeExchange

def execTimeFlit (p t1 t2 t3 t4 : Nat) (reply : Bool) (s : State) := s.onDev fun d =>
  if p < 12 then d.timeFlit p t1 t2 t3 t4 reply else d

def execBellSend (s : State) := s.onDev fun d => d.bellSend

def execBellFlit (p seq instant : Nat) (s : State) := s.onDev fun d => if p < 12 then d.bellFlit p seq instant else d

end Sys2Proof.Machine
end

