-- ==== Sys2Proof/Machine/Media.lean ====
section
/-! DEFINITION. The media decoders and the tokenizer: decode commands, header checks, damage, budgets, stragglers and drops,
log-mel features, byte-level BPE and tokenizer slots (Media decoders and the tokenizer, R447 to R471). What the external
standards define comes from `Config.decode`. -/

namespace Sys2Proof.Machine

/-! ## Commands and entries -/

/-- A decode command's ARGS (Table 15-3). -/
def Cmd.list (c : Cmd) : Nat := c.arg64 0
def Cmd.nEntries (c : Cmd) : Nat := bitsOf (c.arg 2) 0 16
def Cmd.nSlots (c : Cmd) : Nat := bitsOf (c.arg 2) 16 16
def Cmd.result (c : Cmd) : Nat := c.arg64 3
def Cmd.conceal (c : Cmd) : Bool := bitAt (c.arg 6) 0
def Cmd.noDefer (c : Cmd) : Bool := bitAt (c.arg 6) 1

/-- The ranges of memory that a decode command names in its ARGS. -/
def Cmd.decRanges (c : Cmd) : List (Nat × Nat) := [(c.list, 64 * c.nEntries), (c.result, 32 * c.nEntries + 4 * c.nSlots)]

/-- The fields of a decode command's ARGS are in order (R451). -/
def Cmd.decFieldsOk (c : Cmd) : Bool :=
  decide (c.list < 2 ^ 52) && c.list % 64 == 0 && decide (c.result < 2 ^ 52) && c.result % 32 == 0
    && decide (1 ≤ c.nEntries) && decide (1 ≤ c.nSlots) && decide (c.nSlots ≤ c.nEntries)
    && decide (c.arg 6 < 4) && zeroFrom (c.words.drop 8) 7

/-- The ARGS of a decode command are in order (R451). -/
def Dev.decArgsOk (d : Dev) (c : Cmd) : Bool :=
  c.decFieldsOk && c.decRanges.all fun p => d.inWindows c.room p.1 p.2

/-- A field of a sample entry (R452). -/
def Dev.ent (d : Dev) (c : Cmd) (k off n : Nat) : Nat := d.rdLe (c.list + 64 * k + off) n

/-- An FP32 field of a sample entry. -/
def Dev.entF (d : Dev) (c : Cmd) (k off : Nat) : FVal := elemRaw 0 (d.ent c k off 4)

/-- A sample entry is in order as far as it stands in the list (R452, Table 15-4). -/
def Dev.entryOk (d : Dev) (c : Cmd) (kind k : Nat) : Bool :=
  let f := d.ent c k
  decide (1 ≤ f 8 4) &&
  match kind with
  | 0 => decide (f 24 1 ≤ 1) && decide (f 25 1 ≤ 2) && f 26 2 == 0 && f 28 4 % 64 == 0 && f 32 32 == 0
  | 1 =>
    decide (f 24 1 ≤ 2) && f 25 1 == 0 && decide (1 ≤ f 26 2) && decide (f 26 2 ≤ 64) && f 28 4 % 128 == 0
      && decide (1 ≤ f 36 4) && decide (f 36 4 ≤ 65535) && f 40 24 == 0
  | 2 =>
    let lo := d.entF c k 40
    let hi := d.entF c k 44
    let half : FVal := .num false (f 28 4) (-1)
    decide (f 24 1 ≤ 2) && decide (f 25 1 ≤ 2) && decide (f 26 1 ≤ 1) && decide (f 27 1 ≤ 7) && decide (8 ≤ f 32 1) && decide (f 32 1 ≤ 12)
      && f 33 1 == 0 && decide (1 ≤ f 34 2) && decide (f 34 2 ≤ 256) && decide (1 ≤ f 36 2) && decide (f 36 2 ≤ 2 ^ f 32 1) && f 38 2 == 0
      && lo != .nan && !lo.lt (.num false 0 0) && lo.lt hi && !half.lt hi && (FVal.num false 0 0).lt (d.entF c k 48) && f 56 8 == 0
  | _ => decide (f 24 1 ≤ 3) && decide (f 25 1 < 8) && f 26 2 == 0 && f 36 28 == 0

/-! ## Signatures and containers (R35, R455) -/

/-- Byte `k` of a source. -/
def srcByte (bs : List (BitVec 8)) (k : Nat) : Nat := (nth (0 : BitVec 8) bs k).toNat

/-- A source has given bytes at a place. -/
def hasAt (bs : List (BitVec 8)) (k : Nat) (l : List Nat) : Bool := ((bs.drop k).take l.length).map (fun b => b.toNat) == l

/-- An Annex B byte stream begins with a start code: at least two bytes of 0, then 1. -/
def annexB : List (BitVec 8) → Nat → Bool
  | [], _ => false
  | b :: t, n => if b.toNat = 0 then annexB t (n + 1) else b.toNat == 1 && decide (2 ≤ n)

/-- The source begins with the signature or start code of its codec (Table 15-6, check 3), as the standards of Table 15-2 give it. A
video in a container has none (R35). Log: 168 (PRESUMED). -/
def signed (kind codec : Nat) (bs : List (BitVec 8)) : Bool :=
  match kind, codec with
  | 0, 0 => hasAt bs 0 [0xFF, 0xD8, 0xFF]
  | 0, _ => hasAt bs 0 [0x89, 0x50, 0x4E, 0x47, 0x0D, 0x0A, 0x1A, 0x0A]
  | 1, 0 => annexB bs 0
  | 1, 1 => annexB bs 0
  | 1, _ => let b := srcByte bs 0; !bs.isEmpty && decide (b < 128) && bitAt b 1 && (b / 8 == 1 || b / 8 == 2)
  | 2, 0 => hasAt bs 0 [0x52, 0x49, 0x46, 0x46] && hasAt bs 8 [0x57, 0x41, 0x56, 0x45]
  | 2, 1 => hasAt bs 0 [0x66, 0x4C, 0x61, 0x43]
  | 2, _ => hasAt bs 0 [0x4F, 0x67, 0x67, 0x53] && srcByte bs 4 == 0
  | _, _ => true

/-- A chunk of a RIFF file by its identifier: place and length of its contents. `o` is where a chunk begins. -/
def riffChunk (bs : List (BitVec 8)) (id : List Nat) : Nat → Nat → Option (Nat × Nat)
  | 0, _ => none
  | fuel + 1, o =>
    if bs.length < o + 8 then none else
    let n := ofLe ((bs.drop (o + 4)).take 4)
    if hasAt bs o id then some (o + 8, n) else riffChunk bs id fuel (o + 8 + n + n % 2)

/-- What the header of a RIFF WAVE file says: the format (1 PCM, 3 IEEE float), channels, rate, bits; and its samples' place. -/
structure Wave where
  format : Nat
  channels : Nat
  rate : Nat
  bits : Nat
  place : Nat
  len : Nat
  deriving DecidableEq, Repr

/-- Parse a RIFF WAVE file (R35, Table 15-2): its format chunk, whose WAVE_FORMAT_EXTENSIBLE form names the format in its subformat,
and its data chunk. Log: 168 (PRESUMED). -/
def parseWave (bs : List (BitVec 8)) : Option Wave :=
  match riffChunk bs [0x66, 0x6D, 0x74, 0x20] bs.length 12, riffChunk bs [0x64, 0x61, 0x74, 0x61] bs.length 12 with
  | some (f, n), some (p, len) =>
    let le := fun (k w : Nat) => ofLe ((bs.drop (f + k)).take w)
    if n < 16 then none
    else some ⟨if le 0 2 = 0xFFFE then le 24 2 else le 0 2, le 2 2, le 4 4, le 14 2, p, len⟩
  | _, _ => none

/-- A RIFF WAVE file lies in the accepted subset (Table 15-2). -/
def Wave.ok (w : Wave) : Bool :=
  ((w.format == 1 && [8, 16, 24, 32].contains w.bits) || (w.format == 3 && w.bits == 32))
    && decide (1 ≤ w.channels) && decide (w.channels ≤ 8) && decide (w.rate ≤ 192000)

/-- Sample `k` of channel `c`: PCM of 8 bits is stored with an offset of 128, a float as its code. -/
def Wave.sample (w : Wave) (bs : List (BitVec 8)) (c k : Nat) : Int :=
  let n := w.bits / 8
  let v := ofLe ((bs.drop (w.place + (k * w.channels + c) * n)).take n)
  if w.format = 3 then (v : Int) else if w.bits = 8 then (v : Int) - 128 else toSigned w.bits v

/-- What the device makes of a RIFF WAVE source; past its end the concealment is open (R457). -/
def ofWave (o : Decoded) (bs : List (BitVec 8)) : Decoded :=
  match parseWave bs with
  | none => { o with supported := false }
  | some w =>
    let size := w.channels * (w.bits / 8)
    let missing := decide (bs.length < w.place + w.len)
    { o with
      supported := w.ok
      headBytes := w.place
      rate := w.rate
      bits := if w.format = 3 then 0 else w.bits
      channels := (List.range w.channels).map fun c => (List.range (w.len / max 1 size)).map fun k =>
        if w.place + (k + 1) * size ≤ bs.length then w.sample bs c k else nth 0 (nth [] o.channels c) k
      damage := if missing then some (bs.length - 1, (o.damage.map fun p => p.2).getD 0) else none
      short := missing }

/-- An Ogg source carries Opus with channel mapping family 0 or 1 (Table 15-2): its first packet, behind the first page's header and
segment table. Log: 168 (PRESUMED). -/
def oggOpus (bs : List (BitVec 8)) : Bool :=
  let p := 27 + srcByte bs 26
  hasAt bs p [0x4F, 0x70, 0x75, 0x73, 0x48, 0x65, 0x61, 0x64] && decide (srcByte bs (p + 18) ≤ 1)

/-- What the standard of an entry's codec makes of its source: the signature and the containers that the device parses, and for the
rest `Config.decode`. Log: 111 (DESIGN CHOICE). Log: 160 (DEDUCED). -/
def Dev.decoded (d : Dev) (c : Cmd) (kind k : Nat) : Decoded :=
  let bs := d.rdBytes (d.ent c k 0 8) (d.ent c k 8 4)
  let codec := d.ent c k 24 1
  let o := Config.decode kind (d.rdBytes (c.list + 64 * k + 24) 40 ++ [BitVec.ofNat 8 (bit c.conceal)]) bs
  let o1 := { o with known := o.known && signed kind codec bs }
  if kind = 2 && codec = 0 then { ofWave o1 bs with known := signed kind codec bs }
  else if kind = 2 && codec = 2 then { o1 with supported := o1.supported && oggOpus bs }
  else o1

/-! ## Audio (R458, R459) -/

/-- A sample as FP32 (R458): its code. -/
def pcmCode (bits : Nat) (v : Int) : Nat :=
  if bits = 0 then v.toNat % 2 ^ 32 else (conv 0 ((FVal.ofInt v).scale (1 - (bits : Int)))).1

/-- An FP32 result, rounded once, with the saturations met so far (R174, R177). -/
def f32Sat (v : FVal) (n : Nat) : FVal × Nat := let p := conv 0 v; (elemRaw 0 p.1, n + p.2.sat)

/-- FP32 operations on codes' values, one rounding each. -/
def f32 (v : FVal) : FVal := elemRaw 0 (conv 0 v).1
def f32Add (a b : FVal) : FVal := f32 (a.add b)
def f32Sub (a b : FVal) : FVal := f32 (a.add b.neg)
def f32Mul (a b : FVal) : FVal := f32 (a.mul b)
def f32Fma (a b c : FVal) : FVal := f32 (a.fma b c)
def f32Div (a b : FVal) : FVal := f32 (a.div b)
def f32One : FVal := .num false 1 0
def f32Zero : FVal := .num false 0 0

/-- The mixed samples of an audio entry (R458, Table 15-4) with the saturations met: one channel, or the mean of all, from the
start. -/
def mixed (o : Decoded) (mix ch most : Nat) : List (FVal × Nat) :=
  let chans := o.channels.map fun l => (if most = 0 then l else l.take most).map fun v => elemRaw 0 (pcmCode o.bits v)
  if mix = 0 then (nth [] chans ch).map fun v => (v, 0)
  else
    let inv := f32Div f32One (.num false chans.length 0)
    match chans with
    | [] => []
    | a :: t => (t.foldl (fun s l => (s.zip l).map fun p => f32Sat (p.1.1.add p.2) p.1.2) (a.map fun v => (v, 0))).map fun p =>
      f32Sat (p.1.mul inv) p.2

/-- cos(2πk / win) and sin(2πk / win), correctly rounded to FP32. -/
def cosTab (win k : Nat) : FVal :=
  if (4 * k) % (2 * win) = win then f32Zero else f32 (ofFixed (fxCos (2 * fxPi * (k : Int) / (win : Int))))
def sinTab (win k : Nat) : FVal :=
  if (2 * k) % win = 0 then f32Zero else f32 (ofFixed (fxSin (2 * fxPi * (k : Int) / (win : Int))))

/-- The Hann window, rounded once. Log: 116 (DEDUCED). -/
def hann (win n : Nat) : FVal :=
  if n = 0 then f32Zero else f32 (ofFixed ((fxOne - fxCos (2 * fxPi * (n : Int) / (win : Int))) / 2))

/-- Reverse the `n` low bits of `k`. -/
def revBits : Nat → Nat → Nat
  | 0, _ => 0
  | n + 1, k => k % 2 * 2 ^ n + revBits n (k / 2)

/-- A butterfly of the transform (R459): the two values, as (re, im), that it leaves at `a` and `b`, and its saturations. -/
def butterfly (win k : Nat) (a b : FVal × FVal) : (FVal × FVal) × (FVal × FVal) × Nat :=
  let cw := cosTab win k
  let sw := sinTab win k
  let m1 := f32Sat (sw.mul b.2) 0
  let tr := f32Sat (cw.fma b.1 m1.1) m1.2
  let m2 := f32Sat (sw.mul b.1) tr.2
  let ti := f32Sat (cw.fma b.2 m2.1.neg) m2.2
  let br := f32Sat (a.1.add tr.1.neg) ti.2
  let bi := f32Sat (a.2.add ti.1.neg) br.2
  let ar := f32Sat (a.1.add tr.1) bi.2
  let ai := f32Sat (a.2.add ti.1) ar.2
  ((ar.1, ai.1), (br.1, bi.1), ai.2)

/-- One radix-2 level of the transform (R459): pairs (re, im), and the saturations so far. -/
def fftLevel (win len : Nat) (x : List (FVal × FVal) × Nat) : List (FVal × FVal) × Nat :=
  let z := (f32Zero, f32Zero)
  let h := len / 2
  let fs := (List.range (win / 2)).map fun n =>
    let j := n % h
    let i := n / h * len + j
    butterfly win (j * (win / len)) (nth z x.1 i) (nth z x.1 (i + h))
  ((List.range win).map fun i =>
    let f := nth (z, z, 0) fs (i / len * h + i % len % h)
    if i % len < h then f.1 else f.2.1, x.2 + (fs.map fun f => f.2.2).sum)

/-- The transform of one windowed frame, with its saturations. -/
def fft (log2 : Nat) (s : List FVal) : List (FVal × FVal) × Nat :=
  (List.range log2).foldl (fun x l => fftLevel (2 ^ log2) (2 ^ (l + 1)) x)
    ((List.range (2 ^ log2)).map fun n => (nth f32Zero s (revBits log2 n), f32Zero), 0)

/-- Parameters of a log-mel entry. -/
structure Mel where
  log2 : Nat
  hop : Nat
  n : Nat
  lo : Nat
  hi : Nat
  rate : Nat
  floor : FVal
  deriving DecidableEq, Repr

/-- One frame of features (R459), as FP32 codes, with its saturations (R177). -/
def melFrame (p : Mel) (x : List FVal) (t : Nat) : List Nat × Nat :=
  let win := 2 ^ p.log2
  let s := (((x.drop (t * p.hop)).take win).zip (List.range win)).map fun q => f32Mul q.1 (hann win q.2)
  let ft := fft p.log2 s
  let pw := (ft.1.take (win / 2 + 1)).map fun q => let m := f32Sat (q.2.mul q.2) 0; f32Sat (q.1.fma q.1 m.1) m.2
  let ys := (List.range p.n).map fun m =>
    let acc := (pw.zip (List.range (win / 2 + 1))).foldl (fun a q =>
      f32Sat ((elemRaw 0 (Config.melWeight p.n (BitVec.ofNat 32 p.lo) (BitVec.ofNat 32 p.hi) p.rate win m q.2).toNat).fma q.1.1 a.1) a.2)
      (f32Zero, 0)
    ((transc 0x35 (conv 0 (acc.1.max p.floor)).1).1, acc.2)
  (ys.map fun y => y.1, ft.2 + (pw.map fun q => q.2).sum + (ys.map fun y => y.2).sum)

/-- Frames of `n` samples. -/
def Mel.frames (p : Mel) (n : Nat) : Nat := if n < 2 ^ p.log2 then 0 else (n - 2 ^ p.log2) / p.hop + 1

/-- The log-mel parameters of an entry. -/
def Dev.mel (d : Dev) (c : Cmd) (k : Nat) : Mel :=
  ⟨d.ent c k 32 1, d.ent c k 36 2, d.ent c k 34 2, d.ent c k 40 4, d.ent c k 44 4, d.ent c k 28 4, d.entF c k 48⟩

/-! ## The tokenizer (R460, R461) -/

/-- The first code point of a byte list, or none for an ill-formed maximal subpart, with the bytes it takes (RFC 3629). -/
def utf8Step (bs : List (BitVec 8)) : Option Nat × Nat :=
  let b := fun (k : Nat) => (nth (0 : BitVec 8) bs k).toNat
  let cont := fun (k lo hi : Nat) => decide (k < bs.length) && decide (lo ≤ b k) && decide (b k ≤ hi)
  let b0 := b 0
  if b0 < 0x80 then (some b0, 1)
  else if b0 < 0xC2 then (none, 1)
  else if b0 < 0xE0 then
    if cont 1 0x80 0xBF then (some (b0 % 32 * 64 + b 1 % 64), 2) else (none, 1)
  else if b0 < 0xF0 then
    if !cont 1 (if b0 = 0xE0 then 0xA0 else 0x80) (if b0 = 0xED then 0x9F else 0xBF) then (none, 1)
    else if !cont 2 0x80 0xBF then (none, 2)
    else (some (b0 % 16 * 4096 + b 1 % 64 * 64 + b 2 % 64), 3)
  else if b0 < 0xF5 then
    if !cont 1 (if b0 = 0xF0 then 0x90 else 0x80) (if b0 = 0xF4 then 0x8F else 0xBF) then (none, 1)
    else if !cont 2 0x80 0xBF then (none, 2)
    else if !cont 3 0x80 0xBF then (none, 3)
    else (some (b0 % 8 * 262144 + b 1 % 64 * 4096 + b 2 % 64 * 64 + b 3 % 64), 4)
  else (none, 1)

/-- A code point with its bytes; an ill-formed subpart is U+FFFD. -/
structure CodePoint where
  cp : Nat
  bytes : List (BitVec 8)
  pos : Nat
  bad : Bool
  deriving DecidableEq, Repr

/-- The code points of a source. -/
def utf8 : Nat → Nat → List (BitVec 8) → List CodePoint
  | 0, _, _ => []
  | fuel + 1, pos, bs =>
    if bs.isEmpty then [] else
    let q := utf8Step bs
    (match q.1 with
      | some c => ⟨c, bs.take q.2, pos, false⟩
      | none => ⟨0xFFFD, [0xEF, 0xBF, 0xBD], pos, true⟩) :: utf8 fuel (pos + q.2) (bs.drop q.2)

/-- The first ill-formed place: its byte offset and the code points before it (Table 15-7). -/
def utf8Damage (cs : List CodePoint) : Option (Nat × Nat) := (findIdx? (fun c => c.bad) cs 0).map fun p => (p.2.pos, p.1)

/-- Class of a code point under a table (R460, Table 15-8). -/
def Dev.cpClass (d : Dev) (t cp : Nat) : Nat :=
  if 0xFFFF < cp then d.rdLe (t + 12) 1 % 16 else bitsOf (d.rdLe (t + 0x40 + cp / 2) 1) (4 * (cp % 2)) 4

/-- Whether a piece ends between two code points. -/
def Dev.cpSplit (d : Dev) (t p q : Nat) : Bool := bitAt (d.rdLe (t + 0x8040 + 2 * d.cpClass t p) 2) (d.cpClass t q)

/-- The pieces of a list of code points, as bytes (R460). `acc` holds the piece in progress, newest code point first. -/
def Dev.pieces (d : Dev) (t : Nat) : List CodePoint → List (BitVec 8) → Option Nat → List (List (BitVec 8))
  | [], acc, _ => if acc.isEmpty then [] else [acc]
  | c :: rest, acc, last =>
    let cut := match last with
      | some p => d.cpSplit t p c.cp || decide (4096 < acc.length + c.bytes.length)
      | none => false
    if cut then acc :: d.pieces t rest c.bytes (some c.cp) else d.pieces t rest (acc ++ c.bytes) (some c.cp)

/-- A merge of a table: LEFT, RIGHT, RESULT, RANK. -/
structure Merge where
  left : Nat
  right : Nat
  result : Nat
  rank : Nat
  deriving DecidableEq, Repr

/-- The merge list of a table. -/
def Dev.merges (d : Dev) (t : Nat) : List Merge :=
  (List.range (d.rdLe (t + 8) 4)).map fun k =>
    let a := t + 0x8460 + 16 * k
    ⟨d.rdLe a 4, d.rdLe (a + 4) 4, d.rdLe (a + 8) 4, d.rdLe (a + 12) 4⟩

/-- The listed pairs of a token list, by place. -/
def listed (ms : List Merge) : Nat → List Nat → List (Nat × Merge)
  | _, [] => []
  | _, [_] => []
  | k, a :: b :: t =>
    match ms.find? fun m => m.left == a && m.right == b with
    | some m => (k, m) :: listed ms (k + 1) (b :: t)
    | none => listed ms (k + 1) (b :: t)

/-- Merge the pair of lowest rank, the leftmost of equals, until none is listed (R461). -/
def bpe (ms : List Merge) : Nat → List Nat → List Nat
  | 0, ts => ts
  | fuel + 1, ts =>
    match listed ms 0 ts with
    | [] => ts
    | p :: ps =>
      let best := ps.foldl (fun a b => if b.2.rank < a.2.rank then b else a) p
      bpe ms fuel (ts.take best.1 ++ best.2.result :: ts.drop (best.1 + 2))

/-- The tokens of a source (R460, R461). -/
def Dev.tokens (d : Dev) (t : Nat) (cs : List CodePoint) : List Nat :=
  let ms := d.merges t
  (d.pieces t cs [] none).flatMap fun p => bpe ms p.length (p.map fun b => d.rdLe (t + 0x8060 + 4 * b.toNat) 4)

/-! ## Jobs -/

/-- The running decode command with a number. -/
def Dev.job? (d : Dev) (id : Nat) : Option DecJob := d.med.jobs.find? fun j => j.cmd == id
def Dev.setJob (d : Dev) (j : DecJob) : Dev :=
  { d with med := { d.med with jobs := d.med.jobs.map fun x => if x.cmd == j.cmd then j else x } }

/-- Kinds of engine: JPEG, PNG, video, audio, tokenizer (Table 15-1). -/
def engineKind (e : Nat) : Nat := if e < 32 then 0 else if e < 40 then 1 else if e < 56 then 2 else if e < 72 then 3 else 4

/-- The kind of engine that an entry needs. -/
def Dev.entryEngine (d : Dev) (c : Cmd) (kind k : Nat) : Nat :=
  if kind = 0 then (if d.ent c k 24 1 = 1 then 1 else 0) else kind + 1

/-- Show what an engine holds (Table 15-13). -/
def Dev.showEngine (d : Dev) (e : Nat) : Dev :=
  match d.med.samples.find? fun s => s.engine == some e with
  | some s =>
    ((d.set MED_ENG_STAT.BUSY e 1).set MED_ENG_STAT.STRAGGLER e (bit s.deferred)).set MED_ENG_STAT.ROOM e (((d.cmd? s.cmd).map fun c => c.room).getD 0)
  | none => d.wr MED_ENG_STAT e 0

/-- Replace the list of samples, and show an engine. -/
def Dev.setSamples (d : Dev) (ss : List Sample) (e : Option Nat) : Dev :=
  let d1 := { d with med := { d.med with samples := ss } }
  match e with
  | some n => d1.showEngine n
  | none => d1

/-- The entry of a text sample waits for its slot (R463). -/
def Dev.slotWaits (d : Dev) (c : Cmd) (kind k : Nat) : Bool :=
  let s := 4 * c.room + d.ent c k 24 1
  kind == 3 && decide (d.ent c k 24 1 < 4) && (d.get MED_TOK_SLOT.CLOSE s == 1 || d.get MED_TOK_SLOT.LOADING s == 1)

/-- A decode command has an entry for an engine of a kind to start (R466, R468). Log: 116 (DEDUCED). -/
def Dev.jobReady (d : Dev) (kind : Nat) (j : DecJob) : Option Cmd :=
  match d.cmd? j.cmd with
  | some c =>
    if j.next < c.nEntries && d.entryEngine c j.kind j.next = kind && !d.slotWaits c j.kind j.next then some c else none
  | none => none

/-- Among commands, those of the most urgent level (R134: a raise counts for R136 and R144 alone, R154), and of these the next in
turn (R468): its number and level. Log: 116 (DEDUCED). -/
def Dev.nextJob (d : Dev) (kind : Nat) (cs : List Cmd) : Nat → Nat → Option (Nat × Nat)
  | 0, _ => none
  | fuel + 1, lvl =>
    match nextInTurn (tget (fun _ => 0) d.med.rr (4 * kind + lvl)) ((cs.filter fun c => c.level == lvl).map fun c => c.id) with
    | some id => some (id, lvl)
    | none => d.nextJob kind cs fuel (lvl + 1)

/-! ## Ends -/

/-- Entries that count as usable and stand in the map, in list order (R466). -/
def DecJob.usable (j : DecJob) (n : Nat) : List EntryEnd :=
  ((List.range n).filterMap fun k => j.ended.find? fun e => e.entry == k && e.usable)

/-- Write a result entry (Table 15-5). Log: 115 (DESIGN CHOICE). -/
def Dev.putResult (d : Dev) (c : Cmd) (k status flags work pos unit a b bytes : Nat) : Dev :=
  d.wrBytes (c.result + 32 * k) (toLe 2 status ++ toLe 2 flags ++ toLe 4 (min work (2 ^ 32 - 1)) ++ toLe 8 pos ++ toLe 4 unit ++ toLe 4 a
    ++ toLe 4 b ++ toLe 4 bytes)

/-- The charge of a result entry whose writing waits for nothing. Log: 165 (DEDUCED). -/
def Dev.chargeResult (d : Dev) (c : Cmd) (k : Nat) : Dev :=
  d.charge (some c.room) (c.result + 32 * k) (chargeOf true (c.result + 32 * k) 32)

/-- Partial or failed output leaves the destination undefined (R456, R466): free bytes within DST_BYTES.
Log: 115 (DESIGN CHOICE). -/
def Dev.scrambleOut (d : Dev) (a n : Nat) : Dev := (d.wrBytes a ((List.range n).map (Config.freeByte d.free))).drew

/-- A command's work has nothing left to pay. -/
def Dev.settleDues (d : Dev) (id : Nat) : Dev :=
  { d with memx := { d.memx with dues := d.memx.dues.filter fun x =>
      match x.payer with
      | .sample c _ => c != id
      | .entry c _ => c != id
      | .frame c => c != id
      | _ => true } }

/-- The slot map is written and the command completes (R454, R466, R467), with 0x0411 where a DEAD channel discards a part of the
result area (R333, R345). Log: 114 (DEDUCED). -/
def Dev.jobComplete (d : Dev) (j : DecJob) (c : Cmd) : Dev :=
  let us := (j.usable c.nEntries).take c.nSlots
  let map := (us.map fun e => e.entry) ++ List.replicate (c.nSlots - us.length) 0xFFFFFFFF
  let d1 := us.foldl (fun e u =>
    let a := c.result + 32 * u.entry + 2
    e.wrLe a 2 (e.rdLe a 2 ||| 1)) d
  let at' := c.result + 32 * c.nEntries
  let d2 := (d1.wrBytes at' (map.flatMap fun k => toLe 4 k)).charge (some c.room) at' (chargeOf true at' (4 * c.nSlots))
  let total := (us.map fun e => e.work).foldl (· + ·) 0
  let d3 := if us.isEmpty then d2 else d2.wr MED_AVG (4 * c.room + j.kind) (total / us.length)
  let d4 := { d3 with med := { d3.med with jobs := d3.med.jobs.filter fun x => x.cmd != j.cmd } }
  (d4.settleDues c.id).complete c (if d.deadRange c.result (32 * c.nEntries + 4 * c.nSlots) then 0x0411
    else if us.length = c.nSlots then 0 else 0x0802) us.length

/-- A sample leaves its engine or the straggler queue; a text sample gives up its slot (R463). -/
def Dev.dropSample (d : Dev) (s : Sample) : Dev :=
  let d1 := d.setSamples (d.med.samples.filter fun x => x != s) s.engine
  match d.cmd? s.cmd with
  | some c => match d.job? s.cmd with
    | some j =>
      if j.kind = 3 then
        let k := 4 * c.room + d.ent c s.entry 24 1
        d1.set MED_TOK_SLOT.REFS k (d1.get MED_TOK_SLOT.REFS k - 1)
      else d1
    | none => d1
  | none => d1

/-- FLAGS of a sample that has been deferred. -/
def Sample.flags (s : Sample) : Nat := if s.deferred then 2 else 0

/-- Once every entry up to the last one that the map needs has ended, the others are surplus (R466): the end of the list. -/
def DecJob.surplusFrom (j : DecJob) (c : Cmd) : Option Nat :=
  match (j.usable c.nEntries)[c.nSlots - 1]? with
  | some e => if (List.range e.entry).all fun k => j.ended.any fun x => x.entry == k then some (e.entry + 1) else none
  | none => none

/-- A surplus entry ends with 0x081E (R466). -/
def Dev.surplus (d : Dev) (c : Cmd) (j : DecJob) (k : Nat) : Dev :=
  if j.ended.any fun x => x.entry == k then d else
  match d.med.samples.find? fun s => s.cmd == j.cmd && s.entry == k with
  | some s =>
    let d1 := (d.dropSample s).scrambleOut (d.ent c k 16 8) (d.ent c k 12 4)
    ((d1.putResult c k 0x081E s.flags d1.freeWord 0xFFFFFFFFFFFFFFFF d1.freeWord d1.freeWord d1.freeWord d1.freeWord).chargeResult c k).drew
  | none => ((d.putResult c k 0x081E 0 0 0xFFFFFFFFFFFFFFFF d.freeWord d.freeWord d.freeWord 0).chargeResult c k).drew

/-- The command ends when its map is full or its list exhausted, and every deferred sample has ended (R466).
Log: 112 (DEDUCED); 114 (DEDUCED). -/
def Dev.jobCheck (d : Dev) (id : Nat) : Dev :=
  match d.job? id, d.cmd? id with
  | some j, some c =>
    match j.surplusFrom c with
    | some m => (((List.range (c.nEntries - m)).foldl (fun e k => e.surplus c j (m + k)) d)).jobComplete j c
    | none => if j.ended.length = c.nEntries then d.jobComplete j c else d
  | _, _ => d

/-- An entry has ended. -/
def Dev.entryEnds (d : Dev) (id : Nat) (e : EntryEnd) : Dev :=
  match d.job? id with
  | some j => (d.setJob { j with ended := j.ended ++ [e] }).jobCheck id
  | none => d

/-- A sample ends with a nonzero code once its output has begun. -/
def Dev.sampleFails (d : Dev) (c : Cmd) (s : Sample) (code work pos unit : Nat) : Dev :=
  let d1 := ((d.dropSample s).scrambleOut (d.ent c s.entry 16 8) (d.ent c s.entry 12 4)).chargeResult c s.entry
  let d2 := (d1.putResult c s.entry code s.flags work pos unit d1.freeWord d1.freeWord d1.freeWord).drew
  d2.entryEnds c.id ⟨s.entry, false, work⟩

/-! ## Start and header checks -/

/-- The output size O of an entry (R453). -/
def Dev.outSize (d : Dev) (c : Cmd) (kind k : Nat) (o : Decoded) : Nat :=
  let pitch := d.ent c k 28 4
  match kind with
  | 0 =>
    if d.ent c k 25 1 = 1 && d.ent c k 24 1 = 0 then (o.planeRows.map fun n => n * pitch).foldl (· + ·) 0 else o.height * pitch
  | 1 => d.ent c k 36 4 * pitch * (o.height + ceilDiv o.height 2)
  | 2 =>
    let n := (mixed o (d.ent c k 26 1) (d.ent c k 27 1) (d.ent c k 52 4)).length
    let p := d.mel c k
    match d.ent c k 25 1 with
    | 0 => 4 * n
    | 1 => p.frames n * p.n * 4
    | _ => p.frames n * p.n * 2
  | _ => 0

/-- ROW_PITCH holds a row (R452, R453). -/
def Dev.pitchOk (d : Dev) (c : Cmd) (kind k : Nat) (o : Decoded) : Bool :=
  let pitch := d.ent c k 28 4
  if kind = 0 then
    decide ((match d.ent c k 25 1 with | 0 => 3 * o.width | 1 => o.rowBytes | _ => 4 * o.width) ≤ pitch)
  else if kind = 1 then decide (o.rowBytes ≤ pitch)
  else true

/-- The checks of Table 15-6 in order; an entry that reads poisoned counts as its header bytes do (R328). Log: 112 (DEDUCED);
113 (DEDUCED); 193 (DEDUCED). -/
def Dev.sampleHeaderCode (d : Dev) (c : Cmd) (kind k : Nat) (o : Decoded) : Nat :=
  let src := d.ent c k 0 8
  let n := d.ent c k 8 4
  let media := kind == 0 || kind == 1
  firstCode [
    need (d.inWindows c.room src n && d.inWindows c.room (d.ent c k 16 8) (d.ent c k 12 4)) 0x0401,
    need (!d.poisoned (c.list + 64 * k) 64 && (kind == 3 || !d.poisoned src (min n o.headBytes))) 0x0818,
    need (kind == 3 || o.known) 0x0811,
    need (kind == 3 || o.supported) 0x0812,
    need (!media || (decide (1 ≤ o.width) && decide (o.width ≤ 16384) && decide (1 ≤ o.height) && decide (o.height ≤ 16384))) 0x0813,
    need (kind != 0 || decide (o.width * o.height ≤ 2048 * n)) 0x0814,
    need (kind == 3 || decide (d.outSize c kind k o ≤ d.ent c k 12 4)) 0x0815,
    need (kind != 2 || (if d.ent c k 24 1 = 2 then d.ent c k 28 4 == 48000 else o.rate == d.ent c k 28 4)) 0x0816,
    need (kind != 3 || d.get MED_TOK_SLOT.VALID (4 * c.room + d.ent c k 24 1) == 1) 0x0817]

/-- The code with which an entry ends at its start, 0 where it goes on: the entry, Table 15-6, and then what its parameters
demand of the stream (R452, R458, R459). Log: 112 (DEDUCED). -/
def Dev.startCode (d : Dev) (c : Cmd) (kind k : Nat) (o : Decoded) : Nat :=
  if !d.entryOk c kind k then 0x0810 else
  let h := d.sampleHeaderCode c kind k o
  if h ≠ 0 then h
  else if !d.pitchOk c kind k o then 0x0810
  else if kind = 2 && d.ent c k 26 1 = 0 && o.channels.length ≤ d.ent c k 27 1 then 0x0810
  else if kind = 2 && d.ent c k 25 1 ≠ 0 && (d.mel c k).frames (mixed o (d.ent c k 26 1) (d.ent c k 27 1) (d.ent c k 52 4)).length = 0 then 0x081B
  else 0

/-- An entry that ends at its start, with nothing written to its destination. -/
def Dev.rejectEntry (d : Dev) (c : Cmd) (k code work : Nat) : Dev :=
  let inTable := code == 0x0401 || code == 0x0818 || (decide (0x0811 ≤ code) && decide (code ≤ 0x0817))
  let d0 := if code = 0x0401 then d.raise MEM_ROOM_STAT.WIN_EV c.room else d
  let d1 := if inTable then (d0.count MED_REJECT_CNT c.room 1).raise MED_STAT.REJECT_EV c.room else d0
  ((d1.putResult c k code 0 work 0xFFFFFFFFFFFFFFFF d1.freeWord d1.freeWord d1.freeWord 0).drew).entryEnds c.id ⟨k, false, work⟩

/-- What an engine reads to take an entry, and writes where the entry ends there (R451): the entry, its source's headers, its
result. -/
def Dev.startTraffic (d : Dev) (c : Cmd) (kind k code : Nat) (o : Decoded) : List (Bool × Nat × Nat) :=
  let src := d.ent c k 0 8
  let n := d.ent c k 8 4
  (false, c.list + 64 * k, 64)
    :: (if kind = 3 || !d.inWindows c.room src n then [] else [(false, src, min n o.headBytes)])
    ++ (if code = 0 then [] else [(true, c.result + 32 * k, 32)])

/-- A free engine takes a sample and runs its header checks (R455, R468): the next entry in turn, or with none waiting the
first straggler of its kind (R465). -/
def Dev.sampleStart (d : Dev) (e : Nat) : Dev :=
  let kind := engineKind e
  if 76 ≤ e || (d.med.samples.any fun s => s.engine == some e) || d.get FLT_ENG_STAT.RETIRED (12 + e) = 1 then d else
  match d.nextJob kind (d.med.jobs.filterMap (d.jobReady kind)) 4 0 with
  | some (id, lvl) =>
    match d.job? id, d.cmd? id with
    | some j, some c =>
      let k := j.next
      let o := d.decoded c j.kind k
      let code := d.startCode c j.kind k o
      let g := d.gate (.sample id k) c.room (d.startTraffic c j.kind k code o)
      if !g.2 then g.1 else
      let d0 := { g.1 with med := { g.1.med with rr := tset (fun _ => 0) g.1.med.rr (4 * kind + lvl) id } }
      let d1 := d0.setJob { j with next := k + 1 }
      if code ≠ 0 then d1.rejectEntry c k code (if code = 0x0810 then 0 else o.headWork)
      else
        let d2 := d1.setSamples (d1.med.samples ++ [⟨id, k, some e, false, none⟩]) (some e)
        if j.kind = 3 then
          let s := 4 * c.room + d.ent c k 24 1
          d2.set MED_TOK_SLOT.REFS s (d2.get MED_TOK_SLOT.REFS s + 1)
        else d2
    | _, _ => d
  | none =>
    match d.med.samples.find? fun s => s.engine.isNone && (match d.job? s.cmd, d.cmd? s.cmd with
        | some j, some c => d.entryEngine c j.kind s.entry == kind
        | _, _ => false) with
    | some s => d.setSamples (d.med.samples.map fun x => if x == s then { s with engine := some e } else x) (some e)
    | none => d

/-! ## Tables of merges -/

/-- Bytes of a tokenizer table (Table 15-8). -/
def Dev.tokBytes (d : Dev) (t : Nat) : Nat := 0x8460 + 16 * d.rdLe (t + 8) 4

/-! ## Running samples -/

/-- A sample that an engine holds, with its command, its job and what the standard makes of it. -/
structure Held where
  s : Sample
  c : Cmd
  j : DecJob
  o : Decoded
  deriving DecidableEq, Repr

/-- The sample that an engine holds. -/
def Dev.held? (d : Dev) (e : Nat) : Option Held :=
  match d.med.samples.find? fun s => s.engine == some e with
  | none => none
  | some s =>
    match d.cmd? s.cmd, d.job? s.cmd with
    | some c, some j => some ⟨s, c, j, d.decoded c j.kind s.entry⟩
    | _, _ => none

/-- The source bytes and code points of a text sample. -/
def Dev.codePoints (d : Dev) (h : Held) : List CodePoint :=
  let bs := d.rdBytes (d.ent h.c h.s.entry 0 8) (d.ent h.c h.s.entry 8 4)
  utf8 bs.length 0 bs

/-- The first damage of a sample: offset, unit, and the code with which it ends an unconcealed sample (R456, R457). -/
def Dev.damageOf (d : Dev) (h : Held) : Option (Nat × Nat × Nat) :=
  if h.j.kind = 3 then (utf8Damage (d.codePoints h)).map fun p => (p.1, p.2, 0x081A)
  else h.o.damage.map fun p => (p.1, p.2, if h.o.short then 0x0819 else 0x081A)

/-- The source reads poisoned (R457), or the tokenizer table of a text sample does (R328). Log: 193 (DEDUCED). -/
def Dev.srcPoisoned (d : Dev) (h : Held) : Bool :=
  let t := tget (fun _ => 0) d.med.tokAddr (4 * h.c.room + d.ent h.c h.s.entry 24 1)
  d.poisoned (d.ent h.c h.s.entry 0 8) (d.ent h.c h.s.entry 8 4) || (h.j.kind == 3 && d.poisoned t (d.tokBytes t))

/-- Damage found while decoding, or a poisoned source (R456, R457): the state after it, and whether the sample has ended. -/
def Dev.damaged (d : Dev) (h : Held) : Dev × Bool :=
  if d.srcPoisoned h then (d.sampleFails h.c h.s 0x0818 h.o.work 0xFFFFFFFFFFFFFFFF d.freeWord, true)
  else match d.damageOf h with
  | none => (d, false)
  | some (pos, unit, code) =>
    if h.s.concealed.isSome then (d, false)
    else if h.c.conceal then
      let s := { h.s with concealed := some (pos, unit) }
      (((d.count MED_CONCEAL_CNT h.c.room 1).raise MED_STAT.CONCEAL_EV h.c.room).setSamples
        (d.med.samples.map fun x => if x == h.s then s else x) none, false)
    else (d.sampleFails h.c h.s code h.o.work pos unit, true)

/-- A sample is to be deferred, or dropped, before it can end (R465, R469). -/
def Held.defers (h : Held) : Bool := h.j.base != 0 && !h.c.noDefer && !h.s.deferred && decide (8 * h.j.base < h.o.work)
def Held.drops (h : Held) : Bool := h.j.base != 0 && !h.defers && decide (64 * h.j.base < h.o.work)

/-- The output of a sample: its bytes, OUT_A, OUT_B (none where Table 15-5 gives no meaning), TRUNCATED, a code, and the saturations
and NaNs met (R177). -/
structure Output where
  bytes : List (BitVec 8)
  a : Option Nat
  b : Option Nat
  cut : Bool
  code : Nat
  tally : Tally := Tally.none
  deriving DecidableEq, Repr

/-- What a sample writes (R453, R458 to R461). Log: 111 (DESIGN CHOICE); 117 (DEDUCED). -/
def Dev.outputOf (d : Dev) (h : Held) : Output :=
  let k := h.s.entry
  let f := d.ent h.c k
  match h.j.kind with
  | 0 =>
    let n := d.outSize h.c 0 k h.o
    ⟨(h.o.image ++ List.replicate n 0).take n, some h.o.width, some h.o.height, false, 0, .none⟩
  | 1 =>
    let n := d.outSize h.c 1 k h.o
    ⟨(h.o.image ++ List.replicate n 0).take n, some (f 36 4), some h.o.height, false, 0, .none⟩
  | 2 =>
    let x := mixed h.o (f 26 1) (f 27 1) (f 52 4)
    let sat := (x.map fun v => v.2).sum
    if f 25 1 = 0 then ⟨x.flatMap fun v => toLe 4 (conv 0 v.1).1, none, none, false, 0, ⟨sat, 0⟩⟩
    else
      let p := d.mel h.c k
      let fs := (List.range (p.frames x.length)).map (melFrame p (x.map fun v => v.1))
      let ys := fs.flatMap fun y => y.1
      let sat := sat + (fs.map fun y => y.2).sum
      if f 25 1 = 1 then ⟨ys.flatMap (toLe 4), some (p.frames x.length), some p.n, false, 0, ⟨sat, 0⟩⟩
      else
        let cs := ys.map fun y => conv 2 (elemRaw 0 y)
        ⟨cs.flatMap fun c => toLe 2 c.1, some (p.frames x.length), some p.n, false, 0, (cs.map fun c => c.2).foldl Tally.plus ⟨sat, 0⟩⟩
  | _ =>
    let t := tget (fun _ => 0) d.med.tokAddr (4 * h.c.room + f 24 1)
    let ts := (if bitAt (f 25 1) 0 then [f 28 4] else []) ++ d.tokens t (d.codePoints h) ++ (if bitAt (f 25 1) 1 then [f 32 4] else [])
    let most := f 12 4 / 4
    if ts.length ≤ most then ⟨ts.flatMap (toLe 4), some ts.length, some 0, false, 0, .none⟩
    else if bitAt (f 25 1) 2 then ⟨(ts.take most).flatMap (toLe 4), some most, some 0, true, 0, .none⟩
    else ⟨[], none, none, false, 0x081C, .none⟩

/-- What remains to be read of a sample's source, and what its end writes. -/
def Dev.endTraffic (d : Dev) (h : Held) (n : Nat) : List (Bool × Nat × Nat) :=
  let src := d.ent h.c h.s.entry 0 8
  let all := d.ent h.c h.s.entry 8 4
  let read := if h.j.kind = 3 then 0 else min all h.o.headBytes
  [(false, src + read, all - read), (true, d.ent h.c h.s.entry 16 8, n), (true, h.c.result + 32 * h.s.entry, 32)]

/-- A sample's output and result are written (R454, R466): a DEAD channel that discards a part of the output ends it with 0x0411
(R333, R345). -/
def Dev.sampleWrites (d1 : Dev) (h : Held) (out : Output) : Dev :=
  let dst := d1.ent h.c h.s.entry 16 8
  if out.code ≠ 0 then d1.sampleFails h.c h.s out.code h.o.work 0xFFFFFFFFFFFFFFFF d1.freeWord
  else if d1.deadRange dst out.bytes.length then d1.sampleFails h.c h.s 0x0411 h.o.work 0xFFFFFFFFFFFFFFFF d1.freeWord
  else
    let flags := (if h.s.deferred then 6 else 0) + (if h.s.concealed.isSome then 8 else 0)
      + (if h.o.grain && h.j.kind == 1 then 16 else 0) + (if out.cut then 32 else 0)
    let d2 := ((d1.dropSample h.s).wrBytes dst out.bytes).tally h.c.room out.tally
    let pos := (h.s.concealed.map fun p => p.1).getD 0xFFFFFFFFFFFFFFFF
    let unit := (h.s.concealed.map fun p => p.2).getD d2.freeWord
    let d3 := (d2.putResult h.c h.s.entry 0 flags h.o.work pos unit (out.a.getD d2.freeWord) (out.b.getD d2.freeWord) out.bytes.length).drew
    d3.entryEnds h.c.id ⟨h.s.entry, !h.s.deferred, h.o.work⟩

/-- A sample ends (R454, R456, R466), once its reads and writes have issued: its output and result are written, and the map and
the command may complete. -/
def Dev.sampleEnd (d : Dev) (e : Nat) : Dev :=
  match d.held? e with
  | none => d
  | some h0 =>
    if h0.defers || h0.drops then d else
    let q := d.damaged h0
    if q.2 then q.1 else
    match q.1.held? e with
    | none => q.1
    | some h =>
      let out := q.1.outputOf h
      let g := q.1.gate (.sample h.c.id h.s.entry) h.c.room (q.1.endTraffic h out.bytes.length)
      if g.2 then g.1.sampleWrites h out else g.1

/-- Damage comes to light (R456, R457). -/
def Dev.sampleDamage (d : Dev) (e : Nat) : Dev :=
  match d.held? e with
  | some h => (d.damaged h).1
  | none => d

/-- A sample reaches 8 × B work cycles (R465): it leaves its engine for the end of the straggler queue. -/
def Dev.sampleDefer (d : Dev) (e : Nat) : Dev :=
  match d.held? e with
  | some h =>
    if h.defers then
      let s := { h.s with engine := none, deferred := true }
      ((d.setSamples ((d.med.samples.filter fun x => x != h.s) ++ [s]) (some e)).count MED_DEFER_CNT h.c.room 1).raise MED_STAT.DEFER_EV h.c.room
    else d
  | none => d

/-- A sample reaches 64 × B work cycles (R465). -/
def Dev.sampleDrop (d : Dev) (e : Nat) : Dev :=
  match d.held? e with
  | some h =>
    if h.drops then
      ((d.count MED_DROP_CNT h.c.room 1).raise MED_STAT.DROP_EV h.c.room).sampleFails h.c h.s 0x081D (64 * h.j.base)
        ((h.s.concealed.map fun p => p.1).getD 0xFFFFFFFFFFFFFFFF) ((h.s.concealed.map fun p => p.2).getD d.freeWord)
    else d
  | none => d

/-- A decode command starts (R450, R451, R465). -/
def Dev.decStart (d : Dev) (c : Cmd) (kind : Nat) : Dev :=
  if !d.decArgsOk c then (if c.decFieldsOk then d.winCheck c.room c.decRanges else d).finish c 0x0801 else
  let avg := d.get MED_AVG.CYCLES (4 * c.room + kind)
  let d1 := d.begin c .started 0
  { d1 with med := { d1.med with jobs := d1.med.jobs ++ [⟨c.id, kind, if avg = 0 then c.arg 5 else avg, 0, []⟩] } }

/-! ## Tokenizer slots (R462, R463) -/

/-- A tokenizer table's merges rise strictly by (LEFT, RIGHT), with distinct ranks below their number and IDs below VOCAB. -/
def mergesOk (vocab : Nat) (ms : List Merge) : Bool :=
  let key := fun (m : Merge) => m.left * 2 ^ 32 + m.right
  ((ms.zip (ms.drop 1)).all fun p => decide (key p.1 < key p.2))
    && ms.all (fun m => decide (m.left < vocab) && decide (m.right < vocab) && decide (m.result < vocab) && decide (m.rank < ms.length))
    && (List.range ms.length).all fun r => ms.any fun m => m.rank == r

/-- A tokenizer table is valid (Table 15-8). -/
def Dev.tokOk (d : Dev) (t : Nat) : Bool :=
  let v := d.rdLe (t + 4) 4
  d.rdLe t 4 == 0x50424B54 && decide (256 ≤ v) && decide (v ≤ 262144) && decide (d.rdLe (t + 8) 4 + 256 ≤ v)
    && decide (d.rdLe (t + 12) 1 < 16) && d.isZero (t + 13) 51
    && (List.range 256).all (fun k => decide (d.rdLe (t + 0x8060 + 4 * k) 4 < v)) && mergesOk v (d.merges t)

/-- A table load ends with a code (R463). -/
def Dev.tokEnd (d : Dev) (r s code : Nat) : Dev :=
  let k := 4 * r + s
  let d1 := ((d.set MED_TOK_SLOT.CODE k code).set MED_TOK_SLOT.GO k 0).set MED_TOK_SLOT.LOADING k 0
  d1.raiseBits (if code = 0 then MED_STAT.TOK_DONE else MED_STAT.TOK_FAIL) r (2 ^ s)

/-- GO of a tokenizer slot (R463). -/
def Dev.tokLoad (d : Dev) (fn r s : Nat) : Dev :=
  let k := 4 * r + s
  if 16 ≤ r || 4 ≤ s || 16 < fn then d
  else if !mayAct fn r then
    (d.set MED_TOK_SLOT.CODE (4 * (fn - 1) + s) 0x0834).raiseBits MED_STAT.TOK_FAIL (fn - 1) (2 ^ s)
  else if d.get MED_TOK_SLOT.LOADING k = 1 then d
  else if d.get MED_TOK_SLOT.REFS k ≠ 0 then d.tokEnd r s 0x0830
  else (d.set MED_TOK_SLOT.GO k 1).set MED_TOK_SLOT.LOADING k 1

/-- A tokenizer table cannot be read where it is said to lie (R462): it is unaligned or leaves the Room's fast-tier window, which
also sets WIN_EV where it lies in neither window (R317). -/
def Dev.tokRange (d : Dev) (r s n : Nat) : Dev :=
  (d.winCheck r [(d.get64 MED_TOK_ADDR_LO MED_TOK_ADDR_HI (4 * r + s), n)]).tokEnd r s 0x0832

/-- A load ends (R463), once its reads have issued: its range, then its contents and its poison, the lowest code first (R21). -/
def Dev.tokLoadEnd (d0 : Dev) (r s : Nat) : Dev :=
  let k := 4 * r + s
  if d0.get MED_TOK_SLOT.LOADING k = 0 then d0 else
  let t := d0.get64 MED_TOK_ADDR_LO MED_TOK_ADDR_HI k
  if t % 64 ≠ 0 || !inside (d0.ftWin r) t 0x8460 then d0.tokRange r s 0x8460 else
  let whole := decide (d0.rdLe (t + 8) 4 ≤ 262144) && inside (d0.ftWin r) t (d0.tokBytes t)
  let n := if whole then d0.tokBytes t else 0x8460
  let g := d0.gate (.table k) r [(false, t, n)]
  let d := g.1
  if !g.2 then d
  else if 262144 < d.rdLe (t + 8) 4 then d.tokEnd r s 0x0831
  else if !whole then d.tokRange r s (d.tokBytes t)
  else
    let c := firstCode [need (d.tokOk t) 0x0831, need (!d.poisoned t n) 0x0833]
    if c ≠ 0 then d.tokEnd r s c
    else
      let d1 := d.set MED_TOK_SLOT.VALID k 1
      let d2 := { d1 with med := { d1.med with tokAddr := tset (fun _ => 0) d1.med.tokAddr k t } }
      (d2.wr MED_TOK_ID k (crc32 (d.rdBytes t n))).tokEnd r s 0

/-- An unload zeroes the Room's tokenizer slots (R463). -/
def Dev.tokClear (d : Dev) (r : Nat) : Dev :=
  (List.range 4).foldl (fun e s =>
    let e1 := (e.wr MED_TOK_SLOT (4 * r + s) 0).wr MED_TOK_ID (4 * r + s) 0
    { e1 with med := { e1.med with tokAddr := tset (fun _ => 0) e1.med.tokAddr (4 * r + s) 0 } }) d

/-! ## Commands -/

def execDecImage (id : Nat) (s : State) := s.onDev fun d =>
  match d.starts id 0x20 with
  | some c => d.decStart c 0
  | none => d

def execDecVideo (id : Nat) (s : State) := s.onDev fun d =>
  match d.starts id 0x21 with
  | some c => d.decStart c 1
  | none => d

def execDecAudio (id : Nat) (s : State) := s.onDev fun d =>
  match d.starts id 0x22 with
  | some c => d.decStart c 2
  | none => d

def execTokenize (id : Nat) (s : State) := s.onDev fun d =>
  match d.starts id 0x23 with
  | some c => d.decStart c 3
  | none => d

def execSampleStart (e : Nat) (s : State) := s.onUnit 76 e fun d => d.sampleStart e

def execSampleDamage (e : Nat) (s : State) := s.onUnit 76 e fun d => d.sampleDamage e

def execSampleDefer (e : Nat) (s : State) := s.onUnit 76 e fun d => d.sampleDefer e

def execSampleDrop (e : Nat) (s : State) := s.onUnit 76 e fun d => d.sampleDrop e

def execSampleEnd (e : Nat) (s : State) := s.onUnit 76 e fun d => d.sampleEnd e

def execTokLoad (fn r slot : Nat) (s : State) := s.onHost fn MED_TOK_SLOT fun d => d.tokLoad fn r slot

def execTokLoadEnd (r slot : Nat) (s : State) := s.onDev fun d => if r < 16 ∧ slot < 4 then d.tokLoadEnd r slot else d

def execTokSlotClose (fn r slot : Nat) (close : Bool) (s : State) := s.onHost fn MED_TOK_SLOT fun d =>
  if mayAct fn r && decide (r < 16) && decide (slot < 4) then d.set MED_TOK_SLOT.CLOSE (4 * r + slot) (bit close) else d

end Sys2Proof.Machine
end

