-- ==== Sys2Proof/Machine/Prep.lean ====
section
/-! DEFINITION. Sample preparation, live frames and batching: PREP and PACK commands, geometry entries and their resampling,
colour and normalisation, ages of live frames, slots, and packing by first fit (Sample preparation, R472 to R492). -/

namespace Sys2Proof.Machine

/-! ## Commands -/

/-- The ARGS of PREP and PACK beyond those that a decode command has too (Table 16-2). -/
def Cmd.selAddr (c : Cmd) : Nat := c.arg64 5
def Cmd.nSel (c : Cmd) : Nat := bitsOf (c.arg 7) 0 16
def Cmd.dstBase (c : Cmd) : Nat := c.arg64 8
def Cmd.dstStride (c : Cmd) : Nat := c.arg 10

/-- The selection map of a command, without the skipped values (R475). -/
def Dev.selMap (d : Dev) (c : Cmd) : List Nat :=
  ((List.range c.nSel).map fun k => d.rdLe (c.selAddr + 4 * k) 4).filter fun v => v != 0xFFFFFFFF

/-- A list names nothing twice. -/
def distinct : List Nat → Bool
  | [] => true
  | a :: t => !t.contains a && distinct t

/-- The candidates of a command in order (R475). -/
def Dev.candidates (d : Dev) (c : Cmd) : List Nat := if c.selAddr = 0 then List.range c.nEntries else d.selMap c

/-- The fields of the ARGS are in order (R474). -/
def Cmd.prepFieldsOk (c : Cmd) : Bool :=
  decide (c.list < 2 ^ 52) && c.list % 64 == 0 && decide (1 ≤ c.nEntries) && decide (c.result < 2 ^ 52) && c.result % 32 == 0
    && decide (c.selAddr < 2 ^ 52) && c.selAddr % 4 == 0 && (c.nSel == 0) == (c.selAddr == 0)
    && bitsOf (c.arg 7) 16 16 == 0 && zeroFrom (c.words.drop 8) 11

/-- The ranges that the ARGS name. `listBytes` and `mapBytes` are the bytes of the list and of what follows the result
entries. -/
def Cmd.prepRanges (c : Cmd) (listBytes mapBytes : Nat) : List (Nat × Nat) :=
  [(c.list, listBytes), (c.result, 32 * c.nEntries + mapBytes)] ++ (if c.selAddr = 0 then [] else [(c.selAddr, 4 * c.nSel)])
    ++ (if c.opcode = 0x30 then [(c.dstBase, c.nEntries * c.dstStride)] else [])

/-- The selection map is in order (R474). -/
def Dev.selOk (d : Dev) (c : Cmd) : Bool := (d.selMap c).all (fun v => decide (v < c.nEntries)) && distinct (d.selMap c)

/-- The ARGS and the selection map are in order (R474). -/
def Dev.prepArgsOk (d : Dev) (c : Cmd) (listBytes mapBytes : Nat) : Bool :=
  c.prepFieldsOk && ((c.prepRanges listBytes mapBytes).all fun p => d.inWindows c.room p.1 p.2) && d.selOk c

/-- Write a result entry of Table 16-6. -/
def Dev.putEnd (d : Dev) (c : Cmd) (k : Nat) (e : PackEnd) : Dev :=
  d.wrBytes (c.result + 32 * k)
    (toLe 2 e.status ++ toLe 2 e.flags ++ toLe 4 (min e.a (2 ^ 32 - 1)) ++ toLe 4 (min e.b (2 ^ 32 - 1)) ++ toLe 4 e.c ++ toLe 16 0)

/-! ## Geometry entries -/

/-- A field of a PREP entry (Table 16-3). -/
def Dev.pe (d : Dev) (c : Cmd) (k off n : Nat) : Nat := d.rdLe (c.list + 64 * k + off) n

/-- What a geometry unit takes from an entry and its record: the entry's fields of Table 16-3 and the address of the record. -/
structure Geo where
  src : Nat
  w : Nat
  h : Nat
  pitch : Nat
  fmt : Nat
  outFmt : Nat
  u8 : Bool
  planar : Bool
  grey : Bool
  bicubic : Bool
  edge : Bool
  csc : Nat
  ow : Nat
  oh : Nat
  aug : Nat
  capture : Nat
  maxAge : Nat
  deriving DecidableEq, Repr

/-- The fields of an entry. -/
def Dev.geoOf (d : Dev) (c : Cmd) (k : Nat) : Geo :=
  let f := d.pe c k
  ⟨f 0 8, f 8 2, f 10 2, f 12 4, f 16 1, f 17 1, bitAt (f 18 1) 0, bitAt (f 18 1) 1, bitAt (f 18 1) 2, f 19 1 == 1, f 20 1 == 1, f 21 1,
    f 24 2, f 26 2, f 28 8, f 36 8, f 44 4⟩

/-- An entry is live (R484). -/
def Geo.live (g : Geo) : Bool := g.capture != 0 && g.maxAge != 0

/-- Its age in ns at an instant (R484). Log: 122 (DEDUCED). -/
def Geo.ageAt (g : Geo) (now : Nat) : Nat := now - g.capture

/-- The source is YUV. -/
def Geo.yuv (g : Geo) : Bool := decide (3 ≤ g.fmt)

/-- Bytes of a sample and of a pixel of plane 0, and the channels of the source. -/
def Geo.sampleBytes (g : Geo) : Nat := if g.fmt = 4 then 2 else 1
def Geo.pixelBytes (g : Geo) : Nat :=
  match g.fmt with
  | 0 => 3
  | 1 => 4
  | 4 => 2
  | _ => 1
def Geo.sources (g : Geo) : Nat := if g.fmt = 2 then 1 else 3

/-- A sampled plane: where sample (0, 0) lies, bytes from row to row and from sample to sample, columns and rows. -/
structure Plane where
  base : Nat
  pitch : Nat
  step : Nat
  w : Nat
  h : Nat
  deriving DecidableEq, Repr

/-- Plane `k` of a source (Table 16-3, R453): channels of interleaved pixels, or Y, Cb and Cr one after another.
Log: 120 (DEDUCED). -/
def Geo.plane (g : Geo) (k : Nat) : Plane :=
  if !g.yuv then ⟨g.src + k, g.pitch, g.pixelBytes, g.w, g.h⟩
  else if k = 0 then ⟨g.src, g.pitch, g.sampleBytes, g.w, g.h⟩
  else
    let cw := if g.fmt = 5 then g.w else ceilDiv g.w 2
    let ch := if g.fmt = 5 then g.h else ceilDiv g.h 2
    ⟨g.src + g.pitch * g.h + (k - 1) * (g.pitch / 2 * ch), g.pitch / 2, g.sampleBytes, cw, ch⟩

/-- Bytes of the source region. -/
def Geo.srcBytes (g : Geo) : Nat :=
  ((List.range g.sources).map fun k =>
    let p := g.plane k
    p.base - g.src + (p.h - 1) * p.pitch + max p.pitch (p.w * p.step)).foldl max 0

/-- Channels and bytes of a value of the output, and its size O (R481). -/
def Geo.outCh (g : Geo) : Nat := if g.grey then 1 else 3
def Geo.outBytes (g : Geo) : Nat := if g.u8 then 1 else if g.outFmt = 0 then 4 else 2
def Geo.size (g : Geo) : Nat := g.ow * g.oh * g.outCh * g.outBytes

/-- An FP32 field of the augmentation record (Table 16-4). -/
def Dev.af (d : Dev) (g : Geo) (off : Nat) : FVal := elemRaw 0 (d.rdLe (g.aug + off) 4)

/-- FLAGS of the record. -/
def Dev.augFlag (d : Dev) (g : Geo) (k : Nat) : Bool := bitAt (d.rdLe g.aug 4) k
def Dev.warp (d : Dev) (g : Geo) : Nat := bitsOf (d.rdLe g.aug 4) 2 2

/-- Columns and rows of the mesh, and its address. -/
def Dev.meshX (d : Dev) (g : Geo) : Nat := d.rdLe (g.aug + 4) 1
def Dev.meshY (d : Dev) (g : Geo) : Nat := d.rdLe (g.aug + 5) 1
def Dev.meshAddr (d : Dev) (g : Geo) : Nat := d.rdLe (g.aug + 8) 8
def Dev.meshBytes (d : Dev) (g : Geo) : Nat := 8 * d.meshX g * d.meshY g

/-- A value is finite. -/
def FVal.finite (v : FVal) : Bool :=
  match v with
  | .num _ _ _ => true
  | _ => false

/-- The augmentation record is valid (R477). -/
def Dev.augOk (d : Dev) (c : Cmd) (g : Geo) : Bool :=
  let zero := FVal.num false 0 0
  let pos := fun (v : FVal) => v.finite && zero.lt v
  let nz := fun (v : FVal) => v.finite && !v.isZero
  let side := fun (n : Nat) => decide (2 ≤ n) && decide (n ≤ 65)
  d.inWindows c.room g.aug 256 && decide (d.rdLe g.aug 4 < 64) && d.warp g != 3 && d.rdLe (g.aug + 6) 2 == 0
    && (List.range 44).all (fun k => d.rdByte (g.aug + 0xD4 + k) == 0)
    && pos (d.af g 0x18) && pos (d.af g 0x1C)
    && (!d.augFlag g 0 || (nz (d.af g 0x20) && nz (d.af g 0x24)))
    && (d.warp g != 2 || (side (d.meshX g) && side (d.meshY g) && d.inWindows c.room (d.meshAddr g) (d.meshBytes g)))

/-- The ranges of memory that an entry reads (R476, R477): its record and its source, and the mesh of a valid record. -/
def Dev.geoRanges (d : Dev) (g : Geo) : List (Nat × Nat) :=
  [(g.aug, 256), (g.src, g.srcBytes)] ++ (if d.warp g = 2 then [(d.meshAddr g, d.meshBytes g)] else [])

/-- An entry is in order (R476). Log: 197 (DEDUCED). -/
def Dev.geoOk (d : Dev) (c : Cmd) (k : Nat) : Bool :=
  let g := d.geoOf c k
  let f := d.pe c k
  let side := fun (n most : Nat) => decide (1 ≤ n) && decide (n ≤ most)
  side g.w 16384 && side g.h 16384 && decide (g.fmt ≤ 5) && (g.u8 || decide (g.outFmt ≤ 2)) && decide (f 18 1 < 8) && decide (f 19 1 ≤ 1)
    && decide (f 20 1 ≤ 1) && decide (g.csc ≤ 3) && f 22 2 == 0 && side g.ow 4096 && side g.oh 4096 && g.aug % 64 == 0
    && f 48 8 == 0 && f 56 8 == 0 && (g.csc == 0) == !g.yuv && d.inWindows c.room g.src g.srcBytes
    && d.augOk c g && (!g.grey || d.augFlag g 5)

/-! ## From an output pixel to a source position (R478) -/

/-- atan of a nonnegative fixed-point number: the reciprocal above 1, three halvings of the angle, the series. -/
def fxAtan (x : Int) : Int :=
  let half := fun (v : Int) => fxDiv v (fxOne + ((isqrt ((fxOne + fxMul v v) * fxOne).toNat 430 0 : Nat) : Int))
  let small := fun (v : Int) =>
    let z := half (half (half v))
    8 * oddSeries (-(fxMul z z)) 80 1 z 0
  if fxOne < x then fxPi / 2 - small (fxDiv fxOne x) else small x

/-- atan as the geometry unit computes it: a fixed function within 2 ulp (R478, R262), on a nonnegative argument.
Log: 119 (DEDUCED). -/
def atanUnit (r : FVal) : FVal :=
  let fin := fun (y : FVal) =>
    let free := (Config.transc 0x3C (BitVec.ofNat 32 (conv 0 r).1)).toNat
    if withinUlp 2 y free then elemRaw 0 free else f32 y
  match r with
  | .nan => .nan
  | .inf _ => fin (ofFixed (fxPi / 2))
  | .num s m e => if m = 0 then .num s 0 0 else fin (ofFixed (fxAtan (FVal.num s m e).fixed))

/-- The greatest integer not above a finite value. -/
def FVal.floorInt (v : FVal) : Int :=
  match v with
  | .num s m e =>
    if 0 ≤ e then signedMag s (m * 2 ^ e.toNat)
    else signedMag s m / ((2 ^ (-e).toNat : Nat) : Int)
  | _ => 0

/-- An integer as FP32. -/
def f32Nat (n : Nat) : FVal := f32 (.num false n 0)
def f32Half : FVal := .num false 1 (-1)

/-- A computation that counts its saturations as it goes (R174, R177). -/
abbrev Counted := StateM Nat

/-- FP32 operations, one rounding each, counted. -/
def cnt (v : FVal) : Counted FVal := fun n => f32Sat v n
def cAdd (a b : FVal) : Counted FVal := cnt (a.add b)
def cSub (a b : FVal) : Counted FVal := cnt (a.add b.neg)
def cMul (a b : FVal) : Counted FVal := cnt (a.mul b)
def cFma (a b c : FVal) : Counted FVal := cnt (a.fma b c)
def cDiv (a b : FVal) : Counted FVal := cnt (a.div b)

/-- The interpolation of R478 between four points. -/
def lerp4 (t s p00 p01 p10 p11 : FVal) : Counted FVal := do
  let top ← cFma t (← cSub p01 p00) p00
  let bot ← cFma t (← cSub p11 p10) p10
  cFma s (← cSub bot top) top

/-- The warp: normalised crop coordinates; none where the pixel takes FILL. Log: 119 (DEDUCED). -/
def Dev.warped (d : Dev) (g : Geo) (a b : FVal) : Counted (Option (FVal × FVal)) :=
  if d.warp g = 1 then do
    let h := fun (k : Nat) => d.af g (0x50 + 4 * k)
    let row := fun (k : Nat) => do cFma (h k) a (← cFma (h (k + 1)) b (h (k + 2)))
    let w ← row 6
    if !f32Zero.lt w then pure none else
      let a2 ← cDiv (← row 0) w
      let b2 ← cDiv (← row 3) w
      pure (some (a2, b2))
  else if d.warp g = 2 then do
    let mx := d.meshX g
    let my := d.meshY g
    let gx ← cMul a (f32Nat (mx - 1))
    let gy ← cMul b (f32Nat (my - 1))
    let i := min gx.floorInt.toNat (mx - 2)
    let j := min gy.floorInt.toNat (my - 2)
    let t ← cSub gx (f32Nat i)
    let s ← cSub gy (f32Nat j)
    let p := fun (o jj ii : Nat) => elemRaw 0 (d.rdLe (d.meshAddr g + 8 * (jj * mx + ii) + o) 4)
    let at_ := fun (o : Nat) => lerp4 t s (p o j i) (p o j (i + 1)) (p o (j + 1) i) (p o (j + 1) (i + 1))
    let x ← at_ 0
    let y ← at_ 4
    pure (some (x, y))
  else pure (some (a, b))

/-- The lens: distorted source position of an undistorted one; none on a NaN along the way. Log: 119 (DEDUCED). -/
def Dev.lensed (d : Dev) (g : Geo) (x y : FVal) : Counted (Option (FVal × FVal)) :=
  if !d.augFlag g 0 then pure (some (x, y)) else do
    let q := d.af g
    let two := FVal.num false 1 1
    let xn ← cDiv (← cSub x (q 0x28)) (q 0x20)
    let yn ← cDiv (← cSub y (q 0x2C)) (q 0x24)
    let r2 ← cFma xn xn (← cMul yn yn)
    let out := fun (xd yd : FVal) => do
      let xs ← cFma (q 0x20) xd (q 0x28)
      let ys ← cFma (q 0x24) yd (q 0x2C)
      pure (some (xs, ys))
    if !d.augFlag g 1 then
      let rad ← cFma (← cFma (← cFma (q 0x38) r2 (q 0x34)) r2 (q 0x30)) r2 f32One
      let p1 := q 0x40
      let p2 := q 0x44
      let xy ← cMul xn yn
      let xd ← cFma xn rad (← cFma (← cMul two p1) xy (← cMul p2 (← cFma (← cMul two xn) xn r2)))
      let yd ← cFma yn rad (← cFma (← cMul two p2) xy (← cMul p1 (← cFma (← cMul two yn) yn r2)))
      out xd yd
    else
      let r := f32 r2.sqrt
      let th := atanUnit r
      let t2 ← cMul th th
      let thd ← cMul th (← cFma (← cFma (← cFma (← cFma (q 0x3C) t2 (q 0x38)) t2 (q 0x34)) t2 (q 0x30)) t2 f32One)
      let sc ← if f32Zero.lt r then cDiv thd r else pure f32One
      if thd == .nan then pure none else
        let xd ← cMul xn sc
        let yd ← cMul yn sc
        out xd yd

/-- The source position of an output pixel (R478); none where the pixel takes FILL: w not greater than 0, a NaN, or a
position that is no finite number. -/
def Dev.srcPos (d : Dev) (g : Geo) (x y : Nat) : Counted (Option (FVal × FVal)) := do
  let xo := if d.augFlag g 4 then g.ow - 1 - x else x
  let a ← cDiv (← cAdd (f32Nat xo) f32Half) (f32Nat g.ow)
  let b ← cDiv (← cAdd (f32Nat y) f32Half) (f32Nat g.oh)
  match ← d.warped g a b with
  | none => pure none
  | some (a2, b2) =>
    let px ← cFma a2 (d.af g 0x18) (d.af g 0x10)
    let py ← cFma b2 (d.af g 0x1C) (d.af g 0x14)
    match ← d.lensed g px py with
    | none => pure none
    | some (xs, ys) => pure (if xs.finite && ys.finite then some (xs, ys) else none)

/-! ## Sampling (R479) -/

/-- Where a plane is sampled: u and v. -/
def Geo.uv (g : Geo) (k : Nat) (pos : FVal × FVal) : FVal × FVal :=
  let at_ := fun (v : FVal) =>
    if (g.fmt = 3 || g.fmt = 4) && k ≠ 0 then f32Sub (f32Div v (.num false 1 1)) f32Half else f32Sub v f32Half
  (at_ pos.1, at_ pos.2)

/-- The address that a tap reads, none where it reads FILL (R479). -/
def Geo.tapAddr (g : Geo) (p : Plane) (i j : Int) : Option Nat :=
  let inP := decide (0 ≤ i) && decide (i < p.w) && decide (0 ≤ j) && decide (j < p.h)
  if inP then some (p.base + j.toNat * p.pitch + i.toNat * p.step)
  else if g.edge then some (p.base + min j.toNat (p.h - 1) * p.pitch + min i.toNat (p.w - 1) * p.step)
  else none

/-- The taps of a position: columns and rows. -/
def Geo.tapsOf (g : Geo) (uv : FVal × FVal) : List Int × List Int :=
  let span := fun (f : Int) => if g.bicubic then [f - 1, f, f + 1, f + 2] else [f, f + 1]
  (span uv.1.floorInt, span uv.2.floorInt)

/-- The value that a tap reads. -/
def Dev.tap (d : Dev) (g : Geo) (k : Nat) (p : Plane) (i j : Int) : FVal :=
  match g.tapAddr p i j with
  | some a => .num false (if g.fmt = 4 then d.rdLe a 2 % 1024 else d.rdLe a 1) 0
  | none => d.af g (0xC8 + 4 * k)

/-- The exact weight of a tap of the bicubic filter with a = −0.5, as a value: tap 0 is i0 − 1. -/
def cubicExact (k : Nat) (t : FVal) : FVal :=
  let t2 := t.mul t
  let t3 := t2.mul t
  let n := fun (c : Int) (v : FVal) => (FVal.ofInt c).mul v
  let s := match k with
    | 0 => ((n (-1) t).add (n 2 t2)).add (n (-1) t3)
    | 1 => ((FVal.ofInt 2).add (n (-5) t2)).add (n 3 t3)
    | 2 => (t.add (n 4 t2)).add (n (-3) t3)
    | _ => (n (-1) t2).add t3
  s.scale (-1)

/-- The weight as the unit computes it (log 118): the cubic, within 1 ulp. Log: 118 (DESIGN CHOICE). -/
def cubicW (k : Nat) (t : FVal) : FVal :=
  let free := (Config.cubicWeight k (BitVec.ofNat 32 (conv 0 t).1)).toNat
  if withinUlp 1 (cubicExact k t) free then elemRaw 0 free else f32 (cubicExact k t)

/-- Weighted sum in ascending order, the first term a product and each further one fused. -/
def weigh : List (FVal × FVal) → Counted FVal
  | [] => pure f32Zero
  | a :: t => do t.foldlM (fun s p => cFma p.1 p.2 s) (← cMul a.1 a.2)

/-- Plane `k` sampled at a position. -/
def Dev.sample (d : Dev) (g : Geo) (k : Nat) (pos : FVal × FVal) : Counted FVal := do
  let p := g.plane k
  let uv := g.uv k pos
  let taps := g.tapsOf uv
  let t ← cSub uv.1 (FVal.ofInt uv.1.floorInt)
  let s ← cSub uv.2 (FVal.ofInt uv.2.floorInt)
  let rows := taps.2.map fun j => taps.1.map fun i => d.tap g k p i j
  if g.bicubic then
    let ws := fun (x : FVal) => (List.range 4).map fun n => cubicW n x
    let rs ← rows.mapM fun r => weigh ((ws t).zip r)
    weigh ((ws s).zip rs)
  else
    let at_ := fun (j i : Nat) => nth f32Zero (nth [] rows j) i
    lerp4 t s (at_ 0 0) (at_ 0 1) (at_ 1 0) (at_ 1 1)

/-- Some tap of a position reads poison. -/
def Dev.tapPoison (d : Dev) (g : Geo) (k : Nat) (pos : FVal × FVal) : Bool :=
  let p := g.plane k
  let taps := g.tapsOf (g.uv k pos)
  taps.2.any fun j => taps.1.any fun i =>
    match g.tapAddr p i j with
    | some a => d.poisoned a g.sampleBytes
    | none => false

/-- Some sample that an entry reads is poisoned. Log: 121 (DEDUCED). -/
def Dev.geoPoison (d : Dev) (g : Geo) : Bool :=
  if d.poison.isEmpty && d.memx.bad.isEmpty && d.memx.dead.isEmpty then false else
  (List.range g.oh).any fun y => (List.range g.ow).any fun x =>
    match (d.srcPos g x y 0).1 with
    | some pos => (List.range g.sources).any fun k => d.tapPoison g k pos
    | none => false

/-! ## Colour, normalisation and output (R480, R481) -/

/-- A ratio of integers rounded once to FP32. -/
def f32Ratio (n : Int) (m : Nat) : FVal := f32 ((FVal.ofInt n).div (.num false m 0))

/-- Kr and Kb in 1/10,000, then y_off, y_range, c_off and c_range (Table 16-5). -/
def cscOf (csc : Nat) : Nat × Nat × Nat × Nat × Nat × Nat :=
  match csc with
  | 1 => (2990, 1140, 0, 255, 128, 255)
  | 2 => (2126, 722, 16, 219, 128, 224)
  | _ => (2627, 593, 16, 219, 128, 224)

/-- R, G and B of the sampled code values. -/
def Geo.rgb (g : Geo) (v : List FVal) : Counted (List FVal) :=
  let at_ := nth f32Zero v
  if !g.yuv then
    (if g.fmt = 2 then [0, 0, 0] else [0, 1, 2]).mapM fun k => cMul (at_ k) (f32Ratio 1 255)
  else do
    let (kr, kb, yo, yr, co, cr) := cscOf g.csc
    let kg := 10000 - kr - kb
    let m := if g.fmt = 4 then 4 else 1
    let y ← cMul (← cSub (at_ 0) (f32Nat (m * yo))) (f32Ratio 1 (m * yr))
    let chroma := fun (k : Nat) => do cMul (← cSub (at_ k) (f32Nat (m * co))) (f32Ratio 1 (m * cr))
    let b ← chroma 1
    let r ← chroma 2
    let red ← cFma (f32Ratio (2 * (10000 - kr : Nat)) 10000) r y
    let green ← cFma (f32Ratio (-(2 * kr * (10000 - kr) : Nat)) (10000 * kg)) r
      (← cFma (f32Ratio (-(2 * kb * (10000 - kb) : Nat)) (10000 * kg)) b y)
    let blue ← cFma (f32Ratio (2 * (10000 - kb : Nat)) 10000) b y
    pure [red, green, blue]

/-- The normalised output values of a pixel. -/
def Dev.pixel (d : Dev) (g : Geo) (x y : Nat) : Counted (List FVal) := do
  let q := d.af g
  let v ← match ← d.srcPos g x y with
    | some pos => (List.range g.sources).mapM fun k => d.sample g k pos
    | none => pure ((List.range g.sources).map fun k => q (0xC8 + 4 * k))
  let rgb ← g.rgb v
  let at_ := nth f32Zero rgb
  (List.range g.outCh).mapM fun k => do
    let m := fun (n : Nat) => q (0x80 + 16 * k + 4 * n)
    let o ← if d.augFlag g 5 then do cFma (m 0) (at_ 0) (← cFma (m 1) (at_ 1) (← cFma (m 2) (at_ 2) (m 3))) else pure (at_ k)
    cMul (← cSub o (q (0xB0 + 4 * k))) (q (0xBC + 4 * k))

/-- One output value as bytes with what its conversion counted. A NaN written as U8 is a free byte. Log: 119 (DEDUCED). -/
def Dev.outValue (d : Dev) (g : Geo) (n : Nat) (v : FVal) : List (BitVec 8) × Tally :=
  if g.u8 then
    match f32Mul v (f32Nat 255) with
    | .nan => ([Config.freeByte d.free n], Tally.none)
    | .inf s => (toLe 1 (if s then 0 else 255), Tally.none)
    | .num s m e => (toLe 1 (if s then 0 else min 255 (rneShift m e)), Tally.none)
  else
    let r := conv g.outFmt v
    (toLe g.outBytes r.1, if g.outFmt = 0 then Tally.none else r.2)

/-- The whole output of an entry with what it counted. -/
def Dev.geoOut (d : Dev) (g : Geo) : List (BitVec 8) × Tally :=
  let ps := (List.range g.oh).flatMap fun y => (List.range g.ow).map fun x => d.pixel g x y 0
  let px := ps.map fun p => p.1
  let vs := if g.planar then (List.range g.outCh).flatMap fun k => px.map fun p => nth f32Zero p k else px.flatMap fun p => p
  let outs := (vs.zip (List.range vs.length)).map fun p => d.outValue g p.2 p.1
  (outs.flatMap fun o => o.1, outs.foldl (fun t o => t.plus o.2) ⟨(ps.map fun p => p.2).sum, 0⟩)

/-! ## Units and slots -/

/-- The running PREP command with a number. -/
def Dev.prep? (d : Dev) (id : Nat) : Option PrepJob := d.med.preps.find? fun j => j.cmd == id
def Dev.setPrep (d : Dev) (j : PrepJob) : Dev :=
  { d with med := { d.med with preps := d.med.preps.map fun x => if x.cmd == j.cmd then j else x } }

/-- The geometry unit `g` with what it holds. -/
def Dev.unit? (d : Dev) (g : Nat) : Option GeoUnit := d.med.geo.find? fun u => u.unit == g

/-- A unit takes an entry, or gives it up (Table 16-12). -/
def Dev.holdUnit (d : Dev) (c : Cmd) (u : GeoUnit) : Dev :=
  let d1 := { d with med := { d.med with geo := d.med.geo ++ [u] } }
  (((d1.set MED_GEO_STAT.BUSY u.unit 1).set MED_GEO_STAT.ROOM u.unit c.room).set MED_GEO_STAT.LIVE u.unit (bit u.live)).set
    MED_GEO_STAT.LEVEL u.unit c.level
def Dev.freeUnit (d : Dev) (g : Nat) : Dev :=
  ({ d with med := { d.med with geo := d.med.geo.filter fun u => u.unit != g } }).wr MED_GEO_STAT g 0

/-- Usable candidates in candidate order (R485). -/
def PrepJob.usable (j : PrepJob) : List Nat := j.cands.filter fun k => j.ended.any fun e => e.entry == k && e.usable

/-- A live entry has LIVE set in its FLAGS. -/
def liveFlag (live : Bool) : Nat := if live then 2 else 0

/-- The slot map is written and the command completes (R485), with 0x0411 where a DEAD channel discards a part of the result area
(R333, R345). -/
def Dev.prepComplete (d : Dev) (j : PrepJob) (c : Cmd) : Dev :=
  let us := j.usable.take c.nSlots
  let d1 := us.foldl (fun e k => e.wrLe (c.result + 32 * k + 2) 2 (e.rdLe (c.result + 32 * k + 2) 2 ||| 1)) d
  let map := us ++ List.replicate (c.nSlots - us.length) 0xFFFFFFFF
  let at' := c.result + 32 * c.nEntries
  let d2 := (d1.wrBytes at' (map.flatMap fun k => toLe 4 k)).charge (some c.room) at' (chargeOf true at' (4 * c.nSlots))
  let d3 := { d2 with med := { d2.med with preps := d2.med.preps.filter fun x => x.cmd != j.cmd } }
  (d3.settleDues c.id).complete c (if d.deadRange c.result (32 * c.nEntries + 4 * c.nSlots) then 0x0411
    else if us.length = c.nSlots then 0 else 0x0902) us.length

/-- The candidates that are surplus: those after the last one that the map needs, once all up to it have ended (R466, R485). -/
def PrepJob.surplus (j : PrepJob) (n : Nat) : Option (List Nat) :=
  match j.usable[n - 1]? with
  | some last =>
    match findIdx? (fun k => k == last) j.cands 0 with
    | some (p, _) =>
      if (j.cands.take p).all fun k => j.ended.any fun e => e.entry == k then some (j.cands.drop (p + 1)) else none
    | none => none
  | none => none

/-- A surplus entry ends with 0x0922; one that runs is abandoned, and its output is free. Log: 122 (DEDUCED). -/
def Dev.prepSurplus (d : Dev) (c : Cmd) (j : PrepJob) (k : Nat) : Dev :=
  if j.ended.any fun e => e.entry == k then d else
  let g := d.geoOf c k
  match d.med.geo.find? fun u => u.cmd == j.cmd && u.entry == k with
  | some u =>
    let d1 := (d.freeUnit u.unit).scrambleOut (c.dstBase + k * c.dstStride) g.size
    let age := if u.live then g.ageAt d.now / 1000 else 0
    ((d1.putEnd c k ⟨0x0922, liveFlag u.live, u.age, age, d1.freeWord⟩).chargeResult c k).drew
  | none =>
    let w := fun (m : Nat) => if g.live then (Config.freeWord m).toNat else 0
    ((d.putEnd c k ⟨0x0922, liveFlag g.live, w d.free, w (d.free + 1), 0⟩).chargeResult c k).drew.drew

/-- The command ends when its map is full or its candidates are exhausted (R485). -/
def Dev.prepCheck (d : Dev) (id : Nat) : Dev :=
  match d.prep? id, d.cmd? id with
  | some j, some c =>
    match j.surplus c.nSlots with
    | some ks => (ks.foldl (fun e k => e.prepSurplus c j k) d).prepComplete j c
    | none => if j.cands.all fun k => j.ended.any fun e => e.entry == k then d.prepComplete j c else d
  | _, _ => d

/-- An entry ends with a code, its ages and the bytes written (Table 16-6). -/
def Dev.prepEnds (d : Dev) (c : Cmd) (k code : Nat) (live : Bool) (a b n : Nat) : Dev :=
  let stale := code = 0x0920 || code = 0x0921
  let bad := code = 0x0910 || code = 0x0913 || code = 0x0918
  let d1 := if stale then (d.count MED_PREP_STALE_CNT c.room 1).raise MED_PREP_STAT.STALE_EV c.room
    else if bad then (d.count MED_PREP_REJECT_CNT c.room 1).raise MED_PREP_STAT.REJECT_EV c.room else d
  let d2 := d1.putEnd c k ⟨code, liveFlag live, if live then a else 0, if live then b else 0, n⟩
  match d2.prep? c.id with
  | some j => (d2.setPrep { j with ended := j.ended ++ [⟨k, code == 0, 0⟩] }).prepCheck c.id
  | none => d2

/-- The code with which an entry ends as a unit takes it, before any output (R476, R484, R491): a poisoned entry, record or mesh
reads as 0x0918 (R328). Log: 193 (DEDUCED). -/
def Dev.takeCode (d : Dev) (c : Cmd) (k : Nat) : Nat :=
  let g := d.geoOf c k
  firstCode [
    need (d.geoOk c k) 0x0910,
    need (decide (g.size ≤ c.dstStride)) 0x0913,
    need (!d.poisoned (c.list + 64 * k) 64 && !d.poisoned g.aug 256 && !(d.warp g == 2 && d.poisoned (d.meshAddr g) (d.meshBytes g))) 0x0918,
    need (!(g.live && decide (1000 * g.maxAge < g.ageAt d.now))) 0x0920]

/-- A PREP command has a candidate for a unit to take. -/
def Dev.prepReady (d : Dev) (j : PrepJob) : Option Cmd := (d.cmd? j.cmd).filter fun _ => decide (j.next < j.cands.length)

/-- A free geometry unit takes the next entry in turn and resamples it (R472, R478 to R481, R484). Log: 121 (DEDUCED).
Log: 160 (DEDUCED). -/
def Dev.entryTake (d : Dev) (u : Nat) : Dev :=
  if 24 ≤ u || (d.unit? u).isSome || d.get FLT_ENG_STAT.RETIRED (88 + u) = 1 then d else
  match d.nextJob 5 (d.med.preps.filterMap d.prepReady) 4 0 with
  | none => d
  | some (id, lvl) =>
    match d.prep? id, d.cmd? id with
    | some j, some c =>
      let k := nth 0 j.cands j.next
      let g := d.geoOf c k
      let age := if g.live then g.ageAt d.now / 1000 else 0
      let gate := d.gate (.entry id k) c.room ((false, c.list + 64 * k, 64) :: (if d.inWindows c.room g.aug 256 then [(false, g.aug, 256)] else []))
      if !gate.2 then gate.1 else
      let d0 := { gate.1 with med := { gate.1.med with rr := tset (fun _ => 0) gate.1.med.rr (20 + lvl) id } }
      let d1 := d0.setPrep { j with next := j.next + 1 }
      let code := d.takeCode c k
      if code ≠ 0 then
        ((if code = 0x0910 then d1.winCheck c.room (d.geoRanges g) else d1).chargeResult c k).prepEnds c k code g.live age age 0
      else
        let dst := c.dstBase + k * c.dstStride
        if d.geoPoison g then
          let d2 := (d1.scrambleOut dst g.size).chargeResult c k
          d2.drew.prepEnds c k 0x0918 g.live age age d2.freeWord
        else
          let out := d.geoOut g
          ((d1.wrBytes dst out.1).drew.tally c.room out.2).holdUnit c ⟨u, id, k, g.live, age⟩
    | _, _ => d

/-- The last output write of a unit's entry is acknowledged (R484, R485), once its reads and writes have issued (R474): a DEAD channel
that discards a part of the output ends it with 0x0411 (R333, R345). -/
def Dev.entryDone (d0 : Dev) (u : Nat) : Dev :=
  match d0.unit? u with
  | none => d0
  | some x =>
    match d0.cmd? x.cmd with
    | none => d0
    | some c =>
      let g := d0.geoOf c x.entry
      let dst := c.dstBase + x.entry * c.dstStride
      let gate := d0.gate (.entry x.cmd x.entry) c.room
        [(false, g.src, g.srcBytes), (true, dst, g.size), (true, c.result + 32 * x.entry, 32)]
      let d := gate.1
      if !gate.2 then d else
      let age := g.ageAt d.now
      let late := x.live && decide (1000 * g.maxAge < age)
      let dead := d.deadRange dst g.size
      let code := firstCode [need (!dead) 0x0411, need (!late) 0x0921]
      let d1 := d.freeUnit u
      if dead then d1.drew.prepEnds c x.entry code x.live x.age (age / 1000) d1.freeWord
      else d1.prepEnds c x.entry code x.live x.age (age / 1000) g.size

/-- The further fields of a PREP command's ARGS (Table 16-2). -/
def Cmd.prepOutOk (c : Cmd) : Bool :=
  decide (1 ≤ c.nSlots) && decide (c.nSlots ≤ c.nEntries) && decide (c.dstBase < 2 ^ 52) && c.dstBase % 64 == 0 && c.dstStride % 64 == 0
    && decide (64 ≤ c.dstStride)

/-- A command whose ARGS are invalid completes at once (R474); with its fields in order, a range outside the windows sets WIN_EV
(R317). -/
def Dev.prepRefuse (d : Dev) (c : Cmd) (fields : Bool) (ranges : List (Nat × Nat)) : Dev :=
  (if fields then d.winCheck c.room ranges else d).finish c 0x0901

/-- A PREP command starts (R474, R475), or completes with 0x0918 where its selection map reads poisoned (R328).
Log: 193 (DEDUCED). -/
def Dev.prepStart (d : Dev) (c : Cmd) : Dev :=
  if !(d.prepArgsOk c (64 * c.nEntries) (4 * c.nSlots) && c.prepOutOk) then
    d.prepRefuse c (c.prepFieldsOk && c.prepOutOk) (c.prepRanges (64 * c.nEntries) (4 * c.nSlots))
  else if d.poisoned c.selAddr (4 * c.nSel) then d.finish c 0x0918 else
  let cands := d.candidates c
  let d1 := ((List.range c.nEntries).filter fun k => !cands.contains k).foldl (fun (e : Dev) k =>
    (e.putEnd c k ⟨0x0903, 0, 0, 0, 0⟩).chargeResult c k) d
  let d2 := d1.begin c .started 0
  ({ d2 with med := { d2.med with preps := d2.med.preps ++ ([⟨c.id, cands, 0, []⟩] : List PrepJob) } }).prepCheck c.id

/-! ## Packing (R486 to R489) -/

/-- Fields of the pack header (Table 16-7). -/
def Dev.tokenBytes (d : Dev) (c : Cmd) : Nat := d.rdLe c.list 4
def Dev.packRow (d : Dev) (c : Cmd) : Nat := d.rdLe (c.list + 4) 4
def Dev.packOut (d : Dev) (c : Cmd) : Nat := d.rdLe (c.list + 0x10) 8
def Dev.packSeg (d : Dev) (c : Cmd) : Nat := d.rdLe (c.list + 0x18) 8
def Dev.packPos (d : Dev) (c : Cmd) : Nat := d.rdLe (c.list + 0x20) 8

/-- The output regions of a pack header (R486). -/
def Dev.packRegions (d : Dev) (c : Cmd) : List (Nat × Nat) :=
  let n := c.nSlots * d.packRow c
  (d.packOut c, n * d.tokenBytes c) :: (([d.packSeg c, d.packPos c].filter fun a => a != 0).map fun a => (a, 2 * n))

/-- The fields of the header are in order (R486, Table 16-7). -/
def Dev.packFieldsOk (d : Dev) (c : Cmd) : Bool :=
  decide (1 ≤ d.tokenBytes c) && decide (d.tokenBytes c ≤ 16384) && decide (1 ≤ d.packRow c) && decide (d.packRow c ≤ 65536)
    && decide (d.rdLe (c.list + 12) 4 ≤ 1) && d.packOut c % 64 == 0 && (List.range 24).all (fun k => d.rdByte (c.list + 0x28 + k) == 0)

/-- The header and the output regions are in order (R486). -/
def Dev.packHeaderOk (d : Dev) (c : Cmd) : Bool := d.packFieldsOk c && (d.packRegions c).all fun p => d.inWindows c.room p.1 p.2

/-- A pack entry: its source and its token count. -/
def Dev.packSrc (d : Dev) (c : Cmd) (k : Nat) : Nat := d.rdLe (c.list + 64 + 16 * k) 8
def Dev.packLen (d : Dev) (c : Cmd) (k : Nat) : Nat := d.rdLe (c.list + 64 + 16 * k + 8) 4

/-- A sample placed: entry, row, offset, segment and length. -/
structure Placed where
  entry : Nat
  row : Nat
  off : Nat
  seg : Nat
  len : Nat
  cut : Bool
  deriving DecidableEq, Repr

/-- The placement in progress: tokens used and segments of each row, what has been placed, and the entries that ended. -/
structure Packing where
  used : List Nat
  nseg : List Nat
  placed : List Placed
  failed : List (Nat × Nat × Bool)
  deriving DecidableEq, Repr

/-- One candidate by first fit (R487). `bad` says that its entry is invalid. -/
def Packing.place (rowLen : Nat) (trunc : Bool) (p : Packing) (k len : Nat) (bad : Bool) : Packing :=
  let cut := decide (rowLen < len)
  let n := min len rowLen
  if bad then { p with failed := p.failed ++ [(k, 0x0910, false)] }
  else if cut && !trunc then { p with failed := p.failed ++ [(k, 0x0931, false)] }
  else match findIdx? (fun u => decide (u + n ≤ rowLen)) p.used 0 with
    | some (r, u) =>
      let s := nth 0 p.nseg r + 1
      ⟨setNth (u + n) p.used r, setNth s p.nseg r, p.placed ++ [⟨k, r, u, s, n, cut⟩], p.failed⟩
    | none => { p with failed := p.failed ++ [(k, 0x0932, cut)] }

/-- The pack entry is invalid: LEN 0, a nonzero reserved byte, or a source outside the Room's windows. Log: 123 (DEDUCED). -/
def Dev.packBad (d : Dev) (c : Cmd) (k : Nat) : Bool :=
  d.packLen c k == 0 || d.rdLe (c.list + 64 + 16 * k + 12) 4 != 0
    || !d.inWindows c.room (d.packSrc c k) (min (d.packLen c k) (d.packRow c) * d.tokenBytes c)

/-- The placement of a command's candidates; one whose entry reads poisoned is not placed (R328). Log: 193 (DEDUCED). -/
def Dev.packing (d : Dev) (c : Cmd) : Packing :=
  let none : List Nat := List.replicate c.nSlots 0
  (d.candidates c).foldl (fun (p : Packing) k =>
    if !d.packBad c k && d.poisoned (c.list + 64 + 16 * k) 16 then { p with failed := p.failed ++ [(k, 0x0918, false)] } else p.place (d.packRow c) (bitAt (d.rdLe (c.list + 12) 4) 0) k (d.packLen c k) (d.packBad c k)) ⟨none, none, [], []⟩

/-- The source of a placed sample reads poisoned (R488). -/
def Dev.packPoison (d : Dev) (c : Cmd) (p : Placed) : Bool := d.poisoned (d.packSrc c p.entry) (p.len * d.tokenBytes c)

/-- The three outputs for one placed sample: tokens read before anything is written. -/
def Dev.putSample (d0 : Dev) (c : Cmd) (d : Dev) (p : Placed) : Dev :=
  if d0.packPoison c p then d else
  let tb := d0.tokenBytes c
  let at_ := p.row * d0.packRow c + p.off
  let src := d0.packSrc c p.entry
  let n := p.len * tb
  let d1 := d.wrBytes (d0.packOut c + at_ * tb) (d0.rdBytes src n)
  let d2 := if d0.packSeg c = 0 then d1 else d1.wrBytes (d0.packSeg c + 2 * at_) ((List.replicate p.len (toLe 2 p.seg)).flatten)
  if d0.packPos c = 0 then d2 else d2.wrBytes (d0.packPos c + 2 * at_) ((List.range p.len).flatMap fun k => toLe 2 k)

/-- The rows as padding (R488). Log: 123 (DEDUCED). -/
def Dev.putPadding (d : Dev) (c : Cmd) : Dev :=
  let n := c.nSlots * d.packRow c
  let tb := d.tokenBytes c
  let token := (List.range tb).map fun k => d.rdByte (c.list + 8 + k % 4)
  let d1 := d.wrBytes (d.packOut c) ((List.replicate n token).flatten)
  let z := fun (e : Dev) (a : Nat) => if a = 0 then e else e.wrBytes a (List.replicate (2 * n) 0)
  z (z d1 (d.packSeg c)) (d.packPos c)

/-- How each entry of a PACK command ends. What Table 16-6 does not state of an entry that was not placed is free.
Log: 123 (DEDUCED). -/
def Dev.packEnds (d : Dev) (c : Cmd) (p : Packing) : List PackEnd :=
  (List.range c.nEntries).map fun k =>
    let w := fun (m : Nat) => (Config.freeWord (d.free + 2 * k + m)).toNat
    match p.placed.find? fun x => x.entry == k with
    | some x => let bad := d.packPoison c x
      ⟨if bad then 0x0918 else 0, if x.cut then 32 else 0, x.row, x.off, if bad then 0 else x.len⟩
    | none =>
      match p.failed.find? fun x => x.1 == k with
      | some x => ⟨x.2.1, if x.2.2 then 32 else 0, w 0, w 1, 0⟩
      | none => ⟨0x0903, 0, w 0, w 1, 0⟩

/-- A free packing unit. -/
def Dev.freePacker (d : Dev) : Option Nat := [0, 1].find? fun u => d.get FLT_ENG_STAT.RETIRED (112 + u) == 0 && !d.med.packs.any fun p => p.unit == u

/-- PACK commands that may start now, so that the next in turn starts first (R472). -/
def Dev.packsReady (d : Dev) : List Cmd := d.que.cmds.filter fun c => c.opcode == 0x31 && c.phase == .waiting && d.ready c

/-- A PACK command starts: its checks at once, a poisoned selection map or header among them (R328; log 193 (DEDUCED)), then its placement and copying on a free unit (R474, R486 to R488). -/
def Dev.packStart (d : Dev) (c : Cmd) : Dev :=
  let rows := decide (1 ≤ c.nSlots) && decide (c.nSlots ≤ 4096) && c.dstBase == 0 && c.dstStride == 0
  if !(d.prepArgsOk c (64 + 16 * c.nEntries) (4 * c.nSlots) && rows) then
    d.prepRefuse c (c.prepFieldsOk && rows) (c.prepRanges (64 + 16 * c.nEntries) (4 * c.nSlots))
  else if d.poisoned c.selAddr (4 * c.nSel) || d.poisoned c.list 64 then d.finish c 0x0918
  else if !d.packHeaderOk c then (if d.packFieldsOk c then d.winCheck c.room (d.packRegions c) else d).finish c 0x0930
  else match d.freePacker, d.nextJob 6 d.packsReady 4 0 with
  | some u, some (id, lvl) =>
    if id ≠ c.id then d else
    let p := d.packing c
    let ends := d.packEnds c p
    let miss := (ends.filter fun e => e.status == 0x0931 || e.status == 0x0932).length
    let bad := (ends.filter fun e => e.status == 0x0910 || e.status == 0x0918).length
    let d1 := (p.placed.foldl (d.putSample c) (d.putPadding c)).winCheck c.room
      (((d.candidates c).filter fun k => d.packLen c k != 0).map fun k => (d.packSrc c k, min (d.packLen c k) (d.packRow c) * d.tokenBytes c))
    let d2 := if miss = 0 then d1 else (d1.count MED_PACK_MISS_CNT c.room miss).raise MED_PREP_STAT.PACK_EV c.room
    let d3 := if bad = 0 then d2 else (d2.count MED_PREP_REJECT_CNT c.room bad).raise MED_PREP_STAT.REJECT_EV c.room
    let d4 := ((d3.begin c .started 0).set MED_PACK_STAT.BUSY u 1).set MED_PACK_STAT.ROOM u c.room
    { d4 with
      free := d.free + 2 * c.nEntries
      med := { d4.med with
        rr := tset (fun _ => 0) d4.med.rr (24 + lvl) id
        packs := d4.med.packs ++ ([⟨u, id, ends, p.used, p.placed.length⟩] : List PackJob) } }
  | _, _ => d

/-- The traffic of a PACK command (R474): its list, the samples placed, its rows, marks and positions, its results and counts. -/
def Dev.packTraffic (d : Dev) (c : Cmd) : List (Bool × Nat × Nat) :=
  (false, c.list, 64 + 16 * c.nEntries)
    :: ((d.packing c).placed.map fun p => (false, d.packSrc c p.entry, p.len * d.tokenBytes c))
    ++ ((d.packRegions c).map fun p => (true, p.1, p.2)) ++ [(true, c.result, 32 * c.nEntries + 4 * c.nSlots)]

/-- A PACK command writes its results and row counts, and completes (R489), once its traffic has issued (R474); with 0x0411 where a
DEAD channel discards a part of what it writes (R333, R345). Log: 123 (DEDUCED). -/
def Dev.packDone (d0 : Dev) (u : Nat) : Dev :=
  match d0.med.packs.find? fun p => p.unit == u with
  | none => d0
  | some p =>
    match d0.cmd? p.cmd with
    | none => d0
    | some c =>
      let g := d0.gate (.pack u) c.room (d0.packTraffic c)
      let d := g.1
      if !g.2 then d else
      let d1 := (p.ends.zip (List.range p.ends.length)).foldl (fun e x => e.putEnd c x.2 x.1) d
      let d2 := d1.wrBytes (c.result + 32 * c.nEntries) (p.used.flatMap fun n => toLe 4 n)
      let d3 := ({ d2 with med := { d2.med with packs := d2.med.packs.filter fun x => x.unit != u } }).wr MED_PACK_STAT u 0
      let dead := (d.packTraffic c).any fun a => a.1 && d.deadRange a.2.1 a.2.2
      d3.complete c (if dead then 0x0411 else 0) (p.placed % 65536)

/-! ## The commands -/

def execPrep (id : Nat) (s : State) := s.onDev fun d =>
  match d.starts id 0x30 with
  | some c => d.prepStart c
  | none => d

def execEntryTake (g : Nat) (s : State) := s.onUnit 24 g fun d => d.entryTake g

def execEntryEnd (g : Nat) (s : State) := s.onUnit 24 g fun d => d.entryDone g

def execPack (id : Nat) (s : State) := s.onDev fun d =>
  match d.starts id 0x31 with
  | some c => d.packStart c
  | none => d

def execPackComplete (p : Nat) (s : State) := s.onUnit 2 p fun d => d.packDone p

end Sys2Proof.Machine
end

