-- ==== Sys2Proof/Machine/Video.lean ====
section
/-! DEFINITION. The video encoders: stream contexts and frame commands, which frame runs, source rows, rate control, chunks and
the ring, statistics and faults (Video encoding, R493 to R516). The coded bytes come from `Config`. -/

namespace Sys2Proof.Machine

/-! ## Streams -/

/-- Fields of ENC_OPEN's ARGS (Table 17-2). -/
def EncStream.w (s : EncStream) (n : Nat) : Nat := nth 0 s.words n
def EncStream.codec (s : EncStream) : Nat := bitsOf (s.w 2) 0 2
def EncStream.av1 (s : EncStream) : Bool := decide (2 ≤ s.codec)
def EncStream.ten (s : EncStream) : Bool := s.codec % 2 == 1
def EncStream.priv (s : EncStream) : Bool := bitAt (s.w 2) 2
def EncStream.mode (s : EncStream) : Nat := bitsOf (s.w 2) 3 2
def EncStream.qpMin (s : EncStream) : Nat := bitsOf (s.w 2) 5 6
def EncStream.qpMax (s : EncStream) : Nat := bitsOf (s.w 2) 11 6
def EncStream.qpInit (s : EncStream) : Nat := bitsOf (s.w 2) 17 6
def EncStream.chunkRows (s : EncStream) : Nat := bitsOf (s.w 2) 23 4 + 1
def EncStream.width (s : EncStream) : Nat := bitsOf (s.w 3) 0 16
def EncStream.height (s : EncStream) : Nat := bitsOf (s.w 3) 16 16
def EncStream.size (s : EncStream) : FVal := f32Nat (s.w 7)
/-- Log: 126 (DEDUCED). -/
def EncStream.keyInt (s : EncStream) : Nat := s.w 10
def EncStream.ring (s : EncStream) : Nat := s.w 11 + 2 ^ 32 * s.w 12
def EncStream.ringSize (s : EncStream) : Nat := s.w 13
def EncStream.wrAddr (s : EncStream) : Nat := s.w 14 + 2 ^ 32 * s.w 15
def EncStream.rdAddr (s : EncStream) : Nat := s.w 16 + 2 ^ 32 * s.w 17
def EncStream.vector (s : EncStream) : Nat := bitsOf (s.w 18) 0 11
def EncStream.irq (s : EncStream) : Bool := bitAt (s.w 18) 11
def EncStream.ptrHost (s : EncStream) : Bool := bitAt (s.w 18) 12
def EncStream.ref (s : EncStream) : Nat := s.w 21 + 2 ^ 32 * s.w 22

/-- Blocks per row, block rows, chunks of a frame (R493, R500). -/
def EncStream.wb (s : EncStream) : Nat := ceilDiv s.width 64
def EncStream.hb (s : EncStream) : Nat := ceilDiv s.height 64
def EncStream.nChunks (s : EncStream) : Nat := ceilDiv s.hb s.chunkRows

/-- Bytes of a sample, and of one reference buffer (Table 17-2). -/
def EncStream.sampleBytes (s : EncStream) : Nat := if s.ten then 2 else 1
def EncStream.refBytes (s : EncStream) : Nat :=
  ceilDiv (s.width * s.sampleBytes) 128 * 128 * (s.height + ceilDiv s.height 2)

/-- R/f in FP32 (R510). -/
def EncStream.perFrame (s : EncStream) : FVal := f32Div (f32Nat (s.w 6)) (f32Div (f32Nat (s.w 4)) (f32Nat (s.w 5)))

/-- Bytes of a context (R497). -/
def ctxBytes : Nat := 262144

/-- No field of ENC_OPEN's ARGS is reserved or out of its range (R498, R494, R578, Table 17-2). -/
def EncStream.fieldsOk (s : EncStream) : Bool :=
  let top := if s.av1 then 63 else 51
  let side := fun (n least most : Nat) => decide (least ≤ n) && decide (n ≤ most) && n % 8 == 0
  decide (s.ctx < 2 ^ 52) && s.ctx % 65536 == 0 && s.mode != 3
    && decide (s.qpMin ≤ s.qpInit) && decide (s.qpInit ≤ s.qpMax) && decide (s.qpMax ≤ top) && bitsOf (s.w 2) 27 5 == 0
    && side s.width 64 8192 && side s.height 64 4320
    && decide (1 ≤ s.w 5) && decide (s.w 5 ≤ s.w 4) && decide (s.w 4 ≤ 480 * s.w 5)
    && (s.mode == 2 || (decide (100000 ≤ s.w 6) && decide (s.w 6 ≤ 400000000) && !(f32Nat (s.w 8)).lt s.perFrame && decide (s.w 8 ≤ s.w 7)))
    && bitsOf (s.w 9) 16 16 == 0 && decide (s.ring < 2 ^ 52) && s.ring % 4096 == 0 && s.ringSize % 4096 == 0 && decide (65536 ≤ s.ringSize)
    && bitsOf (s.w 18) 13 19 == 0 && !(s.irq && decide (112 ≤ s.vector)) && decide (s.ref < 2 ^ 52) && s.w 23 == 0

/-- The open stream of a Room with a context address. -/
def Dev.stream? (d : Dev) (r ctx : Nat) : Option EncStream := d.vc.streams.find? fun s => s.room == r && s.ctx == ctx

/-- Replace a stream. -/
def Dev.setStream (d : Dev) (s : EncStream) : Dev :=
  { d with vc := { d.vc with streams := d.vc.streams.map fun x => if x.room == s.room && x.ctx == s.ctx then s else x } }

/-- Forget a stream and release its privileged window (R499, R507). -/
def Dev.dropStream (d : Dev) (s : EncStream) : Dev :=
  let d1 := { d with vc := { d.vc with streams := d.vc.streams.filter fun x => !(x.room == s.room && x.ctx == s.ctx) } }
  match s.window with
  | some w => d1.set VC_PRIV.IN_USE w 0
  | none => d1

/-- The window to which a privileged stream is bound (R507). -/
def Dev.freeWindow (d : Dev) (r : Nat) : Option Nat :=
  [0, 1].find? fun w => d.get VC_PRIV.ROOM_EN w == 1 && d.get VC_PRIV.ROOM w == r && d.get VC_PRIV.IN_USE w == 0

/-- The stream has a frame in the encoders. -/
def Dev.hasFrame (d : Dev) (r ctx : Nat) : Bool := d.vc.frames.any fun f => f.room == r && f.ctx == ctx

/-- The buffers that ENC_OPEN names (R498, R499). -/
def EncStream.ranges (s : EncStream) : List (Nat × Nat) := [(s.ctx, ctxBytes), (s.ring, s.ringSize), (s.ref, 3 * s.refBytes)]

/-- ENC_OPEN (R498). A context that is open is closed first. Log: 124 (DESIGN CHOICE); 125 (DESIGN CHOICE). -/
def Dev.encOpen (d : Dev) (c : Cmd) : Dev :=
  let ws := c.words.drop 8
  let s : EncStream := ⟨c.room, c.arg64 0, ws, none, 0, 0, 0, true, (conv 0 (f32Nat (nth 0 ws 8))).1, nth 0 ws 2, 0, 0⟩
  if d.hasFrame c.room s.ctx then d else
  let d0 := match d.stream? c.room s.ctx with
    | some old => d.dropStream old
    | none => d
  let fmin := f32Nat (Config.encFmin ((ws.drop 2).take 9))
  let win := d0.freeWindow c.room
  let code := firstCode [
    need s.fieldsOk 0x0A01,
    need (inside (d.ftWin c.room) s.ctx ctxBytes && d.inWindows c.room s.ring s.ringSize && d.inWindows c.room s.ref (3 * s.refBytes)) 0x0A02,
    need (s.mode == 2 || !(s.perFrame.lt fmin || s.size.lt fmin)) 0x0A03,
    need (!s.priv || win.isSome) 0x0A04]
  if code ≠ 0 then (if code = 0x0A02 then d.winCheck c.room s.ranges else d).finish c code else
  let w := if s.priv then win else none
  let d1 := match w with
    | some k => d0.set VC_PRIV.IN_USE k 1
    | none => d0
  let s1 := { s with window := w, lastQp := s.qpInit, hist := Config.encNext 0 ((ws.drop 2).take 9) [] }
  let d2 := { d1 with vc := { d1.vc with streams := d1.vc.streams ++ [s1] } }
  (d2.scrambleOut s.ctx ctxBytes).finish c 0

/-- ENC_CLOSE (R499): it waits for the stream's frames. Log: 125 (DESIGN CHOICE). -/
def Dev.encClose (d : Dev) (c : Cmd) : Dev :=
  if d.hasFrame c.room (c.arg64 0) then d else
  match d.stream? c.room (c.arg64 0) with
  | some s => (d.dropStream s).finish c 0
  | none => d.finish c 0x0A05

/-! ## Frames -/

/-- ENC_FRAME's ARGS are in order (Table 17-3, R514). -/
def Cmd.encOk (c : Cmd) : Bool :=
  [0, 2, 5, 7, 9].all (fun k => decide (c.arg64 k < 2 ^ 52)) && c.arg 4 % 64 == 0 && decide (c.arg 11 < 3) && zeroFrom (c.words.drop 8) 13

/-- ENC_FRAME (R499): the frame is queued behind the earlier frames of its stream. -/
def Dev.encFrame (d : Dev) (c : Cmd) : Dev :=
  if !c.encOk then d.finish c 0x0A01
  else if (d.stream? c.room (c.arg64 0)).isNone then d.finish c 0x0A05
  else
    let d1 := d.begin c .started 0
    let f : EncFrame := ⟨c.id, c.room, c.arg64 0, none, false, false, 0, 0, 0, 0, 0, false, 0, 0, 0, 0, .nan, false, 0, .rows, 0⟩
    { d1 with vc := { d1.vc with frames := d1.vc.frames ++ [f] } }

/-- Replace a frame, and show an engine (Table 17-8). -/
def Dev.showEnc (d : Dev) (e : Nat) : Dev :=
  match d.vc.frames.find? fun f => f.engine == some e with
  | none => d.wr VC_ENG_STAT e 0
  | some f =>
    let lvl := ((d.cmd? f.cmd).map fun c => c.level).getD 0
    let waits := match f.phase with
      | .rows => true
      | .ring _ => true
      | _ => false
    (((d.set VC_ENG_STAT.BUSY e 1).set VC_ENG_STAT.ROOM e f.room).set VC_ENG_STAT.LEVEL e lvl).set VC_ENG_STAT.WAITING e (bit waits)

def Dev.setFrame (d : Dev) (f : EncFrame) : Dev :=
  let d1 := { d with vc := { d.vc with frames := d.vc.frames.map fun x => if x.cmd == f.cmd then f else x } }
  match f.engine with
  | some e => d1.showEnc e
  | none => d1

/-- The frame that an engine holds, with its stream and command. -/
structure Coding where
  f : EncFrame
  s : EncStream
  c : Cmd
  deriving DecidableEq, Repr

/-- A frame with its stream and command. -/
def Dev.codingOf (d : Dev) (f : EncFrame) : Option Coding :=
  match d.stream? f.room f.ctx, d.cmd? f.cmd with
  | some s, some c => some ⟨f, s, c⟩
  | _, _ => none
def Dev.coding? (d : Dev) (e : Nat) : Option Coding :=
  match d.vc.frames.find? fun f => f.engine == some e with
  | some f => d.codingOf f
  | none => none

/-- Fields of the frame command (Table 17-3). -/
def Coding.src (k : Coding) : Nat := k.c.arg64 2
def Coding.pitch (k : Coding) : Nat := k.c.arg 4
def Coding.rowsAddr (k : Coding) : Nat := k.c.arg64 5
def Coding.stats (k : Coding) : Nat := k.c.arg64 7
def Coding.hint (k : Coding) : Nat := k.c.arg64 9
def Coding.repeats (k : Coding) : Bool := bitAt (k.c.arg 11) 1

/-- Chroma rows of the source. -/
def Coding.chromaRows (k : Coding) : Nat := ceilDiv k.s.height 2

/-! ## Rate control (R510 to R512) -/

/-- E, and G with blocks and chunk headers left. -/
def EncFrame.e (f : EncFrame) : Nat := if f.key then 4096 else 1024
def EncFrame.g (f : EncFrame) (blocks chunks : Nat) : FVal :=
  f32Add (f32Add (f32Mul (f32Nat 40) (f32Nat blocks)) (f32Mul (f32Nat 512) (f32Nat chunks))) (f32Nat f.e)

/-- U_n, and L_n of a CBR stream. -/
def EncStream.u (s : EncStream) : FVal := elemRaw 0 s.occ
def EncStream.l (s : EncStream) : FVal := f32Sub (f32Add s.u s.perFrame) s.size

/-- T_n (R512). Where L_n exceeds U_n − G_0 the upper limit holds. Log: 128 (DEDUCED). -/
def EncStream.target (s : EncStream) (f : EncFrame) : FVal :=
  let w := if f.key then (FVal.num false (bitsOf (s.w 9) 8 8) (-4)) else f32One
  let fill := f32Mul s.size (.num false (bitsOf (s.w 9) 0 8) (-8))
  let t := f32Add (f32Mul s.perFrame w) (f32Div (f32Sub s.u fill) (.num false 4 0))
  let t1 := if s.mode = 0 && t.lt s.l then s.l else t
  let top := f32Sub s.u (f.g (s.wb * s.hb) s.nChunks)
  if top.lt t1 then top else t1

/-- round(6 × log2(a / b)) in FP32, none where the quotient is not a positive finite number. Log: 127 (DEDUCED). -/
def sixLog2 (a b : FVal) : Option Int :=
  match f32Div a b with
  | .num false m e =>
    if m = 0 then none else
    match f32Mul (.num false 6 0) (f32 (ofFixed (fxDiv (lnFixed m e) fxLn2))) with
    | .num s n k => some (signedMag s (rneShift n k))
    | _ => none
  | _ => none

/-- A QP limited to QP_MIN to QP_MAX; with no step stated, a free value in that range. Log: 127 (DEDUCED). -/
def EncStream.stepQp (s : EncStream) (free qp : Nat) (step : Option Int) : Nat :=
  match step with
  | some k => (min (max ((qp : Int) + k) s.qpMin) s.qpMax).toNat
  | none => s.qpMin + free % (s.qpMax - s.qpMin + 1)

/-- The bits of a part of the frame, within the reserve that R510 makes for it. Log: 130 (DESIGN CHOICE). -/
def EncFrame.partBits (f : EncFrame) (kind k : Nat) : Nat :=
  let n := Config.encBits f.hist kind k f.qp
  match kind with
  | 0 => n
  | 1 => min n 40
  | 2 => min n 512
  | 3 => min n f.e
  | _ => min n (f.e - min (Config.encBits f.hist 3 0 f.qp) f.e)

/-- One block (R510): coded, or replaced by a forced skip. Log: 130 (DESIGN CHOICE). -/
def EncFrame.block (s : EncStream) (repeats : Bool) (f : EncFrame) (k : Nat) : EncFrame :=
  let left := s.wb * s.hb - k - 1
  let chunksLeft := s.nChunks - f.row / s.chunkRows - 1
  let n := f.partBits (if repeats then 1 else 0) k
  let fits := s.mode == 2 || !s.u.lt (f32Add (f32Add (f32Nat f.bits) (f32Nat n)) (f.g left chunksLeft))
  if !f.forced && fits then { f with bits := f.bits + n, chunkBits := f.chunkBits + n }
  else
    let m := f.partBits 1 k
    { f with bits := f.bits + m, chunkBits := f.chunkBits + m, forced := true, skips := f.skips + 1 }

/-- The QP of the next row (R512), after `row` rows. -/
def EncFrame.nextQp (s : EncStream) (free : Nat) (f : EncFrame) : Nat :=
  if s.mode = 2 then f.qp else
  let u := f32Nat f.bits
  let p := f32Add u (f32Mul (f32Div u (f32Nat f.row)) (f32Nat (s.hb - f.row)))
  let g := f.g (s.wb * (s.hb - f.row)) (s.nChunks - ceilDiv f.row s.chunkRows)
  if (f32Sub s.u g).lt p then s.qpMax
  else s.stepQp free f.qp ((sixLog2 p f.target).map fun k => min (max k (-4)) 4)

/-! ## The end of a frame -/

/-- The occupancy after a frame of `b` bits (R510, R513). Log: 126 (DEDUCED). -/
def EncStream.after (s : EncStream) (b : Nat) : Nat :=
  let a := f32Add (f32Sub s.u (f32Nat b)) s.perFrame
  (conv 0 (if s.mode = 1 && s.size.lt a then s.size else a)).1

/-- A frame ends (R499, R510, R513): the stream moves on, the context and the buffer of the reconstructed frame change, and the
command completes. -/
def Dev.frameEnds (d : Dev) (k : Coding) (code : Nat) : Dev :=
  let b := if code = 0 then k.f.bits else k.f.emitted
  let s := { k.s with
    hist := k.f.hist
    frames := k.s.frames + 1
    sinceKey := if k.f.key then 1 else k.s.sinceKey + 1
    needKey := code != 0
    occ := if k.s.mode = 2 then k.s.occ else k.s.after b
    lastQp := k.f.qp
    lastBits := b }
  let d1 := (d.setStream s).scrambleOut s.ctx ctxBytes
  let d2 := d1.scrambleOut (s.ref + Config.encBuffer k.f.hist % 3 * s.refBytes) s.refBytes
  let d3 := { d2 with vc := { d2.vc with frames := d2.vc.frames.filter fun f => f.cmd != k.f.cmd } }
  let d4 := match k.f.engine with
    | some e => d3.showEnc e
    | none => d3
  let d5 := if code = 0 then d4 else d4.raise VC_STAT.FAIL_EV k.f.room
  (d5.settleDues k.c.id).complete k.c code (k.f.qp % 256 + 256 * (k.f.chunks % 256))

/-- A frame ends early (R513); an access outside the windows also sets WIN_EV (R317). -/
def Dev.frameFails (d : Dev) (k : Coding) (code : Nat) : Dev :=
  (if code = 0x0401 then d.raise MEM_ROOM_STAT.WIN_EV k.f.room else d).frameEnds k code

/-- The accesses of a frame's next piece issue as its Room's balances allow (R322, R332). -/
def Dev.frameGate (d : Dev) (k : Coding) (acc : List (Bool × Nat × Nat)) : Dev × Bool := d.gate (.frame k.c.id) k.f.room acc

/-- The statistics of a frame (Table 17-4). A_BEFORE of a CQP stream, which has no A_n, is free. Log: 126 (DEDUCED). -/
def Dev.statBytes (d : Dev) (k : Coding) : List (BitVec 8) :=
  let a := if k.s.mode = 2 then d.freeWord else k.s.occ
  let n := ceilDiv k.s.width 16 * ceilDiv k.s.height 16
  toLe 8 k.s.frames ++ toLe 4 k.f.bits ++ toLe 4 a ++ toLe 1 k.f.qpFirst ++ toLe 1 k.f.qp ++ toLe 1 (bit k.f.key) ++ toLe 1 0
    ++ toLe 4 k.f.skips ++ toLe 4 k.f.filler ++ toLe 36 0
    ++ (List.range n).flatMap fun j =>
      let v := (Config.encStat k.f.hist j).toNat
      toLe 8 (if k.f.key then v / 2 ^ 32 * 2 ^ 32 else v)

/-- Bytes of the statistics (R509). -/
def Coding.statLen (k : Coding) : Nat := 64 + 8 * (ceilDiv k.s.width 16 * ceilDiv k.s.height 16)

/-- The statistics of a frame can be written: they are asked for and lie in the windows. -/
def Dev.statsGo (d : Dev) (k : Coding) : Bool := k.stats != 0 && d.inWindows k.f.room k.stats k.statLen

/-- A frame whose last chunk is out (R509): its statistics, and its end. A DEAD channel that discards a part of them ends it with
0x0411 (R333, R345). -/
def Dev.frameDone (d : Dev) (k : Coding) : Dev :=
  if k.stats = 0 then d.frameEnds k 0
  else if !d.statsGo k then d.frameFails k 0x0401
  else if d.deadRange k.stats k.statLen then d.frameFails k 0x0411
  else ((d.wrBytes k.stats (d.statBytes k)).drew).frameEnds k 0

/-! ## Which frame runs (R505) -/

/-- The window of engine `e`. -/
def windowOf (e : Nat) : Option Nat := if e = 0 then some 0 else if e = 4 then some 1 else none

/-- A waiting frame that engine `e` may take: the first of its stream, and a privileged stream's only on its window's engine. In a
HELD Room the frames that no engine has taken yet wait (R125, R514). -/
def Dev.mayTake (d : Dev) (e : Nat) (f : EncFrame) : Bool :=
  f.engine.isNone && (f.begun || d.roomState f.room != stHeld) && (match d.vc.frames.find? fun x => x.room == f.room && x.ctx == f.ctx with
    | some x => x.cmd == f.cmd
    | none => false)
  && (match d.stream? f.room f.ctx with
    | some s => s.window.isNone || s.window == windowOf e
    | none => false)

/-- The waiting frames of engine `e` as commands, and the level of the most urgent. -/
def Dev.waiting (d : Dev) (e : Nat) : List Cmd := (d.vc.frames.filter (d.mayTake e)).filterMap fun f => d.cmd? f.cmd

/-- The frame that engine `e` takes next: number and level. A privileged stream's wins ties of level. -/
def Dev.nextFrame (d : Dev) (e : Nat) : Option (Nat × Nat) :=
  let cs := d.waiting e
  match d.nextJob 7 cs 4 0 with
  | none => none
  | some (id, lvl) =>
    let priv := cs.find? fun c => c.level == lvl && (match d.stream? c.room (c.arg64 0) with
      | some s => s.window.isSome
      | none => false)
    match priv with
    | some c => some (c.id, lvl)
    | none => some (id, lvl)

/-- A frame is taken for the first time: whether it is a key frame, its QP and target (R498, R510, R512), and its frame-level
units. Log: 126 (DEDUCED). -/
def Dev.frameBegins (d : Dev) (k : Coding) : EncFrame :=
  let s := k.s
  let key := s.needKey || bitAt (k.c.arg 11) 0 || (s.keyInt != 0 && decide (s.keyInt ≤ s.sinceKey))
  let h := Config.encNext s.hist [bit key, k.c.arg 11, k.c.arg 12] []
  let f := { k.f with begun := true, key := key, hist := h }
  let t := s.target f
  let qp := if s.mode = 2 || s.frames = 0 then s.qpInit else s.stepQp d.freeWord s.lastQp (sixLog2 (f32Nat s.lastBits) t)
  let f1 := { f with target := t, qp := qp, qpFirst := qp }
  let n := f1.partBits 3 0
  { f1 with bits := n, chunkBits := n }

/-- A frame that has reached QP_MAX counts once (R512). -/
def Dev.capCheck (d : Dev) (s : EncStream) (f : EncFrame) : Dev × EncFrame :=
  if s.mode ≠ 2 && f.qp = s.qpMax && !f.capped then
    ((d.count VC_CAP_CNT f.room 1).raise VC_STAT.CAP_EV f.room, { f with capped := true })
  else (d, f)

/-- Engine `e` takes the next frame, if there is one. A source or hint map outside the windows ends it at once (R513, R508). -/
def Dev.takeFrame (d : Dev) (e : Nat) : Dev :=
  if d.get FLT_ENG_STAT.RETIRED (114 + e) = 1 then d.showEnc e else
  match d.nextFrame e with
  | none => d
  | some (id, lvl) =>
    match d.vc.frames.find? fun f => f.cmd == id with
    | none => d
    | some f0 =>
      let d0 := { d with med := { d.med with rr := tset (fun _ => 0) d.med.rr (28 + lvl) id } }
      match d0.codingOf f0 with
      | none => d
      | some k =>
        let f := if f0.begun then f0 else d0.frameBegins k
        let f := { f with engine := some e, phase := .rows, since := d.now }
        let q := if f0.begun then (d0, f) else d0.drew.capCheck k.s f
        let d1 := q.1.setFrame q.2
        let k1 := { k with f := q.2 }
        if f0.begun then d1
        else if !k.repeats && !d.inWindows f.room k.src (k.pitch * (k.s.height + k.chromaRows)) then d1.frameFails k1 0x0401
        else if k.hint ≠ 0 && !d.inWindows f.room k.hint (4 * k.s.wb * k.s.hb) then d1.frameFails k1 0x0401
        else if k.rowsAddr ≠ 0 && !d.inWindows f.room k.rowsAddr 4 then d1.frameFails k1 0x0401
        else d1

/-- At a block-row boundary a more urgent waiting frame takes the engine, and the frame in progress is saved (R505).
Log: 129 (DEDUCED). -/
def Dev.preempt (d : Dev) (e : Nat) : Dev :=
  match d.coding? e, d.nextFrame e with
  | some k, some (_, lvl) =>
    if k.f.phase = .rows && decide (lvl < k.c.level) then
      (((d.setFrame { k.f with engine := none }).scrambleOut k.s.ctx ctxBytes).count VC_PREEMPT_CNT k.f.room 1).takeFrame e
    else d
  | _, _ => d

/-! ## Rows -/

/-- The counter holds the rows that the next block row needs (R503). Log: 129 (DEDUCED). -/
def Dev.rowsThere (d : Dev) (k : Coding) : Bool :=
  k.rowsAddr == 0 || k.repeats || decide (min k.s.height (64 * (k.f.row + 2)) ≤ d.rdLe k.rowsAddr 4)

/-- The next block row starts, if its rows are there. The read of the counter waits for tokens and for its channel (R322, R332).
A poisoned counter or pointer is used as it reads. Log: 129 (DEDUCED). -/
def Dev.rowStart (d : Dev) (e : Nat) : Dev :=
  match d.coding? e with
  | none => d
  | some k =>
    if k.f.phase ≠ .rows then d
    else if k.rowsAddr = 0 || k.repeats then d.setFrame { k.f with phase := .coding }
    else if d.requestWaits (some k.f.room) k.rowsAddr 4 then d.heldAt (some k.f.room) k.rowsAddr
    else
      let d1 := d.payOne (some k.f.room) false k.rowsAddr 4
      if d.rowsThere k then d1.setFrame { k.f with phase := .coding } else d1

/-- The source ranges of a block row: luma, Cb and Cr. Log: 129 (DEDUCED). -/
def Coding.rowRanges (k : Coding) : List (Nat × Nat) :=
  let p := k.pitch
  let y0 := 64 * k.f.row
  let y1 := min k.s.height (y0 + 64)
  let c0 := 32 * k.f.row
  let c1 := min k.chromaRows (c0 + 32)
  let cb := k.src + p * k.s.height
  let cr := cb + p / 2 * k.chromaRows
  [(k.src + p * y0, p * (y1 - y0)), (cb + p / 2 * c0, p / 2 * (c1 - c0)), (cr + p / 2 * c0, p / 2 * (c1 - c0))]

/-- A sector of the reference buffers that the row reads is poisoned (R506). -/
def Dev.refPoison (d : Dev) (k : Coding) : Bool :=
  !k.f.key && (sectorsOf k.s.ref (3 * k.s.refBytes)).any fun a => d.badSector a && Config.encReads k.f.hist k.f.row (a - k.s.ref)

/-- The ranges that a block row reads besides the reference buffers: source and hints. -/
def Coding.rowReads (k : Coding) : List (Nat × Nat) :=
  (if k.repeats then [] else k.rowRanges) ++ (if k.hint = 0 then [] else [(k.hint + 4 * k.s.wb * k.f.row, 4 * k.s.wb)])

/-- What a block row reads and writes in memory: its inputs, and the reference buffers and the context to an extent that the
manual does not state. Log: 124 (DESIGN CHOICE). -/
def Coding.rowTraffic (k : Coding) : List (Bool × Nat × Nat) :=
  (k.rowReads.map fun a => (false, a.1, a.2)) ++ [(false, k.s.ref, Config.encTraffic k.f.hist k.f.row)]

/-- A block row ends (R505, R510, R512, R513), once its accesses have issued (R322). -/
def Dev.rowEnd (dev : Dev) (e : Nat) : Dev :=
  match dev.coding? e with
  | none => dev
  | some k =>
    if k.f.phase ≠ .coding then dev else
    let ranges := k.rowReads
    let g := dev.frameGate k k.rowTraffic
    let d := g.1
    if !g.2 then d
    else if ranges.any fun a => d.poisoned a.1 a.2 then d.frameFails k 0x0A10
    else if d.refPoison k then d.frameFails k 0x0A13
    else
      let f0 := k.f
      let h := Config.encNext f0.hist [f0.row] (ranges.flatMap fun a => d.rdBytes a.1 a.2)
      let d1 := d
      let head := if f0.row % k.s.chunkRows = 0 then ({ f0 with hist := h }).partBits 2 (f0.row / k.s.chunkRows) else 0
      let f1 := { f0 with hist := h, bits := f0.bits + head, chunkBits := f0.chunkBits + head }
      let f2 := (List.range k.s.wb).foldl (fun f j => f.block k.s k.repeats (k.s.wb * f0.row + j)) f1
      let forced := f2.skips - f0.skips
      let d2 := if forced = 0 then d1 else (d1.count VC_SKIP_CNT f0.room forced).raise VC_STAT.SKIP_EV f0.room
      let f3 := { f2 with row := f0.row + 1 }
      let last := decide (k.s.hb ≤ f3.row)
      let f4 := if last then
          let n := f3.partBits 4 0
          { f3 with bits := f3.bits + n, chunkBits := f3.chunkBits + n }
        else { f3 with qp := f3.nextQp k.s d2.freeWord }
      let q := d2.drew.capCheck k.s f4
      if last || f3.row % k.s.chunkRows = 0 then q.1.setFrame { q.2 with phase := .chunk false, since := d.now }
      else (q.1.setFrame { q.2 with phase := .rows, since := d.now }).preempt e

/-! ## Chunks and the ring (R500 to R502, R511) -/

/-- Bytes of the chunk that waits. -/
def EncFrame.chunkBytes (f : EncFrame) (filler : Bool) : Nat := if filler then f.filler else ceilDiv f.chunkBits 8

/-- Bytes of filler that a frame needs after its last chunk (R511). -/
def Coding.fill (k : Coding) : Nat :=
  match f32Sub k.s.l (f32Nat k.f.bits) with
  | .num false m x => if k.s.mode = 0 then ceilDiv (rneShift m (x + 40)) (8 * 2 ^ 40) else 0
  | _ => 0

/-- RD_PTR: from device memory, or as the host's memory answers. -/
def Dev.rdPtr (d : Dev) (k : Coding) (host : Nat) : Nat := if k.s.ptrHost then host % 2 ^ 64 else d.rdLe k.s.rdAddr 8

/-- The chunk fits the ring (R502). -/
def Dev.ringFits (d : Dev) (k : Coding) (filler : Bool) (host : Nat) : Bool :=
  decide ((k.s.written + 2 ^ 64 - d.rdPtr k host) % 2 ^ 64 + k.f.chunkBytes filler ≤ k.s.ringSize)

/-- The ranges of the ring that the next `n` bytes fill, wrapping past its end (R501). -/
def EncStream.ringRanges (s : EncStream) (n : Nat) : List (Nat × Nat) :=
  let o := s.written % s.ringSize
  let m := min n (s.ringSize - o)
  [(s.ring + o, m), (s.ring, n - m)]

/-- Bytes written into the ring, wrapping past its end. -/
def Dev.ringWrite (d : Dev) (s : EncStream) (bs : List (BitVec 8)) : Dev :=
  let m := min bs.length (s.ringSize - s.written % s.ringSize)
  (d.wrBytes (s.ring + s.written % s.ringSize) (bs.take m)).wrBytes s.ring (bs.drop m)

/-- What a chunk writes: its bytes, WR_PTR where that lies in device memory, and the statistics that follow the frame's last
chunk. -/
def Dev.chunkWrites (d : Dev) (k : Coding) (filler : Bool) : List (Bool × Nat × Nat) :=
  let last := decide (k.s.hb ≤ k.f.row) && (filler || k.fill == 0)
  ((k.s.ringRanges (k.f.chunkBytes filler)).map fun a => (true, a.1, a.2))
    ++ (if k.s.ptrHost then [] else [(true, k.s.wrAddr, 8)]) ++ (if last && d.statsGo k then [(true, k.stats, k.statLen)] else [])

/-- A chunk is written, WR_PTR follows it, then the message is sent (R501); the frame goes on to its next row, its filler or its
end. -/
def Dev.chunkOut (dev : Dev) (e : Nat) (k : Coding) (filler : Bool) : Dev :=
  let f := k.f
  let s := k.s
  if !s.ptrHost && !dev.inWindows f.room s.wrAddr 8 then dev.frameFails k 0x0401 else
  let g := dev.frameGate k (dev.chunkWrites k filler)
  let d := g.1
  let n := f.chunkBytes filler
  if !g.2 then d
  else if (s.ringRanges n).any (fun a => d.deadRange a.1 a.2) || (!s.ptrHost && d.deadRange s.wrAddr 8) then d.frameFails k 0x0411 else
  let d1 := d.ringWrite s ((List.range n).map (Config.encByte f.hist f.chunks))
  let total := (s.written + n) % 2 ^ 64
  let d2 := if s.ptrHost then d1.send (.hostWrite (1 + f.room) s.wrAddr (toLe 8 total)) else d1.wrBytes s.wrAddr (toLe 8 total)
  let d3 := if s.irq then d2.msix (1 + f.room) s.vector else d2
  let s1 := { s with written := total }
  let d4 := d3.setStream s1
  let f1 := { f with chunks := f.chunks + 1, emitted := f.emitted + (if filler then 8 * n else f.chunkBits), chunkBits := 0 }
  if filler then
    let d5 := d4.count VC_FILLER_BYTES f.room n
    d5.frameDone ⟨f1, s1, k.c⟩
  else if f.row < s.hb then (d4.setFrame { f1 with phase := .rows, since := d.now }).preempt e
  else
    let fill := k.fill
    if fill = 0 then d4.frameDone ⟨f1, s1, k.c⟩
    else d4.setFrame { f1 with filler := fill, bits := f1.bits + 8 * fill, phase := .chunk true, since := d.now }

/-- The chunk in hand has begun to pay for its writes: its place in the ring has been found. -/
def Dev.placed (d : Dev) (k : Coding) : Bool := d.memx.dues.any fun x => x.payer == .frame k.c.id

/-- RD_PTR is read (R502): none while a pointer in device memory waits for tokens or for its channel (R322, R332). -/
def Dev.pointerRead (d : Dev) (k : Coding) : Dev × Bool :=
  if k.s.ptrHost then (d, true)
  else if d.requestWaits (some k.f.room) k.s.rdAddr 8 then (d.heldAt (some k.f.room) k.s.rdAddr, false)
  else (d.payOne (some k.f.room) false k.s.rdAddr 8, true)

/-- A chunk goes out, or waits for ring space (R502): `wait` is the state in which it waits. -/
def Dev.chunkTry (d : Dev) (e : Nat) (k : Coding) (filler : Bool) (host : Nat) (wait : Dev → Dev) : Dev :=
  if d.placed k then d.chunkOut e k filler
  else if !k.s.ptrHost && !d.inWindows k.f.room k.s.rdAddr 8 then d.frameFails k 0x0401
  else
    let p := d.pointerRead k
    if !p.2 then p.1
    else if d.ringFits k filler host then p.1.chunkOut e k filler
    else wait p.1

/-- A chunk is emitted, or begins to wait for ring space (R502). -/
def Dev.chunkEmit (d : Dev) (e host : Nat) : Dev :=
  match d.coding? e with
  | none => d
  | some k =>
    match k.f.phase with
    | .chunk filler => d.chunkTry e k filler host fun x =>
        (x.setFrame { k.f with phase := .ring filler, since := d.now }).count VC_RING_WAIT_CNT k.f.room 1
    | _ => d

/-- RD_PTR is read again (R502). -/
def Dev.ringPoll (d : Dev) (e host : Nat) : Dev :=
  match d.coding? e with
  | none => d
  | some k =>
    match k.f.phase with
    | .ring filler => d.chunkTry e k filler host id
    | _ => d

/-- A wait longer than a limit in µs, 0 for none. -/
def Dev.waited (d : Dev) (since us : Nat) : Bool := us != 0 && decide (since + 1000 * us < d.now)

/-- A wait for source rows runs out (R503); a row whose rows are there starts (R514). -/
def Dev.rowsTimeout (d : Dev) (e : Nat) : Dev :=
  match d.coding? e with
  | none => d
  | some k =>
    if k.f.phase ≠ .rows then d
    else if d.rowsThere k then d.rowStart e
    else if d.waited k.f.since (k.s.w 19) then d.frameFails k 0x0A11 else d

/-- A wait for ring space runs out (R513). -/
def Dev.ringTimeout (d : Dev) (e : Nat) : Dev :=
  match d.coding? e with
  | none => d
  | some k =>
    match k.f.phase with
    | .ring _ => if d.waited k.f.since (k.s.w 20) && !d.placed k then d.frameFails k 0x0A12 else d
    | _ => d

/-- A write of VC_PRIV (R514, R516): by the physical function, ignored while the window serves a stream. -/
def Dev.privWrite (d : Dev) (fn w v : Nat) : Dev :=
  if fn = 0 && d.get VC_PRIV.IN_USE w == 0 then (d.set VC_PRIV.ROOM_EN w v).set VC_PRIV.ROOM w (v / 2) else d

/-! ## The commands -/

def execEncOpen (id : Nat) (s : State) := s.onDev fun d =>
  match d.starts id 0x40 with
  | some c => d.encOpen c
  | none => d

def execEncFrame (id : Nat) (s : State) := s.onDev fun d =>
  match d.starts id 0x41 with
  | some c => d.encFrame c
  | none => d

def execEncClose (id : Nat) (s : State) := s.onDev fun d =>
  match d.starts id 0x42 with
  | some c => d.encClose c
  | none => d

def execBlockRowStart (e : Nat) (s : State) := s.onDev fun d =>
  if 8 ≤ e then d
  else if (d.coding? e).isNone then (d.takeFrame e).rowStart e
  else (d.preempt e).rowStart e

def execRowCounterPoll (e : Nat) (s : State) := s.onUnit 8 e fun d => d.rowStart e

def execBlockRowEnd (e : Nat) (s : State) := s.onUnit 8 e fun d => d.rowEnd e

def execChunkEmit (e host : Nat) (s : State) := s.onUnit 8 e fun d => d.chunkEmit e host

def execRingPoll (e host : Nat) (s : State) := s.onUnit 8 e fun d => d.ringPoll e host

def execRowsTimeout (e : Nat) (s : State) := s.onUnit 8 e fun d => d.rowsTimeout e

def execRingTimeout (e : Nat) (s : State) := s.onUnit 8 e fun d => d.ringTimeout e

end Sys2Proof.Machine
end

