-- ==== Sys2Proof/Machine/Age.lean ====
section
/-! DEFINITION. Ageing and margins: the sensors, the guard, Terms, the re-plan of supply offsets, eye scans and the Report
card (Faults, spares, ageing and margins, R532 to R538). -/

namespace Sys2Proof.Machine

/-! ## The SPI NOR flash (Table 20-4) -/

/-- One byte of the flash. -/
def Dev.flashByte (d : Dev) (a : Nat) : BitVec 8 := tget Config.factoryFlash d.mgmt.flash a

/-- `n` bytes of the flash from an offset upward. -/
def Dev.flashBytes (d : Dev) (a n : Nat) : List (BitVec 8) := (List.range n).map fun k => d.flashByte (a + k)

/-- Write bytes of the flash. -/
def Dev.flashWrite (d : Dev) (a : Nat) (bs : List (BitVec 8)) : Dev :=
  let new := (bs.zipIdx a).foldl (fun t p => tset Config.factoryFlash t p.2 p.1) d.mgmt.flash
  { d with mgmt := { d.mgmt with flash := new } }

/-- The Report card in a slot of the ring: its TERM where MAGIC, VERSION and CRC are right (R538). -/
def Dev.cardTerm (d : Dev) (slot : Nat) : Option Nat :=
  let b := d.flashBytes (0x1000000 + 4096 * slot) 4096
  if ofLe (b.take 4) = 0x44524352 ∧ ofLe ((b.drop 4).take 2) = 1 ∧ ofLe (b.drop 4092) = crc32 (b.take 4092)
  then some (ofLe ((b.drop 8).take 4)) else none

/-- The ring slot of the newest valid card, with its TERM. -/
def Dev.newestCard (d : Dev) : Option (Nat × Nat) :=
  (List.range 64).foldl (fun best k =>
    match d.cardTerm k, best with
    | some t, some (_, u) => if u < t then some (k, t) else best
    | some t, none => some (k, t)
    | none, _ => best) none

/-! ## Margins and offsets -/

/-- The supply offset of a die at an FCLK step, in steps of 2.5 mV (R535). -/
def Dev.voff (d : Dev) (die f : Nat) : Int := toSigned 6 (bitsOf (d.rd AGE_VOFF die) (6 * f) 6)

/-- Write a supply offset. -/
def Dev.setVoff (d : Dev) (die f : Nat) (v : Int) : Dev :=
  d.wr AGE_VOFF die (setBits (d.rd AGE_VOFF die) (6 * f) 6 (ofSigned 6 v))

/-- Record a Spindle's margin, measured in 0.25 ps: AGE_MARGIN.M and MIN, in ps, saturating (R533). -/
def Dev.margin (d : Dev) (i m4 : Nat) : Dev :=
  let m := min 255 (m4 / 4)
  (d.set AGE_MARGIN.M i m).set AGE_MARGIN.MIN i (min m (d.get AGE_MARGIN.MIN i))

/-- A Spindle that has not been retired shows a margin below the floor (R533). -/
def Dev.lowMargin (d : Dev) (i : Nat) : Bool :=
  d.get SPX_STATE.STATE i != 2 && d.get FLT_SPX_STAT.RETIRED i == 0
    && decide (d.get AGE_MARGIN.M i < d.get AGE_CTL.FLOOR_PS 0)

/-- The Spindles of a die whose margin lies below the floor. -/
def Dev.lowOnes (d : Dev) (die : Nat) : List Nat := ((List.range 64).map fun p => 64 * die + p).filter d.lowMargin

/-- An ageing retirement (R533, R534, R535). -/
def Dev.ageRetire (d : Dev) (i : Nat) (preventive : Bool) : Dev :=
  (d.raise AGE_STAT.RETIRE_EV 0).retireSpindle i preventive 0x0D 0

/-- With the largest offset, Spindles still below the floor are retired (R533). -/
def Dev.guardLast (d : Dev) (die : Nat) : Dev :=
  if d.voff die (d.get PWR_STAT.STEP 0) < 20 then d else (d.lowOnes die).foldl (fun e i => e.ageRetire i true) d

/-- AGE_TERM_LEFT of the minutes of powered time (R534). Log: 137 (DEDUCED). -/
def Dev.showTerm (d : Dev) : Dev :=
  d.set AGE_TERM_LEFT.MIN 0 (60 * d.get AGE_CTL.TERM_H 0 - (d.flt.poweredMin - d.flt.termStart))

/-- The least value seen of a sensor. -/
def least (t : List (Nat × Nat)) (k v : Nat) : List (Nat × Nat) :=
  match t.find? fun p => p.1 == k with
  | some p => tset (fun _ => 2 ^ 32) t k (min p.2 v)
  | none => tset (fun _ => 2 ^ 32) t k v

/-- The sensors are sampled (R532 to R534). -/
def Dev.marginSample (d : Dev) (a : AgeSample) : Dev :=
  let d1 := (a.spx.filter fun x => decide (x.1 < 1024)).foldl (fun e x =>
    (e.margin x.1 x.2.1).set AGE_MARGIN.SENS x.1 (min 255 x.2.2)) d
  let x := d1.flt
  let leak := a.leak.foldl (fun (t : List (Nat × Nat)) (p : Nat × Nat) =>
    if p.1 < 24 then tset (fun _ => 2 ^ 32) t p.1 (min 65535 p.2) else t) x.leak
  let snr := a.snr.foldl (fun (t : List (Nat × Nat)) (p : Nat × Nat) => if p.1 < 48 then least t p.1 (min 255 p.2) else t) x.snr
  let d2 := { d1 with flt := { x with poweredMin := max x.poweredMin a.minutes, leak := leak, snr := snr } }
  (List.range 16).foldl Dev.guardLast d2.showTerm

/-- The target of a re-plan for a die and a step, where it has not been reached. -/
def Dev.want? (d : Dev) (die f : Nat) : Option Int := (d.flt.voffWant.find? fun p => p.1 == 5 * die + f).map fun p => p.2

/-- The re-plan of a die and a step ends. -/
def Dev.dropWant (d : Dev) (die f : Nat) : Dev :=
  { d with flt := { d.flt with voffWant := d.flt.voffWant.filter fun p => p.1 != 5 * die + f } }

/-- The margins of a die measured again at a step; AGE_MARGIN shows those of the step in use. -/
def Dev.remeasure (d : Dev) (die f : Nat) (ms : List (Nat × Nat)) : Dev :=
  if f = d.get PWR_STAT.STEP 0 then
    (ms.filter fun x => decide (x.1 / 64 = die) && decide (x.1 < 1024)).foldl (fun e x => e.margin x.1 x.2) d
  else d

/-! ## The Report card -/

/-- A bitmap of `n` bytes (R537). -/
def bitmap (n : Nat) (has : Nat → Bool) : List (BitVec 8) :=
  (List.range n).map fun b => BitVec.ofNat 8 ((List.range 8).foldl (fun v k => v + bit (has (8 * b + k)) * 2 ^ k) 0)

/-- A sensor's value in `w` bytes; of what has not been measured the manual does not give it, and it is free.
Log: 138 (DESIGN CHOICE). -/
def Dev.sensed (d : Dev) (t : List (Nat × Nat)) (w at' k : Nat) : List (BitVec 8) :=
  match t.find? fun p => p.1 == k with
  | some p => toLe w p.2
  | none => (List.range w).map fun j => Config.freeByte d.free (at' + w * k + j)

/-- The Report card of the Term that closes (Table 18-10). Log: 138 (DESIGN CHOICE). -/
def Dev.card (d : Dev) : List (BitVec 8) :=
  let x := d.flt
  let z := fun (n : Nat) => List.replicate n (0 : BitVec 8)
  let has := fun (p : Part) => x.otp.contains p
  let head := toLe 4 0x44524352 ++ toLe 2 1 ++ toLe 2 1 ++ toLe 4 x.term ++ toLe 4 (d.rd SYS_FW_VER 0) ++ toLe 4 (x.poweredMin / 60)
    ++ toLe 4 ((x.poweredMin - x.termStart) / 60) ++ z 40
  let offs := (List.range 80).map fun k => BitVec.ofInt 8 (d.voff (k / 5) (k % 5))
  let dies := (List.range 24).flatMap (d.sensed x.leak 2 0x90) ++ (List.range 24).flatMap (d.sensed x.tjMax 2 0xC0) ++ z 16
  let maps := bitmap 128 (fun k => has (.spindle k)) ++ bitmap 48 (fun k => has (.ftChannel k))
    ++ bitmap 8 (fun k => has (.ctChannel (384 + k))) ++ bitmap 8 (fun k => has (.lane (k / 4) (k % 4)))
    ++ bitmap 8 (fun k => has (.adder k)) ++ bitmap 16 (fun k => has (.engine k)) ++ z 40
  let margins := (List.range 1024).map fun i => BitVec.ofNat 8 (d.get AGE_MARGIN.MIN i)
  let marks := (List.range 448).flatMap (d.sensed x.eyes 1 0x600) ++ (List.range 48).flatMap (d.sensed x.snr 1 0x7C0) ++ z 16
  let faults := (List.range 32).flatMap fun k =>
    let c := tget (fun _ => ((0, 0) : Nat × Nat)) x.faults k
    toLe 4 c.1 ++ toLe 4 c.2
  let body := head ++ offs ++ dies ++ maps ++ margins ++ marks ++ faults ++ z 1788
  body ++ toLe 4 (crc32 body)

/-- The Report card is written, and the next Term begins (R534, R537, R538). Log: 137 (DEDUCED); 141 (DEDUCED). -/
def Dev.writeCard (d : Dev) : Dev :=
  let d1 := (d.flashWrite (0x1000000 + 4096 * (d.flt.term % 64)) d.card).drew
  let x := d1.flt
  let d2 : Dev := { d1 with flt := { x with term := x.term + 1, termStart := x.poweredMin, faults := [], snr := [], tjMax := [] } }
  let d3 := ((List.range 1024).foldl (fun (e : Dev) i => e.set AGE_MARGIN.MIN i (e.get AGE_MARGIN.M i)) d2).showTerm
  let d4 := ((d3.wr AGE_REPORT 0 x.term).set AGE_STAT.REPLAN 0 0).raise AGE_STAT.TERM_EV 0
  if d4.get AGE_CARD_CTL.AUTO 0 = 1 then d4.set AGE_CARD_CTL.COPY 0 1 else d4

/-- The Term end's last step falls due once the re-plan and the scans are over (R534). -/
def Dev.closeTerm (d : Dev) : Dev :=
  if d.get AGE_STAT.REPLAN 0 = 1 && d.flt.scanLeft.isEmpty && d.flt.voffWant.isEmpty && !d.flt.wdogBusy then d.writeCard else d

/-! ## A voltage step -/

/-- One step of a die's supply offset at an FCLK step, with the margins measured after it, in 0.25 ps (R533, R535). The
guard comes first. Log: 139 (DEDUCED). -/
def Dev.voltageStep (d : Dev) (die f : Nat) (ms : List (Nat × Nat)) : Dev :=
  let v := d.voff die f
  if f = d.get PWR_STAT.STEP 0 && !(d.lowOnes die).isEmpty && decide (v < 20) then
    let d1 := ((d.setVoff die f (v + 1)).log 0x0D 0 9 none 0 die die 0 0).raise AGE_STAT.GUARD_EV 0
    (d1.remeasure die f ms).guardLast die
  else match d.want? die f with
    | none => d
    | some w =>
      let d1 := (d.setVoff die f (if v < w then v + 1 else if w < v then v - 1 else v)).remeasure die f ms
      let low := decide (w < v) && ms.any fun x => decide (x.1 / 64 = die) && decide (x.2 < 4 * d.get AGE_CTL.TARGET_PS 0)
      (if low || decide (d1.voff die f = w) then d1.dropWant die f else d1).closeTerm

/-! ## The Term end -/

/-- The steps that a Spindle needs: ⌈(target − m) / s⌉. DESIGN CHOICE: with s = 0 the manual states no value, and it is free.
Log: 138 (DESIGN CHOICE). -/
def Dev.stepsFor (d : Dev) (k m4 s10 : Nat) : Int :=
  if s10 = 0 then toSigned 32 (Config.freeWord (d.free + k)).toNat
  else -((10 * ((m4 : Int) - 4 * d.get AGE_CTL.TARGET_PS 0)) / (4 * s10 : Nat))

/-- The largest of a list of needs, the first of equals, with the rest of the list. Log: 139 (DEDUCED). -/
def largest : List (Nat × Int) → Option ((Nat × Int) × List (Nat × Int))
  | [] => none
  | x :: t =>
    match largest t with
    | none => some (x, t)
    | some (y, u) => if y.2 ≤ x.2 then some (x, t) else some (y, x :: u)

/-- Free spares of a die that no waiting retirement will take. -/
def Dev.sparesLeft (d : Dev) (die : Nat) : Nat :=
  d.get SPX_DIE_STAT.SPARES_FREE die - (d.flt.queue.filter fun q => q.spindle / 64 == die).length

/-- The re-plan of a die at an FCLK step (R535). Log: 139 (DEDUCED). -/
def Dev.replan (d : Dev) (plan : List (Nat × Nat × Nat × Nat)) (die f : Nat) : Dev :=
  let live := plan.filter fun x => x.1 == f && x.2.1 / 64 == die && d.get SPX_STATE.STATE x.2.1 == 0
    && d.get FLT_SPX_STAT.RETIRED x.2.1 == 0
  match largest (live.map fun x => (x.2.1, d.stepsFor (1024 * f + x.2.1) x.2.2.1 x.2.2.2)) with
  | none => d
  | some (j, rest) =>
    let n2 := (largest rest).map fun p => p.1.2
    let out := match n2 with
      | some b => decide ((d.get AGE_CTL.OUTLIER 0 : Int) < j.2 - b) && decide (0 < j.2) && decide (0 < d.sparesLeft die)
      | none => false
    let d1 := if out then d.ageRetire j.1 true else d
    let n := if out then n2.getD j.2 else j.2
    let want := max (-20) (min 20 (d.voff die f + n))
    if want = d.voff die f then d1
    else { d1 with flt := { d1.flt with voffWant := tset (fun _ => (64 : Int)) (d1.dropWant die f).flt.voffWant (5 * die + f) want } }

/-- A Spindle that takes part in the self-test: a free spare, or an active one that is bound to no Room (R534).
Log: 140 (DEDUCED). -/
def Dev.testable (d : Dev) (i : Nat) : Bool :=
  decide (i < 1024) && (d.get SPX_STATE.STATE i == 1 || (d.get SPX_STATE.STATE i == 0 && d.get SPX_STATE.BOUND i == 0))

/-- A Kaluf lane whose margin stayed below the floor (R536). -/
def Dev.lowLane (d : Dev) (p l : Nat) : Dev :=
  if d.get KL_PORT_STAT.LANES p = 15 then (d.raise AGE_STAT.RETIRE_EV 0).laneRetire p l
  else d.log 0x08 0 0 none 0 p l 0 0

/-- Memory channels in service, which are scanned (R536). -/
def Dev.scannable (d : Dev) : List Nat :=
  (List.range 448).filter fun c => d.get MEM_CHAN_STATE.STATE c != 3 && d.get MEM_CHAN_STATE.STATE c != 4

/-- A Term ends (R534 to R536): the re-plan die by die, the self-test, the interface checks; the scans and the voltage steps
go on from here, and the Report card closes them. Log: 140 (DEDUCED). -/
def Dev.termEnd (d : Dev) (t : TermSample) : Dev :=
  if d.get AGE_CTL.EN 0 = 0 || d.get AGE_TERM_LEFT.MIN 0 != 0 || d.get AGE_STAT.REPLAN 0 = 1 || !d.awake || d.boot.stage != .ready
    || d.flt.wdogBusy then d
  else
    let d1 := d.set AGE_STAT.REPLAN 0 1
    let d2 := (List.range 16).foldl (fun e die => (List.range 5).foldl (fun g f => g.replan t.plan die f) e) d1
    let d3 := { d2 with free := d2.free + 8192 }
    let d4 := t.fails.foldl (fun e i => if e.testable i then e.ageRetire i false else e) d3
    let d5 := (t.lanes.filter fun k => decide (k < 48)).foldl (fun e k => e.lowLane (k / 4) (k % 4)) d4
    let chans := d5.scannable
    ({ d5 with
      flt := { d5.flt with scanLeft := chans }
      memx := { d5.memx with trainWait := chans.foldl (fun l c => if l.contains c then l else l ++ [c]) d5.memx.trainWait } }).closeTerm

/-- A channel is scanned in its retraining (R536): its eye width in 1/256 UI. -/
def Dev.eyeScan (d : Dev) (ch eye : Nat) : Dev :=
  if !d.flt.scanLeft.contains ch || d.get MEM_CHAN_STATE.STATE ch ≠ 1 then d
  else
    let d1 := { d with flt := { d.flt with
      scanLeft := d.flt.scanLeft.filter fun c => c != ch
      eyes := tset (fun _ => 256) d.flt.eyes ch (min 255 eye) } }
    let d2 := if d.get AGE_CTL2.EYE_FLOOR 0 ≤ eye then d1
      else if ch < 384 then (d1.raise AGE_STAT.RETIRE_EV 0).retireChannel ch
      else d1.log 7 0 0 none 0 ch 0xFFFF 0 0
    d2.closeTerm

/-- The card copy ends (R538): the newest card, where there is one, lies in the fast tier. Log: 141 (DEDUCED). -/
def Dev.cardCopyEnd (d : Dev) : Dev :=
  if d.get AGE_CARD_CTL.COPY 0 = 0 then d
  else
    let a := d.get64 AGE_CARD_ADDR_LO AGE_CARD_ADDR_HI 0 / 4096 * 4096
    let d1 := match d.newestCard with
      | some (k, _) => if a + 4096 ≤ ftEnd then d.wrBytes a (d.flashBytes (0x1000000 + 4096 * k) 4096) else d
      | none => d
    (d1.set AGE_CARD_CTL.COPY 0 0).set AGE_CARD_CTL.COPY_DONE 0 1

/-! ## Commands -/

def execMarginSample (a : AgeSample) (s : State) := s.onDev fun d => d.marginSample a

def execVoltageStep (die f : Nat) (ms : List (Nat × Nat)) (s : State) := s.onDev fun d =>
  if die < 16 ∧ f < 5 then d.voltageStep die f ms else d

def execTermEnd (t : TermSample) (s : State) := s.onDev fun d => d.termEnd t

def execEyeScan (ch eye : Nat) (s : State) := s.onUnit 448 ch fun d => d.eyeScan ch eye

def execCardCopy (fn : Nat) (s : State) := s.onHost fn AGE_CARD_CTL fun d => if fn = 0 then d.set AGE_CARD_CTL.COPY 0 1 else d

def execCardCopyEnd (s : State) := s.onDev fun d => d.cardCopyEnd

end Sys2Proof.Machine
end

