-- ==== Sys2Proof/Machine/Faults.lean ====
section
/-! DEFINITION. Faults of configuration planes and of Spindle storage, strikes, substitutions after a fault and preventive
ones, the Nimos mesh and the watchdog (Faults, spares, ageing and margins, R517 to R528; R49, R50). -/

namespace Sys2Proof.Machine

/-! ## Planes and storage -/

/-- The place of a Spindle in its Room's directory. -/
def Dev.dirPlace (d : Dev) (r i : Nat) : Nat :=
  ((findIdx? (fun l => l == d.logicalOf i) (d.roomLogicals r) 0).map fun p => p.1).getD 0

/-- The variant in the standby planes, or the one that a preload is bringing there (R121). -/
def Dev.standbyVariant (d : Dev) (r : Nat) : Option Nat :=
  if d.get CFG_STATUS.STANDBY_VALID r = 1 then some (d.get CFG_STATUS.STANDBY_VAR r) else (d.room r).preload

/-- Write a Spindle's planes from its Room's image (R518, R49), active and standby. -/
def Dev.rewritePlanes (d : Dev) (r k i : Nat) : Dev :=
  let d1 := (d.writePlane r (d.get CFG_STATUS.ACTIVE_VAR r) k (deskBase i + offActive)).showAccMode i
  match d.standbyVariant r with
  | some v => d1.writePlane r v k (deskBase i + offStandby)
  | none => d1

/-- An error in a configuration plane (R42, R518): a single-bit one is corrected; a double-bit one brings the abort, the rewriting,
and a retirement where the read-back fails. -/
def Dev.planeFault (d : Dev) (i : Nat) (double rereadFails : Bool) : Dev :=
  if !double then d.correctedWord i else
  match d.spindleRoom i with
  | none => d
  | some r =>
    let d1 := (d.spindleFault i 2 0x0B02 (d.logicalOf i) 0).rewritePlanes r (d.dirPlace r i) i
    if rereadFails then d1.retireSpindle i false 2 0x0B02 else d1

/-- Words of the same Room, or of the same Spindle of none, still wait for their in-place test: all faults of one abort are one strike
(R520, R539). Log: 194 (DEDUCED). -/
def Dev.moreTests (d : Dev) (i : Nat) : Bool :=
  match d.spindleRoom i with
  | some r => d.testing r
  | none => d.flt.suspects.any fun b => spindleAt b == i

/-- The in-place test of a word that failed (R519, R520): passed, the word gets the poison pattern and its Spindle a
strike, one for all the words of an abort; failed, the fault is permanent. A word of a receive buffer is free again by then, and the
next word that comes writes it. -/
def Dev.inPlaceTest (d : Dev) (a : Nat) (fails : Bool) : Dev :=
  if !d.flt.suspects.contains a then d
  else
    let i := spindleAt a
    let d1 := { d with flt := { d.flt with suspects := srem a d.flt.suspects } }
    if fails then d1.retireSpindle i false 1 0x0B01
    else
      let desk := decide (a % 2 ^ 24 < 0x8A0000)
      let d2 := (if desk then d1.poisonWords a 4 else d1)
      let d3 := if d2.moreTests i then d2 else d2.addStrike (.spindle i)
      (d3.log 1 1 7 (d3.spindleRoom i) (d3.strikesOf (.spindle i)) i (d3.logicalOf i) (if desk then a % 2 ^ 24 else 0) 0x0B01).atLimit i 1 0x0B01

/-- A unit that the device has (Table 18-2). -/
def Part.exists? (p : Part) : Bool :=
  match p with
  | .spindle i => decide (i < 1024)
  | .ftChannel c => decide (c < 384)
  | .ctChannel c => decide (384 ≤ c) && decide (c < 448)
  | .lane p l => decide (p < 12) && decide (l < 4)
  | .adder a => decide (a < 56)
  | .engine k => decide (k < 122)

/-- Strikes older than the window lapse (R520). -/
def Dev.lapse (d : Dev) (p : Part) : Dev :=
  if !p.exists? then d else
  let young := fun (t : Nat) => decide (d.now ≤ t + d.strikeWindow p)
  ({ d with flt := { d.flt with strikes := d.flt.strikes.filter fun s => s.1 != p || young s.2 } }).showStrikes p

/-! ## Substitution -/

/-- The remap table with one logical position moved to a physical position of its die. -/
def Dev.remapped (d : Dev) (l s : Nat) : Dev :=
  ((d.set SPX_REMAP.PHYS l (s % 64)).set SPX_REMAP.SPARE l 1).set SPX_REMAP.MAPPED l 1

/-- The register updates of a substitution (R49, steps 4 and 5): SPX_STATE, SPX_REMAP, SPX_DIE_STAT, SPX_REMAP_GEN. -/
def Dev.swapIn (d : Dev) (l i s : Nat) : Dev :=
  let die := i / 64
  let d1 := (((d.set SPX_STATE.STATE s 0).set SPX_STATE.LPOS s (l % 60)).set SPX_STATE.BOUND s (d.get SPX_STATE.BOUND i)).set
    SPX_STATE.ROOM s (d.get SPX_STATE.ROOM i)
  let d2 := ((d1.set SPX_STATE.STATE i 2).set SPX_STATE.BOUND i 0).remapped l s
  let d3 := (d2.set SPX_DIE_STAT.SPARES_FREE die (d2.get SPX_DIE_STAT.SPARES_FREE die - 1)).set
    SPX_DIE_STAT.RETIRED die (d2.get SPX_DIE_STAT.RETIRED die + 1)
  (d3.wr SPX_REMAP_GEN 0 (d3.rd SPX_REMAP_GEN 0 + 1)).raise FLT_STAT.SUB_EV 0

/-- Retirements of other Spindles of the Room still wait. -/
def Dev.moreWaits (d : Dev) (r : Nat) : Bool := d.flt.queue.any fun q => !q.preventive && d.spindleRoom q.spindle == some r

/-- Forget the first retirement that waits, and with it the operation. Log: 133 (DEDUCED). -/
def Dev.nextSub (d : Dev) : Dev :=
  { d with flt := { d.flt with queue := d.flt.queue.drop 1 }, que := { d.que with op := none } }

/-- A Yarn has an endpoint at a logical position (R521). -/
def Laid.touches (y : Laid) (l : Nat) : Bool := (yarnSrc y.entry).1 == l || (yarnDsts y.entry).any fun q => q.1 == l

/-- Re-lay the Yarns of a Room that have an endpoint at a logical position, in every variant, with the position moved (R49, R50, R521), or the
number of the first Yarn without a legal route. -/
def Dev.relay (d : Dev) (r l s : Nat) : Except (Nat × Nat) Dev :=
  ((d.remapped l s).layAll r ((d.room r).lays.map fun v => v.map fun y => (y.entry, if y.touches l then none else some y))).map
    fun e => e.writeBanks r

/-- A Room's part in a substitution: it is LOADED, or HELD by the host or by a substitution. -/
def Dev.substitutable (d : Dev) (r : Nat) : Bool :=
  d.roomState r == stLoaded || (d.roomState r == stHeld && decide (d.get ROOM_STATUS.HOLD_CAUSE r ≤ 2))

/-- A substitution that fails (R50): the Room stays held, a record names the Yarn, and the Spindle waits for the Room's unload. -/
def Dev.subFails (d : Dev) (r i yarn : Nat) : Dev :=
  let d1 := if d.substitutable r then d.hold r 3 else d
  let d2 := (d1.log 0x0E 0 8 (some r) 0 r yarn 0 0).nextSub
  { d2 with flt := { d2.flt with failed := sins i d2.flt.failed } }

/-- Zero a Spindle's Desk, Bobbin and accumulators (R522, R111). -/
def Dev.zeroStorage (d : Dev) (i : Nat) : Dev :=
  let d1 := ((d.zero (deskBase i) 0x800000).zero (deskBase i + offBobbin) 262144).zero (deskBase i + offAcc 0) 131072
  { d1 with poisonW := d1.poisonW.filter fun w => !(decide (deskBase i ≤ w) && decide (w < deskBase i + offActive)) }

/-- Put a spare in the place of a Spindle of a Room that has stopped (R49, R521, R522): planes, Yarns, registers. -/
def Dev.putSpare (d : Dev) (r i s : Nat) : Dev :=
  let l := d.logicalOf i
  let d1 := ((d.rewritePlanes r (d.dirPlace r i) s).zeroStorage s).restartPreload r
  match d1.relay r l s with
  | .error (_, k) => d1.subFails r i k
  | .ok d2 => ((d2.clearSpindle i).swapIn l i s).nextSub

/-- SPARE_SUBSTITUTION (R49, R521, R522): the first retirement that waits, once no other operation runs (R104). A Room that is held for
another reason stays so. Log: 134 (DEDUCED). Log: 163 (DEDUCED). -/
def Dev.substitute (d : Dev) : Dev :=
  match d.flt.queue with
  | [] => d
  | q :: _ =>
    if q.preventive || d.que.op.isSome || d.flt.wdogBusy then d
    else
      let i := q.spindle
      match d.freeSpare (i / 64), d.spindleRoom i with
      | none, _ => (d.retireNoSpare i 0x0B05).nextSub
      | some s, none => (d.swapIn (d.logicalOf i) i s).nextSub
      | some s, some r =>
        if !d.substitutable r then d.putSpare r i s
        else if !(d.spindlesFree r || d.allStopped r) then d.stopForHold r 2
        else
          let e := (if d.roomState r = stHeld && d.get ROOM_STATUS.HOLD_CAUSE r = 2 then d else d.hold r 2).putSpare r i s
          if e.get ROOM_STATUS.HOLD_CAUSE r ≠ 2 || e.moreWaits r then e else e.unhold r

/-! ## Preventive retirement -/

/-- PREVENTIVE_HOLD (R523): the spare is prepared, and the Room stops for it at its next checkpoint or Lesson end.
Log: 134 (DEDUCED). -/
def Dev.preventiveHold (d : Dev) (i : Nat) : Dev :=
  match d.flt.queue with
  | [] => d
  | q :: t =>
    if q.spindle ≠ i || !q.preventive || d.que.op.isSome || d.flt.wdogBusy then d
    else match d.freeSpare (i / 64), d.spindleRoom i with
      | none, _ => (d.retireNoSpare i 0x0B05).nextSub
      | some s, none => (d.swapIn (d.logicalOf i) i s).nextSub
      | some s, some r =>
        if !d.substitutable r then d.putSpare r i s
        else
          let d1 := (d.rewritePlanes r (d.dirPlace r i) s).restartPreload r
          let d2 := { d1 with flt := { d1.flt with queue := { q with copied := true } :: t }
                              que := { d1.que with op := some ⟨.substitution, r, 0, false, i⟩ } }
          if d2.roomState r = stHeld then d2.hold r 2 else d2.stopForHold r 2

/-- Move what is kept by physical index from one Spindle to another. -/
def moveKey {α : Type} [DecidableEq α] (dflt : Nat → α) (t : List (Nat × α)) (a b : Nat) : List (Nat × α) :=
  tset dflt (tset dflt t b (tget dflt t a)) a (dflt a)

/-- A packet or request under another endpoint's number. -/
def NotePacket.moved (p : NotePacket) (i s : Nat) : NotePacket :=
  { p with src := if p.src = i then s else p.src, dst := if p.dst = i then s else p.dst }

/-- The full state of a Spindle goes to another (R523, R90): Desk, Bobbin and accumulators, poison, sequencer, matrix engine, Reel,
Yarn ports and Note requests. -/
def Dev.moveSpindle (d : Dev) (i s : Nat) : Dev :=
  let d1 := d.copy (deskBase i) (deskBase s) offActive
  let moved := d1.poisonW.map fun w =>
    if deskBase i ≤ w ∧ w < deskBase i + offActive then w - deskBase i + deskBase s else w
  let d2 := { d1 with
    poisonW := moved.foldl (fun l w => sins w l) []
    spx := moveKey (fun _ => SpindleSt.init) d1.spx i s
    reels := moveKey (fun _ => ReelSt.init) d1.reels i s
    net := { d1.net with
      notes := d1.net.notes.map fun (q : NoteReq) => if q.src = i then { q with src := s } else q
      flight := d1.net.flight.map fun (p : NotePacket) => p.moved i s
      bufs := [0, 1, 2, 3].foldl (fun t p => moveKey (fun _ => []) t (4 * i + p) (4 * s + p)) d1.net.bufs
      wires := [0, 1, 2, 3].foldl (fun t p => moveKey (fun _ => []) t (4 * i + p) (4 * s + p)) d1.net.wires
      credits := [0, 1, 2, 3].foldl (fun t p => moveKey (fun _ => 256) t (4 * i + p) (4 * s + p)) d1.net.credits
      marks := [0, 1, 2, 3].foldl (fun t p => moveKey (fun _ => 0) t (4 * i + p) (4 * s + p)) d1.net.marks
      placed := [0, 1, 2, 3].foldl (fun t p => moveKey (fun _ => 0) t (4 * i + p) (4 * s + p)) d1.net.placed } }
  let d3 := (d2.wr SPX_VX_STAT s (d2.rd SPX_VX_STAT i)).wr SPX_MX_STAT s (d2.rd SPX_MX_STAT i)
  let d4 := (d3.set STR_STAT.RUNNING s (d3.get STR_STAT.RUNNING i)).set STR_STAT.GEN s (d3.get STR_STAT.GEN i)
  ((d4.wr SPX_VX_STAT i 0).wr SPX_MX_STAT i 0).set STR_STAT.RUNNING i 0

/-- Restart a Reel at the units its streams have waited on, its outstanding reads cancelled (R368, R369, R370).
Log: 134 (DEDUCED). -/
def Dev.restartReel (d : Dev) (i : Nat) : Dev :=
  let us := (d.reel i).streams.map fun s => s.waited
  if d.get STR_STAT.RUNNING i = 0 then d else (d.cancelReel i false).startReel i fun s => nth 0 us s

/-- STATE_COPY_DONE (R523): the Room has stopped and its Reels' writes are acknowledged; the state has moved, the Yarns
are re-laid, the registers follow, and the Room resumes. -/
def Dev.stateCopied (d : Dev) : Dev :=
  match d.flt.queue with
  | [] => d
  | q :: _ =>
    let i := q.spindle
    match d.que.op, d.freeSpare (i / 64) with
    | some o, some s =>
      let r := o.room
      if !q.copied || o.kind ≠ .substitution || d.roomState r ≠ stHeld || d.get ROOM_STATUS.HOLD_CAUSE r ≠ 2
          || !((d.roomSpindles r).all d.reelDrained) then d
      else
        let l := d.logicalOf i
        match d.relay r l s with
        | .error (_, k) => d.subFails r i k
        | .ok d1 =>
          let d2 := ((((d.roomSpindles r).foldl Dev.restartReel d1).moveSpindle i s).clearSpindle i).swapIn l i s
          let d3 := d2.nextSub
          if d3.moreWaits r then d3 else d3.unhold r
    | _, _ => d

/-! ## The mesh and the watchdog -/

/-- A Nimos link CRC error with the replays it took (R518). -/
def Dev.meshError (d : Dev) (tile link replays : Nat) (lockLost : Bool) : Dev :=
  let d1 := d.count FLT_MESH_CNT 0 replays
  if lockLost || decide (1000 < replays) then d1.fatal 0x0B tile link else d1

/-- The watchdog restarts the Ryusen controller; a second restart within 1 h is permanent (R528, Table 18-1).
Log: 135 (DEDUCED). -/
def Dev.watchdog (d : Dev) : Dev :=
  if d.flt.wdogBusy then d
  else
    let second := match d.flt.wdogLast with
      | some t => decide (d.now ≤ t + 3600000000000)
      | none => false
    let d1 := ((d.raise FLT_STAT.WDOG_EV 0).alert 5)
    let d2 := { d1 with flt := { d1.flt with wdogLast := some d1.now, wdogBusy := true } }
    let d3 := d2.log 0x0C (if second then 2 else 1) 0 none 0 0 0xFFFF 0 0
    if second then d3.fatal 0x0C 0 0xFFFF else d3

/-- An engine is retired (R518, R526): the fuse array, its record, and the engines left in service. Log: 132 (DEDUCED). -/
def Dev.retireEngine (d : Dev) (k : Nat) : Dev :=
  if d.get FLT_ENG_STAT.RETIRED k = 1 then d else
  let d1 := ((d.set FLT_ENG_STAT.RETIRED k 1).burn (.engine k)).log 0x0A 2 6 none (d.strikesOf (.engine k)) k 0xFFFF 0 0
  let d2 := d1.degrade (if k < 12 then 5 else 6)
  if k < 12 then d2.set SYS_CAP0.UPD_ENGINES 0 (d2.get SYS_CAP0.UPD_ENGINES 0 - 1)
  else d2.set SYS_CAP1.MEDIA_ENGINES 0 (d2.get SYS_CAP1.MEDIA_ENGINES 0 - 1)

/-- A fault of an engine (R518, R520): its record, its strike, and its retirement at the limit. -/
def Dev.strikeEngine (d : Dev) (k : Nat) (room : Option Nat) (code addr : Nat) : Dev :=
  let d1 := d.addStrike (.engine k)
  let d2 := d1.log 0x0A 1 (if k < 12 then 7 else 0) room (d1.strikesOf (.engine k)) k 0xFFFF addr code
  if d2.get FLT_CTL.STRIKES 0 ≤ d2.strikesOf (.engine k) then
    (if d2.flt.wdogBusy then { d2 with flt := { d2.flt with deferred := d2.flt.deferred ++ [.engine k] } } else d2.retireEngine k)
  else d2

/-- What fell due during a restart is carried out (R528). Log: 135 (DEDUCED). -/
def Deferred.run (d : Dev) (x : Deferred) : Dev :=
  match x with
  | .record kind cls action room strikes unit sub addr code time => d.writeLog kind cls action room strikes unit sub addr code time
  | .retire i p kind code => d.retireNow i p kind code
  | .engine k => d.retireEngine k
  | .adder a => d.retireAdder a
  | .lane p l => d.laneRetire p l

/-- The restart ends (R528). -/
def Dev.watchdogDone (d : Dev) : Dev :=
  if d.flt.wdogBusy then
    (d.flt.deferred.foldl Deferred.run { d with flt := { d.flt with wdogBusy := false, deferred := [] } }).nextRetirement
  else d

/-! ## Commands -/

def execPlaneFault (i : Nat) (double rereadFails : Bool) (s : State) := s.onDev fun d =>
  if i < 1024 then d.planeFault i double rereadFails else d

def execInPlaceTest (addr : Nat) (fails : Bool) (s : State) := s.onDev fun d => d.inPlaceTest addr fails

def execStrikeLapse (p : Part) (s : State) := s.onDev fun d => d.lapse p

def execSpareSubstitution (s : State) := s.onDev fun d => d.substitute

def execFltSpxRetire (fn i : Nat) (s : State) := s.onHost fn FLT_SPX_CTL fun d =>
  if fn = 0 ∧ i < 1024 then (d.set FLT_SPX_CTL.INDEX 0 i).retireSpindle i true 0x0D 0 else d

def execPreventiveHold (i : Nat) (s : State) := s.onUnit 1024 i fun d => d.preventiveHold i

def execStateCopyDone (s : State) := s.onDev fun d => d.stateCopied

def execMeshCrcError (tile link replays : Nat) (lockLost : Bool) (s : State) := s.onUnit 4 tile fun d => d.meshError tile link replays lockLost

def execWatchdogExpire (s : State) := s.onDev fun d => d.watchdog

def execWatchdogRestartDone (s : State) := s.onDev fun d => d.watchdogDone

end Sys2Proof.Machine
end

