-- ==== Sys2Proof/Machine/Power.lean ====
section
/-! DEFINITION. Clock steps, the power limit, ramp limiting and the pre-ramp, junction temperature, the coolant loop and Recess
(Clocks, power, cooling and Recess, R544 to R564; R607, R611 to R613). -/

namespace Sys2Proof.Machine

/-! ## FCLK steps and the power limit -/

/-- The effective cap P_cap, in W (R547). -/
def Dev.pCap (d : Dev) : Nat :=
  let a := d.get PWR_LIMIT.TDP_W 0
  let b := if d.get PWR_STAT.CAP_IN 0 = 1 then min a (d.get PWR_LIMIT.CAP_W 0) else a
  if d.get PWR_STAT.FAULT_CAP 0 = 1 then min b (d.get PWR_FLOOR.FAULT_W 0) else b

/-- Dynamic power of an FCLK step relative to ÷6, in hundredths (Table 19-2). -/
def relPower (step : Nat) : Nat := nth 30 [100, 76, 61, 41, 30] step

/-- Replace the power state. -/
def Dev.setPwr (d : Dev) (x : PwrSt) : Dev := { d with pwr := x }

/-- Draw down: FCLK one step down, counted, or at ÷12 the duty by 1/16 (R544, R548). -/
def Dev.powerDown (d : Dev) : Dev :=
  let s := d.get PWR_STAT.STEP 0
  if s < 4 then (d.set PWR_STAT.STEP 0 (s + 1)).count PWR_STEP_CNT 0 1
  else d.set PWR_STAT.DUTY 0 (d.get PWR_STAT.DUTY 0 - 1)

/-- A supply ramp for a step up ends: the divider switches (R544). -/
def Dev.rampDone (d : Dev) : Dev :=
  if !d.pwr.ramp then d
  else ((d.setPwr { d.pwr with ramp := false }).set PWR_STAT.STEP 0 (d.get PWR_STAT.STEP 0 - 1)).count PWR_STEP_CNT 0 1

/-- The mean scaled to the next faster step leaves headroom (R548). -/
def Dev.headroom (d : Dev) (mean : Nat) : Bool :=
  let s := d.get PWR_STAT.STEP 0
  decide (mean * relPower (s - 1) ≤ (d.pCap - 100) * relPower s)

/-- The power check of every 100 µs (R545, R547, R548): the mean in W and the input voltage in 0.1 V. A step down for junction
temperature in the same interval stands for both (R564), and a step up in progress completes first.
Log: 142 (DEDUCED); 144 (DEDUCED). -/
def Dev.powerCheck (d : Dev) (mean v48 : Nat) : Dev :=
  let d1 := (d.set PWR_INPUT.P_W 0 (min 16383 mean)).set PWR_INPUT.V48 0 (min 1023 v48)
  let x := { d1.pwr with downBy := if d1.pwr.downBy = 1 then 0 else d1.pwr.downBy }
  if !d1.awake || x.ramp then d1.setPwr x
  else if d1.pCap < mean then
    if x.downBy = 2 then d1.setPwr { x with downBy := 0, calm := 0 }
    else (d1.setPwr { x with downBy := 1, calm := 0 }).powerDown
  else
    let calm := if d1.headroom mean then min 100 (x.calm + 1) else 0
    let duty := d1.get PWR_STAT.DUTY 0
    let d2 := d1.setPwr { x with calm := calm }
    if calm < 100 || x.hot then d2
    else if duty < 15 then d2.set PWR_STAT.DUTY 0 (duty + 1)
    else if 0 < d2.get PWR_STAT.STEP 0 && decide (d2.get THM_TJ.TJ_MAX 0 < 1000) then d2.setPwr { x with calm := 0, ramp := true }
    else d2

/-- Draw down `n` times. -/
def Dev.powerDowns (d : Dev) : Nat → Dev
  | 0 => d
  | n + 1 => d.powerDown.powerDowns n

/-- PWR_CAP_IN asserted for `us` µs with a 100 µs mean (R554, R607): a step up in progress completes (R564), and where the mean lies
above the new cap the device steps down as often as it finds necessary, which the manual leaves open.
Log: 143 (DESIGN CHOICE). -/
def Dev.capIn (d : Dev) (us mean : Nat) : Dev :=
  if us < 10 || d.get PWR_STAT.CAP_IN 0 = 1 then d
  else
    let d1 := ((d.set PWR_STAT.CAP_IN 0 1).raise PWR_STAT.CAP_EV 0).rampDone
    let room := 4 - d1.get PWR_STAT.STEP 0 + d1.get PWR_STAT.DUTY 0
    if d1.pCap < mean && decide (0 < room) then (d1.powerDowns (1 + d1.freeWord % room)).drew else d1

/-- PWR_CAP_IN deasserted for `us` µs (R553, R554, R607). -/
def Dev.capOut (d : Dev) (us : Nat) : Dev := if us < 10 then d else d.set PWR_STAT.CAP_IN 0 0

/-! ## The profile and the draw -/

/-- Width of a bin of the profile in ns (R550). -/
def Dev.binNs (d : Dev) : Nat := max 100000 (ceilDiv (d.rd TT_ROUND 0) 1024)

/-- A mean of a bin's draw, in µW. Log: 145 (DEDUCED). -/
def binMean (x : Nat × Nat) : Nat := if x.2 = 0 then 0 else x.1 * 1000000 / x.2

/-- A draw interval's share of the profile (R550): a change of TT_EPOCH clears it, a new Round makes what the last gathered
the profile, and the interval is gathered in its bin. Log: 145 (DEDUCED). -/
def Dev.gatherDraw (d : Dev) (net : Nat) : Dev :=
  let x := d.pwr
  let epoch := d.rd TT_EPOCH 0
  let round := d.rd TT_ROUND_CNT_LO 0
  let y := if x.epoch ≠ epoch then { x with profile := [], bins := [], epoch := epoch, round := round }
    else if x.round ≠ round then
      { x with profile := x.bins.map fun b => (b.1, binMean b.2), bins := [], round := round }
    else x
  if !d.bell.started || d.now < d.roundStart then d.setPwr y
  else
    let k := min 1023 ((d.now - d.roundStart) / d.binNs)
    let old := tget (fun _ => ((0, 0) : Nat × Nat)) y.bins k
    d.setPwr { y with bins := tset (fun _ => ((0, 0) : Nat × Nat)) y.bins k (old.1 + net, old.2 + 1) }

/-- The start of the next occurrence of a bin after now, the Round repeated. -/
def Dev.binStart (d : Dev) (k : Nat) : Nat :=
  let t := d.roundStart + k * d.binNs
  if d.now < t then t else t + d.rd TT_ROUND 0

/-- Some Room is in a ballast Lesson (R551). -/
def Dev.ballast (d : Dev) : Bool := (List.range 16).any fun r => (d.lesson r).any fun l => l.kind == 2

/-- A pre-ramp that LOAD_ADV announces now (R552): its rise in W, its start and its target in µW. The start is where the
ramp of R551 to a bin meets the present draw `p`, in µW. Log: 145 (DEDUCED). -/
def Dev.comingRamp (d : Dev) (p : Nat) : Option (Nat × Nat × Nat) :=
  let up := d.get PWR_RAMP.UP_W_MS 0
  let lead := 1000 * d.get PWR_ADV_CTL.LEAD_US 0
  d.pwr.profile.foldl (fun best b =>
    let rise := b.2 - p
    let start := d.binStart b.1 - rise / up
    let due := decide (1000000 * d.get PWR_ADV_CTL.THRESH_W 0 < rise) && decide (start ≤ d.now + lead)
    match best with
    | none => if due then some (rise / 1000000, start, b.2) else none
    | some c => if due && decide (start < c.2.1) then some (rise / 1000000, start, b.2) else best) none

/-- LOAD_ADV falls when the draw reaches its target, and rises ahead of a large pre-ramp (R552). -/
def Dev.advise (d : Dev) (p : Nat) : Dev :=
  match d.pwr.adv with
  | some a =>
    if p < a.2.2 then d
    else ((d.setPwr { d.pwr with adv := none }).set PWR_STAT.ADV 0 0).send (.pin "LOAD_ADV" 0)
  | none =>
    match d.comingRamp p with
    | some a => ((d.setPwr { d.pwr with adv := some a }).set PWR_STAT.ADV 0 1).send (.pin "LOAD_ADV" 1)
    | none => d

/-- The lower bound of the pre-ramps (R551, R553), in µW. -/
def Dev.preRamp (d : Dev) (p lo : Int) : Int :=
  let held := d.get PWR_ADV_CTL.HOLD_EN 0 = 1 && d.get PWR_STAT.CAP_IN 0 = 1
  let thresh : Int := 1000000 * d.get PWR_ADV_CTL.THRESH_W 0
  d.pwr.profile.foldl (fun lo b =>
    let t := d.binStart b.1
    if d.now + 20000000 < t || (held && decide (thresh < (b.2 : Int) - p)) then lo
    else max lo ((b.2 : Int) - d.get PWR_RAMP.UP_W_MS 0 * (t - d.now : Nat))) lo

/-- The draw control of every 10 µs (R549 to R553). -/
def Dev.drawControl (d : Dev) (x : DrawSample) : Dev :=
  if !d.awake then d else
  let d1 := (d.gatherDraw (x.mean - x.filled)).advise (1000000 * x.mean)
  let p : Int := 1000000 * x.mean
  let cap : Int := 1000000 * d1.pCap
  let floor : Int := 1000000 * d1.get PWR_FLOOR.FLOOR_W 0
  let hi := min cap (p + 10000 * d1.get PWR_RAMP.UP_W_MS 0)
  let lo0 : Int := p - 10000 * d1.get PWR_RAMP.DOWN_W_MS 0
  let ballast := d1.ballast
  let lo1 := if ballast then max lo0 floor else lo0
  let lo := min (d1.preRamp p lo1) hi
  let reach : Int := 1000000 * (x.natural + x.fill)
  let d2 := if reach < lo then (d1.raise PWR_STAT.RAMP_EV 0).count PWR_RAMP_CNT 0 1 else d1
  if ballast && (decide (cap < floor) || (decide (reach < lo) && decide (reach < floor))) then d2.raise PWR_STAT.FLOOR_SHORT_EV 0 else d2

/-! ## Junction temperature -/

/-- A coolant or junction event: the bit of THM_STAT with its alert cause (Table 20-7). -/
def Dev.thmEvent (d : Dev) (k : Nat) : Dev := (d.raiseBits ⟨THM_STAT, 0, 6⟩ 0 (2 ^ k)).alert 4

/-- The hottest of a list of readings, the lowest die of equals. -/
def hottest (ts : List Nat) : Nat × Nat :=
  (ts.zipIdx).foldl (fun (m : Nat × Nat) (p : Nat × Nat) => if m.1 < p.1 then p else m) (0, 0)

/-- Every die's hottest reading in 0.1 °C (R555). A step down for the power limit in the same interval stands for both.
Log: 142 (DEDUCED); 144 (DEDUCED); 149 (DEDUCED). -/
def Dev.tjSample (d : Dev) (ts : List Nat) : Dev :=
  let ts := ts.take 24
  let h := hottest ts
  let tops := (ts.zipIdx).foldl (fun (t : List (Nat × Nat)) (p : Nat × Nat) =>
    if ((t.find? fun q => q.1 == p.2).map fun q => q.2).getD 0 < p.1 then tset (fun _ => 2 ^ 32) t p.2 (min 65535 p.1) else t) d.flt.tjMax
  let d1 := (({ d with flt := { d.flt with tjMax := tops } }).set THM_TJ.TJ_MAX 0 (min 4095 h.1)).set THM_TJ.DIE 0 h.2
  let above := decide (1050 ≤ h.1)
  let hot := above || (d1.pwr.hot && decide (1030 < h.1))
  let x := { d1.pwr with downBy := if d1.pwr.downBy = 2 then 0 else d1.pwr.downBy, hot := hot }
  let d2 := if above then d1.raise PWR_STAT.TJ_EV 0 else d1
  let d3 := if above && !d1.pwr.hot then
      (ts.zipIdx).foldl (fun (e : Dev) (p : Nat × Nat) => if 1050 ≤ p.1 then e.log 0x0F 0 0 none 0 4 p.2 0 0 else e) d2
    else d2
  if !hot || x.ramp || !d3.awake then d3.setPwr x
  else if x.downBy = 1 then d3.setPwr { x with downBy := 0 }
  else (d3.setPwr { x with downBy := 2, calm := 0 }).powerDown

/-! ## The coolant loop -/

/-- The loop runs: firmware runs, no watchdog restart is in progress and no trip holds (R611). -/
def Dev.loopOn (d : Dev) : Bool :=
  (match d.boot.stage with
   | .firmware _ => true
   | .ready => true
   | _ => false) && !d.flt.wdogBusy && d.get THM_STAT.TRIP 0 == 0

/-- The duties that PWM_PUMP and PWM_VALVE drive (R611): 255 while the loop is not running. -/
def Dev.pumpPin (d : Dev) : Nat := if d.loopOn then d.get THM_DEMAND.PUMP_DUTY 0 else 255
def Dev.valvePin (d : Dev) : Nat := if d.loopOn then d.get THM_DEMAND.VALVE_DUTY 0 else 255

/-- A ratio as a whole number: where it is not whole, which of its two neighbours is not stated, and it is free.
Log: 146 (DESIGN CHOICE). -/
def Dev.openRatio (d : Dev) (k num den : Nat) : Nat :=
  if den = 0 then 0 else num / den + (if num % den = 0 then 0 else d.freeWord / 2 ^ k % 2)

/-- A value as a whole number, likewise. Log: 146 (DESIGN CHOICE). -/
def Dev.openInt (d : Dev) (k : Nat) (v : FVal) : Int :=
  let f := v.floorInt
  if v.eq (FVal.ofInt f) then f else f + (d.freeWord / 2 ^ k % 2 : Nat)

/-- An edge on a flow input (R612). -/
def Dev.flowPulse (d : Dev) (input : Nat) : Dev :=
  let live := d.pwr.edges.filter fun e => decide (d.now < e.2 + 2000000000)
  d.setPwr { d.pwr with edges := live ++ [(input, d.now)] }

/-- The measured flow of an input in 0.01 L/min (R557, R612). -/
def Dev.flowOf (d : Dev) (input old : Nat) : Nat :=
  let es := d.pwr.edges.filter fun e => e.1 == input && decide (d.now < e.2 + 2000000000)
  let n := (es.filter fun e => decide (d.now < e.2 + 1000000000)).length
  if es.isEmpty then 0
  else if n = 0 then old
  else min 65535 (d.openRatio input (6000 * n) (d.get THM_COOL.FLOW_K 0))

/-- The two flows differ by more than 20 % (Table 19-4). DESIGN CHOICE: of the larger. Log: 147 (DEDUCED). -/
def Dev.flowsDiffer (d : Dev) : Bool :=
  let a := d.get THM_FLOW.FLOW_A 0
  let b := d.get THM_FLOW.FLOW_B 0
  decide (max a b < 5 * (max a b - min a b))

/-- Twice the flow that the loop uses, in 0.01 L/min: the mean of the two, or the lower after a mismatch. -/
def Dev.flow2 (d : Dev) : Nat :=
  let a := d.get THM_FLOW.FLOW_A 0
  let b := d.get THM_FLOW.FLOW_B 0
  if d.pwr.mismatch then 2 * min a b else a + b

/-- The draw of the profile from the Round's start to `x`, in µW × ns, the Round repeated. -/
def Dev.drawIntegral (d : Dev) (x : Nat) : Nat :=
  let r := d.rd TT_ROUND 0
  let w := d.binNs
  if r = 0 then 0 else
  let part := fun (y : Nat) => d.pwr.profile.foldl (fun s b => s + b.2 * (min (min y r) ((b.1 + 1) * w) - b.1 * w)) 0
  x / r * part r + part (x % r)

/-- The mean draw that the profile promises over AVG_MS from LEAD_MS ahead, in W (R556). -/
def Dev.pff (d : Dev) : FVal :=
  let s := d.now + 1000000 * d.get THM_FF.LEAD_MS 0 - d.roundStart
  let n := 1000000 * d.get THM_FF.AVG_MS 0
  f32Div (.num false (d.drawIntegral (s + n) - d.drawIntegral s) 0) (.num false (1000000 * n) 0)

/-- The flow demand of every 100 ms (R556, R557, R612). Where its formula gives no number (a heat capacity of 0 with no heat
promised, temperatures without a value), which demand within the limits is taken is not stated, and it is free.
Log: 146 (DESIGN CHOICE). Log: 159 (DESIGN CHOICE). -/
def Dev.flowDemand (d : Dev) : Dev :=
  if !d.loopOn then d else
  let d0 := ((d.set THM_FLOW.FLOW_A 0 (d.flowOf 0 (d.get THM_FLOW.FLOW_A 0))).set THM_FLOW.FLOW_B 0
    (d.flowOf 1 (d.get THM_FLOW.FLOW_B 0))).drew
  let d1 := d0.setPwr { d0.pwr with mismatch := d0.pwr.mismatch && d0.flowsDiffer }
  if d1.pwr.outletFault then d1.set THM_DEMAND.Q 0 1200 else
  let tIn := if d1.pwr.inletFault then f32Nat 45 else elemRaw 0 (nth 0 d1.pwr.temps 0)
  let tOut := elemRaw 0 (nth 0 d1.pwr.temps 1)
  let outSet := f32Nat (d1.get THM_FLOW_CTL.OUT_SET 0)
  let ff := d1.get THM_FLOW_CTL.FF_EN 0 = 1 && d1.awake && !d1.pwr.profile.isEmpty
  let qff := if ff then
      f32Div d1.pff (f32Mul (f32Ratio (d1.get THM_COOL.COOL_C 0) 10) (FVal.max (f32Sub outSet tIn) (f32Nat 5)))
    else f32Zero
  let e := f32Sub tOut outSet
  let integ := elemRaw 0 d1.pwr.integ
  let q := f32Add (f32Add qff (f32Mul (f32Ratio (d1.get THM_PI.KP 0) 100) e)) integ
  let d2 := if (f32Nat 4).lt q && q.lt (f32Nat 12) then
      let next := f32Add integ (f32Mul (f32Mul (f32Ratio (d1.get THM_PI.KI 0) 1000) e) (f32Ratio 1 10))
      d1.setPwr { d1.pwr with integ := (conv 0 next).1 }
    else d1
  let clamped := FVal.min (FVal.max q (f32Nat 4)) (f32Nat 12)
  let hundredths := match clamped with
    | .nan => 400 + d2.freeWord % 801
    | v => min 1200 (d2.openInt 0 (v.mul (.num false 100 0))).toNat
  (d2.set THM_DEMAND.Q 0 hundredths).drew

/-- A modulated duty after one change (R557). DESIGN CHOICE: `round` is to nearest, ties to even. Log: 147 (DEDUCED). -/
def Dev.nextDuty (d : Dev) (duty : Nat) : Nat :=
  let err : Int := 2 * (d.get THM_DEMAND.Q 0 : Int) - d.flow2
  let c : Int := signedMag (decide (err < 0)) (let n := err.natAbs
    n / 20 + (if n % 20 > 10 || (n % 20 == 10 && n / 20 % 2 == 1) then 1 else 0))
  (max 1 (min 255 ((duty : Int) + max (-8) (min 8 c)))).toNat

/-- The change of every 10 ms (R557). -/
def Dev.flowActuate (d : Dev) : Dev :=
  if !d.loopOn then d
  else match d.get THM_FLOW_CTL.ACT 0 with
  | 0 => d.set THM_DEMAND.PUMP_DUTY 0 (d.nextDuty (d.get THM_DEMAND.PUMP_DUTY 0))
  | 1 => d.set THM_DEMAND.VALVE_DUTY 0 (d.nextDuty (d.get THM_DEMAND.VALVE_DUTY 0))
  | _ =>
    (d.set THM_DEMAND.PUMP_DUTY 0 (d.get THM_FLOW_CTL.PUMP_FIX 0)).set THM_DEMAND.VALVE_DUTY 0
      (d.nextDuty (d.get THM_DEMAND.VALVE_DUTY 0))

/-- The temperature of a thermistor resistance, both FP32 codes (R613). A resistance too small for the formula is that of a short,
which reads above 120 °C. Log: 148 (DEDUCED). -/
def ntcTemp (r : Nat) : Nat :=
  let ratio := f32Div (elemRaw 0 r) (f32Nat 10000)
  let l := elemRaw 0 (transc 0x35 (conv 0 ratio).1).1
  let inv := f32Add (f32Div f32One (f32Ratio 29815 100)) (f32Div l (f32Nat 3435))
  if f32Zero.lt inv then (conv 0 (f32Sub (f32Div f32One inv) (f32Ratio 27315 100))).1 else 0x7F800000

/-- A thermistor reads outside −20 °C to 120 °C (Table 19-4). Log: 148 (DEDUCED). -/
def Dev.ntcOut (d : Dev) (k : Nat) : Bool :=
  let t := elemRaw 0 (nth 0 d.pwr.temps k)
  t.lt (f32Nat 20).neg || (f32Nat 120).lt t

/-- A temperature register's field: 0.1 °C, limited to its 12 bits. -/
def Dev.tempField (d : Dev) (k : Nat) : Nat :=
  let t := elemRaw 0 (nth 0 d.pwr.temps k)
  let v : Int := match t with
    | .inf s => if s then -2048 else 2047
    | _ => d.openInt k (t.mul (.num false 10 0))
  ofSigned 12 (max (-2048) (min 2047 v))

/-- The thermistors are sampled (R613). Log: 146 (DESIGN CHOICE). -/
def Dev.ntcSample (d : Dev) (rs : List Nat) : Dev :=
  let d1 := d.setPwr { d.pwr with temps := (List.range 4).map fun k => ntcTemp (nth 0x7F800000 rs k) }
  let d2 := d1.setPwr { d1.pwr with
    inletFault := d1.pwr.inletFault && d1.ntcOut 0
    outletFault := d1.pwr.outletFault && d1.ntcOut 1 }
  let d3 := (d2.set THM_TEMP0.T_IN 0 (d2.tempField 0)).set THM_TEMP0.T_OUT 0 (d2.tempField 1)
  ((d3.set THM_TEMP1.T_AUX2 0 (d2.tempField 2)).set THM_TEMP1.T_AUX3 0 (d2.tempField 3)).drew

/-- A condition of Table 19-4 holds: the bit of THM_STAT, and the thermistor where it names one. -/
def Dev.condition (d : Dev) (kind sub : Nat) : Bool :=
  let tIn := toSigned 12 (d.get THM_TEMP0.T_IN 0)
  let tOut := toSigned 12 (d.get THM_TEMP0.T_OUT 0)
  match kind with
  | 0 => decide (450 < tIn)
  | 1 => decide (tIn < 200)
  | 2 => decide (d.flow2 < 800) && d.get THM_DEMAND.Q 0 == 1200
  | 3 => d.flowsDiffer
  | 4 => decide (sub < 4) && d.ntcOut sub
  | 5 => decide (((10 * d.get THM_FLOW_CTL.OUT_SET 0 + 100 : Nat) : Int) < tOut)
  | _ => false

/-- A condition caps the power: the inlet, the flow, the outlet and the outlet's thermistor (Table 19-4). -/
def capping (kind sub : Nat) : Bool := kind == 0 || kind == 2 || kind == 5 || (kind == 4 && sub == 1)

/-- A condition has persisted for its time (R558, Table 19-4). `sub` is the flow input or the thermistor that the record names.
Log: 149 (DEDUCED). -/
def Dev.coolant (d : Dev) (kind sub : Nat) : Dev :=
  if !d.condition kind sub then d
  else
    let place := match kind with
      | 2 => (2, sub % 2)
      | 3 => (2, sub % 2)
      | 4 => (3, sub)
      | 5 => (3, 1)
      | _ => (3, 0)
    let d1 := (d.thmEvent kind).log 0x0F 0 0 none 0 place.1 place.2 0 0
    let x := d1.pwr
    let d2 := d1.setPwr { x with
      mismatch := x.mismatch || kind == 3
      inletFault := x.inletFault || (kind == 4 && sub == 0)
      outletFault := x.outletFault || (kind == 4 && sub == 1)
      causes := if capping kind sub then sins kind x.causes else x.causes }
    if capping kind sub then d2.set PWR_STAT.FAULT_CAP 0 1 else d2

/-- Every cause of the cap has been clear for 10 s (R558). -/
def Dev.capRelease (d : Dev) : Dev :=
  if d.pwr.causes.any fun k => d.condition k 1 then d
  else (d.setPwr { d.pwr with causes := [] }).set PWR_STAT.FAULT_CAP 0 0

/-! ## Recess -/

/-- Why Recess may not be entered (R559, Table 19-9); 0 when it may. Log: 150 (DEDUCED). -/
def Dev.recessCode (d : Dev) : Nat :=
  let roomOk := fun (r : Nat) =>
    (d.roomState r == stEmpty || (d.roomState r == stHeld && d.get ROOM_STATUS.HOLD_CAUSE r == 1)) && d.get ROOM_RUN.VALID r == 0
  if !(List.range 16).all roomOk || d.que.op.isSome then 0x0C01
  else if (List.range 12).any fun p => d.get KL_PORT_CTL.EN p == 1 then 0x0C02
  else if (List.range 128).any (fun c => d.get DMA_CH_STAT.STATE c == 1 || d.get DMA_CH_STAT.STATE c == 2)
      || !d.med.jobs.isEmpty || !d.med.preps.isEmpty || !d.med.packs.isEmpty || !d.vc.frames.isEmpty then 0x0C03
  else 0

/-- Recess is entered (R559, R560): the Timetable stops. Before READY and outside AWAKE the write is ignored (R564, R583).
Log: 66 (DEDUCED). -/
def Dev.recessEnter (d : Dev) : Dev :=
  if d.boot.stage != .ready || !d.awake then d
  else
    let code := d.recessCode
    if code ≠ 0 then d.set PWR_STAT.CODE 0 code
    else
      let d1 := d.set PWR_RECESS.STATE 0 1
      let d2 := { d1 with bell := { d1.bell with started := false, place := none, late := none, trail := false } }
      if d2.get PWR_STAT.ADV 0 = 1 then
        ((d2.setPwr { d2.pwr with adv := none }).set PWR_STAT.ADV 0 0).send (.pin "LOAD_ADV" 0)
      else d2

/-- A RETAIN region of the active frame of a HELD Room overlaps a retention segment (R88, R561). -/
def Dev.retained (d : Dev) (i seg : Nat) : Bool :=
  let f := deskBase i + offActive
  (match d.spindleRoom i with
   | some r => d.roomState r == stHeld
   | none => false)
  && (List.range (min 128 (d.rdByte (f + 9)).toNat)).any fun k =>
    let e := f + 0x100 + 32 * k
    bitAt (d.rdByte (e + 9)).toNat 0 && decide (d.rdLe e 4 < (seg + 1) * 262144) && decide (seg * 262144 < d.rdLe e 4 + d.rdLe (e + 4) 4)

/-- A byte of the Desk window survives Recess. -/
def Dev.survives (d : Dev) (a : Nat) : Bool := decide (a % 2 ^ 24 < offBobbin) && d.retained (spindleAt a) (a % 2 ^ 24 / 262144)

/-- The controllers complete their outstanding requests (R343), in the order in which they arrived. -/
def Dev.drainTiers (d : Dev) : Dev :=
  (byArrival (d.memx.reqs.filter fun q => q.phase == .held || q.phase == .queued || q.phase == .flight)).foldl (fun (e : Dev) q =>
    if q.write then e.performWrite q
    else e.setReq { q with phase := .ended 0, data := e.rdBytes q.addr q.len, bad := e.badRanges q.addr q.len }) d

/-- A Room's switch-box banks are lost (R561). -/
def Dev.loseBanks (d : Dev) (r : Nat) : Dev := d.setRoom r { d.room r with bankA := [], bankS := [] }

/-- Entry ends (R343, R560, R561), once no channel retrains: requests complete, and of the Spindle dies only the retained segments keep
their contents. A wake event during the entry then starts the wake (R563). Log: 150 (DEDUCED). -/
def Dev.recessReached (d : Dev) : Dev :=
  if d.get PWR_RECESS.STATE 0 ≠ 1 || !d.memx.prior.isEmpty then d
  else
    let d := d.drainTiers
    let d1 := { d with
      mem := d.mem.filter fun c => decide (c.1 < deskBase 0) || d.survives c.1
      poisonW := d.poisonW.filter d.survives
      spx := []
      reels := []
      net := NetSt.init
      pwr := { d.pwr with wakeWait := false } }
    let d2 := (List.range 16).foldl Dev.loseBanks ((List.range 1024).foldl (fun e i => (e.wr SPX_VX_STAT i 0).wr SPX_MX_STAT i 0) d1)
    d2.set PWR_RECESS.STATE 0 (if d.pwr.wakeWait then 3 else 2)

/-- A wake event (R563); during the entry it waits. Log: 150 (DEDUCED). -/
def Dev.wake (d : Dev) : Dev :=
  match d.get PWR_RECESS.STATE 0 with
  | 1 => d.setPwr { d.pwr with wakeWait := true }
  | 2 => d.set PWR_RECESS.STATE 0 3
  | _ => d

/-- The planes and switch-box banks of a HELD Room are rewritten from its image (Table 19-7). -/
def Dev.rewriteRoom (d : Dev) (r : Nat) : Dev :=
  if d.roomState r = stHeld then ((d.roomSpindles r).foldl (fun e i => e.rewritePlanes r (e.dirPlace r i) i) d).writeBanks r else d

/-- The retraining of a channel in service at wake (R331, R332, R343): it is counted, and no channel waits for one any more. -/
def Dev.wakeTrain (d : Dev) (c result : Nat) : Dev :=
  let x := d.memx
  let d1 := { d with memx := { x with trains := x.trains ++ [(c, d.now)], trainWait := srem c x.trainWait, ceNow := tdel x.ceNow c } }
  (((d1.raise MEM_STATUS.RETRAIN_EV 0).count MEM_RETRAIN_CNT c 1)).set MEM_CHAN_STATE.MARGINAL c (bit (result == 1))

/-- The wake ends (R343, R563): every channel in service has been retrained, those of `fails` with FAIL and those of `marginal` with
MARGINAL, which have their effects before READY (R333, R334, R342). Log: 150 (DEDUCED). -/
def Dev.wakeComplete (d : Dev) (fails marginal : List Nat) : Dev :=
  if d.get PWR_RECESS.STATE 0 ≠ 3 then d
  else
    let cs := (List.range 448).filter fun c => d.get MEM_CHAN_STATE.STATE c != 3 && d.get MEM_CHAN_STATE.STATE c != 4
    let result := fun (c : Nat) => if fails.contains c then 2 else if marginal.contains c then 1 else 0
    let d0 := cs.foldl (fun (e : Dev) c => e.wakeTrain c (result c)) d
    let bad := (cs.filter fails.contains).foldl (fun (e : Dev) c => e.trainFail c (e.get MEM_CHAN_STATE.STATE c)) d0
    let d1 := (cs.filter fun c => !fails.contains c).foldl (fun (e : Dev) c => e.retireWorn c (result c)) bad
    let d2 := (List.range 16).foldl Dev.rewriteRoom d1
    ((d2.set PWR_RECESS.STATE 0 0).raise PWR_STAT.WAKE_EV 0).alert 7

/-! ## Commands -/

def execPowerCheck (mean v48 : Nat) (s : State) := s.onDev fun d => d.powerCheck mean v48

def execSupplyRampDone (s : State) := s.onDev fun d => d.rampDone

def execDrawControl (x : DrawSample) (s : State) := s.onDev fun d => d.drawControl x

def execPwrCapInAssert (us mean : Nat) (s : State) := s.onDev fun d => d.capIn us mean

def execPwrCapInDeassert (us : Nat) (s : State) := s.onDev fun d => d.capOut us

def execTjSample (ts : List Nat) (s : State) := s.onDev fun d => d.tjSample ts

def execFlowPulse (input : Nat) (s : State) := s.onDev fun d => if input < 2 then d.flowPulse input else d

def execFlowDemand (s : State) := s.onDev fun d => d.flowDemand

def execFlowActuate (s : State) := s.onDev fun d => d.flowActuate

def execNtcSample (rs : List Nat) (s : State) := s.onDev fun d => d.ntcSample rs

def execCoolantCondition (kind sub : Nat) (s : State) := s.onDev fun d => d.coolant kind sub

def execFaultCapRelease (s : State) := s.onDev fun d => d.capRelease

def execRecessEnter (fn : Nat) (s : State) := s.onHost fn PWR_RECESS fun d => if fn = 0 then d.recessEnter else d

def execRecessReached (s : State) := s.onDev fun d => d.recessReached

def execWake (fn : Nat) (s : State) := s.onHost fn PWR_RECESS fun d => if fn = 0 then d.wake else d

def execWakeTime (s : State) := s.onDev fun d =>
  if d.get PWR_RECESS.WAKE_TIME 0 = 1 ∧ d.get64 PWR_WAKE_AT_LO PWR_WAKE_AT_HI 0 ≤ d.now then d.wake else d

def execLinkCtlWake (p : Nat) (s : State) := s.onDev fun d =>
  if p < 12 ∧ d.get PWR_RECESS.WAKE_KL 0 = 1 then d.wake else d

def execWakeSend (fn ports : Nat) (s : State) := s.onHost fn PWR_WAKE_SEND fun d =>
  if fn = 0 then d.wakeSend ports else d

def execWakeComplete (fails marginal : List Nat) (s : State) := s.onDev fun d => d.wakeComplete fails marginal

end Sys2Proof.Machine
end

