-- ==== Sys2Proof/Machine/Dma.lean ====
section
/-! DEFINITION. DMA channels: start and stop, descriptors, requests, write-back, errors and poison (Reels, streaming and
DMA, R372 to R382, R616). -/

namespace Sys2Proof.Machine

/-- A channel's state between its steps. -/
def Dev.dmaSt (d : Dev) (ch : Nat) : DmaSt := tget (fun _ => DmaSt.init) d.dma ch
def Dev.setDma (d : Dev) (ch : Nat) (x : DmaSt) : Dev := { d with dma := tset (fun _ => DmaSt.init) d.dma ch x }

/-- The Room that a channel is assigned to (R372). -/
def Dev.dmaRoom (d : Dev) (ch : Nat) : Option Nat :=
  if d.get DMA_CH_CTL.ROOM_EN ch = 1 then some (d.get DMA_CH_CTL.ROOM ch) else none

/-- The function that owns a channel. -/
def Dev.dmaFn (d : Dev) (ch : Nat) : Nat := if d.get DMA_CH_CTL.ROOM_EN ch = 1 then 1 + d.get DMA_CH_CTL.ROOM ch else 0

/-- A function reaches a channel's registers (R372). -/
def Dev.dmaReach (d : Dev) (fn ch : Nat) : Bool := decide (ch < 128) && (fn == 0 || fn == d.dmaFn ch)

/-- MSI-X table size of a function (R578). -/
def msixSize (fn : Nat) : Nat := if fn = 0 then 256 else 112

/-- DMA_CH_NEXT. -/
def Dev.dmaNext (d : Dev) (ch : Nat) : Nat := d.get64 DMA_CH_NEXT_LO DMA_CH_NEXT_HI ch

/-- A channel comes to rest: the DMA_START command that waits for it completes with `code`, and DETAIL the descriptors
completed (R380). -/
def Dev.dmaSettle (d : Dev) (ch state code : Nat) : Dev :=
  let x := d.dmaSt ch
  let d1 := ((d.set DMA_CH_STAT.STATE ch state).set DMA_CH_CTL.STOP ch 0).setDma ch DmaSt.init
  match x.cmd.bind d1.cmd? with
  | some c => d1.complete c code (x.done % 65536)
  | none => d1

/-- Halt a channel (R375, R378). Log: 92 (DEDUCED). -/
def Dev.dmaHalt (d : Dev) (ch code addr dir : Nat) (host desc : Bool) : Dev :=
  let d1 := (d.set64 DMA_CH_ERR_ADDR_LO DMA_CH_ERR_ADDR_HI ch addr).wr DMA_CH_ERR_INFO ch (dir + 2 * bit host + 4 * bit desc)
  ((d1.set DMA_CH_STAT.CODE ch code).raise DMA_CH_STAT.HALT_EV ch).dmaSettle ch 4 code

/-- Start a channel at DMA_CH_NEXT (R375). -/
def Dev.dmaGo (d : Dev) (ch : Nat) (cmd : Option Nat) : Dev :=
  let st := d.get DMA_CH_STAT.STATE ch
  if st = 0 || st = 3 || st = 4 then
    let d1 := ((d.set DMA_CH_STAT.STATE ch 1).set DMA_CH_CTL.GO ch 0).setDma ch { DmaSt.init with cmd := cmd }
    if d1.get DMA_CH_CTL.DESC_LOC ch = 1 then d1.send (.hostRead (d1.dmaFn ch) (d1.dmaNext ch) 64) else d1
  else d

/-- Fields of a descriptor (Table 12-4). -/
def dw (b : List (BitVec 8)) (off n : Nat) : Nat := ofLe ((b.drop off).take n)
def descOp (b : List (BitVec 8)) : Nat := bitsOf (dw b 0 4) 0 2
def descSrcHost (b : List (BitVec 8)) : Bool := bitAt (dw b 0 4) 2
def descDstHost (b : List (BitVec 8)) : Bool := bitAt (dw b 0 4) 3

/-- A valid descriptor (R374, R375). `host`: descriptors lie in host memory, and NEXT is a bus address. -/
def descOk (host : Bool) (b : List (BitVec 8)) : Bool :=
  let w0 := dw b 0 4
  let op := descOp b
  let hi := fun (a : Nat) => decide (a < 2 ^ 52)
  op != 3 && bitsOf w0 5 26 == 0 && !(descSrcHost b && descDstHost b) && dw b 4 4 != 0
    && (op != 1 || (dw b 8 8 == 0 && !descSrcHost b)) && (op == 1 || dw b 44 4 == 0)
    && (if op = 2 then dw b 32 4 != 0 else dw b 32 4 == 0 && dw b 36 4 == 0 && dw b 40 4 == 0)
    && (descSrcHost b || op == 1 || hi (dw b 8 8)) && (descDstHost b || hi (dw b 16 8))
    && dw b 24 8 % 64 == 0 && (host || hi (dw b 24 8)) && dw b 48 8 == 0

/-- Rows of a descriptor, and the addresses at which its present request reads and writes (R616). -/
def descRows (b : List (BitVec 8)) : Nat := if descOp b = 2 then dw b 32 4 else 1
def DmaSt.src (x : DmaSt) (b : List (BitVec 8)) : Nat := dw b 8 8 + x.row * dw b 36 4 + x.off
def DmaSt.dst (x : DmaSt) (b : List (BitVec 8)) : Nat := dw b 16 8 + x.row * dw b 40 4 + x.off

/-- Bytes of the present request: up to the row's end and the next 512-byte boundary of either address (R616). -/
def DmaSt.size (x : DmaSt) (b : List (BitVec 8)) : Nat :=
  let left := dw b 4 4 - x.off
  let toEdge := fun (a : Nat) => 512 - a % 512
  min left (min (if descOp b = 1 then 512 else toEdge (x.src b)) (toEdge (x.dst b)))

/-- Begin the present request of a descriptor: its read, on the device or in host memory; none for FILL (R616). -/
def Dev.dmaRead (d : Dev) (ch : Nat) : Dev :=
  let x := d.dmaSt ch
  match x.desc with
  | none => d
  | some b =>
    if descOp b = 1 then d
    else if descSrcHost b then (d.send (.hostRead (d.dmaFn ch) (x.src b) (x.size b))).setDma ch { x with hostWait := true }
    else
      let p := d.request (.dma ch) (d.dmaRoom ch) false (x.src b) (x.size b) [] []
      p.1.setDma ch { x with read := some p.2 }

/-- The code with which a fetched descriptor halts its channel, the lowest that applies (R375, R383); 0 for a valid one. -/
def Dev.descCode (d : Dev) (ch : Nat) (b : List (BitVec 8)) : Nat :=
  firstCode [need (!(bitAt (dw b 0 4) 4 && decide (msixSize (d.dmaFn ch) ≤ d.get DMA_CH_VECTOR.VECTOR ch))) 0x0002,
    need (descOk (d.get DMA_CH_CTL.DESC_LOC ch == 1) b) 0x0303]

/-- A halt at the fetch of a descriptor, none of whose bytes have moved (R378). -/
def Dev.fetchHalt (d : Dev) (ch code : Nat) : Dev :=
  (d.wr DMA_CH_BYTES ch 0).dmaHalt ch code (d.dmaNext ch) 0 (d.get DMA_CH_CTL.DESC_LOC ch == 1) true

/-- Act on a fetched descriptor (R375). -/
def Dev.dmaDescriptor (d : Dev) (ch : Nat) (b : List (BitVec 8)) : Dev :=
  let c := d.descCode ch b
  if !bitAt (dw b 0 4) 31 then (d.raise DMA_CH_STAT.DONE_EV ch).dmaSettle ch 0 0
  else if c ≠ 0 then d.fetchHalt ch c
  else
    ((d.wr DMA_CH_BYTES ch 0).setDma ch { d.dmaSt ch with desc := some b, row := 0, off := 0, status := 0 }).dmaRead ch

/-- A descriptor fetch ends (R375, R378). On the device the fetch is checked and charged like any access of the owner. -/
def Dev.descriptorFetch (d : Dev) (ch : Nat) (host : List (BitVec 8)) (how : HostEnd) : Dev :=
  if 128 ≤ ch || d.get DMA_CH_STAT.STATE ch ≠ 1 || (d.dmaSt ch).desc.isSome then d else
  let a := d.dmaNext ch
  if d.get DMA_CH_CTL.DESC_LOC ch = 1 then
    match how with
    | .ok => d.dmaDescriptor ch ((host ++ List.replicate 64 0).take 64)
    | _ => d.fetchHalt ch 0x0310
  else
    let c := d.accessCode (d.dmaRoom ch) a 64
    if c ≠ 0 then (d.winEv (d.dmaRoom ch)).fetchHalt ch c
    else if d.requestWaits (d.dmaRoom ch) a 64 then d.heldAt (d.dmaRoom ch) a
    else
      let d1 := d.payOne (d.dmaRoom ch) false a 64
      if d1.poisoned a 64 then d1.fetchHalt ch 0x0410 else d1.dmaDescriptor ch (d1.rdBytes a 64)

/-- Write a descriptor back (R376): bytes 56 to 63, then OWN = 0. Answers the code with which the write-back failed, 0 when it
was made. -/
def Dev.dmaWriteBack (d : Dev) (ch status : Nat) (b : List (BitVec 8)) : Dev × Nat :=
  let a := d.dmaNext ch
  let st := toLe 4 status ++ toLe 4 (d.rd DMA_CH_BYTES ch)
  let w0 := toLe 4 (dw b 0 4 % 2 ^ 31)
  if d.get DMA_CH_CTL.DESC_LOC ch = 1 then
    ((d.send (.hostWrite (d.dmaFn ch) (a + 56) st)).send (.hostWrite (d.dmaFn ch) a w0), 0)
  else
    let c := d.accessCode (d.dmaRoom ch) a 64
    if c ≠ 0 then (d.winEv (d.dmaRoom ch), c)
    else if d.deadRange a 64 then (d, 0x0411)
    else ((d.wrBytes (a + 56) st).wrBytes a w0, 0)

/-- The two writes of a write-back wait for tokens and channels like any access of the channel's owner (R322, R372): the state,
and whether they issue. -/
def Dev.dmaBackGate (d : Dev) (ch : Nat) : Dev × Bool :=
  let a := d.dmaNext ch
  match d.dmaRoom ch with
  | some r =>
    if d.get DMA_CH_CTL.DESC_LOC ch = 1 || d.accessCode (some r) a 64 ≠ 0 then (d, true)
    else d.gate (.dma ch) r [(true, a + 56, 8), (true, a, 4)]
  | none => (d, d.get DMA_CH_CTL.DESC_LOC ch == 1 || !d.training [(a, 64)])

/-- A descriptor has moved all its bytes (R375, R376, R377): the write-back, once it may issue, then the MSI-X message and the
next descriptor. A descriptor that completes with a code leaves it in DMA_CH_STAT.CODE (Table 12-8). Log: 91 (DEDUCED). -/
def Dev.dmaDone (d0 : Dev) (ch : Nat) (b : List (BitVec 8)) : Dev :=
  let g := d0.dmaBackGate ch
  let d := g.1
  if !g.2 then d else
  let x := d.dmaSt ch
  let p := d.dmaWriteBack ch x.status b
  if p.2 ≠ 0 then p.1.dmaHalt ch p.2 (d.dmaNext ch) 1 (d.get DMA_CH_CTL.DESC_LOC ch == 1) true
  else
    let d1 := if bitAt (dw b 0 4) 4 then p.1.msix (d.dmaFn ch) (d.get DMA_CH_VECTOR.VECTOR ch) else p.1
    let d2 := (d1.count DMA_CH_DONE_CNT ch 1).set64 DMA_CH_NEXT_LO DMA_CH_NEXT_HI ch (dw b 24 8)
    let d3 := (if x.status = 0 then d2 else d2.set DMA_CH_STAT.CODE ch x.status).setDma ch
      { DmaSt.init with cmd := x.cmd, done := x.done + 1 }
    if dw b 24 8 = 0 then (d3.raise DMA_CH_STAT.DONE_EV ch).dmaSettle ch 0 0
    else if d.get DMA_CH_STAT.STATE ch = 2 then d3.dmaSettle ch 3 0
    else if d3.get DMA_CH_CTL.DESC_LOC ch = 1 then d3.send (.hostRead (d3.dmaFn ch) (d3.dmaNext ch) 64)
    else d3

/-- The present request has been written: count it and go on (R616). -/
def Dev.dmaAdvance (d : Dev) (ch n : Nat) : Dev :=
  let x := d.dmaSt ch
  match x.desc with
  | none => d
  | some b =>
    let d1 := d.count DMA_CH_BYTES ch n
    let off := x.off + n
    let x1 := if off < dw b 4 4 then { x with off := off, read := none, write := none, hostWait := false, stage := none }
      else { x with row := x.row + 1, off := 0, read := none, write := none, hostWait := false, stage := none }
    let d2 := d1.setDma ch x1
    if x1.row < descRows b then d2.dmaRead ch else d2.dmaDone ch b

/-- Write the bytes of the present request (R616), of which the ranges `bad` are poisoned (R379). Log: 91 (DEDUCED). -/
def Dev.dmaWrite (d : Dev) (ch : Nat) (b bs : List (BitVec 8)) (bad : List (Nat × Nat)) : Dev :=
  let x := d.dmaSt ch
  if descDstHost b then (d.send (.hostWrite (d.dmaFn ch) (x.dst b) bs)).dmaAdvance ch bs.length
  else
    let d1 := if bad.isEmpty then d else (d.raise DMA_CH_STAT.POISON_EV ch).setDma ch { x with status := 0x0410 }
    let p := d1.request (.dma ch) (d1.dmaRoom ch) true (x.dst b) bs.length bs bad
    match p.1.endCode p.2 with
    | some c =>
      let d2 := p.1.dropReq p.2
      if c = 0 then d2.dmaAdvance ch bs.length else d2.dmaHalt ch c (x.dst b) 1 false false
    | none => p.1.setDma ch { p.1.dmaSt ch with write := some p.2, read := none }

/-- The bytes that FILL writes: the pattern repeated, byte 0 first (Table 12-4). -/
def fillBytes (b : List (BitVec 8)) (off n : Nat) : List (BitVec 8) :=
  (List.range n).map fun k => nth 0 (toLe 4 (dw b 44 4)) ((off + k) % 4)

/-- The data of a device read goes on to its destination (R379): towards the host, the bytes before a poisoned sector are
written and the channel halts. -/
def Dev.dmaDeviceRead (d : Dev) (ch : Nat) (b : List (BitVec 8)) (q : MemReq) : Dev :=
  let x := d.dmaSt ch
  let d1 := d.dropReq q.id
  match q.phase with
  | .ended c =>
    if c ≠ 0 then d1.dmaHalt ch c q.addr 0 false false
    else match q.bad with
      | p :: _ =>
        if descDstHost b then
          let d2 := if p.1 = 0 then d1 else
            (d1.send (.hostWrite (d1.dmaFn ch) (x.dst b) (q.data.take p.1))).count DMA_CH_BYTES ch p.1
          d2.dmaHalt ch 0x0312 (q.addr + p.1) 0 false false
        else d1.dmaWrite ch b q.data q.bad
      | [] => d1.dmaWrite ch b q.data []
  | _ => d

/-- A channel has data that a mover can move (R373): nothing of its present request waits. -/
def Dev.dmaReady (d : Dev) (ch : Nat) : Bool :=
  let x := d.dmaSt ch
  match x.desc with
  | none => false
  | some b =>
    x.write.isNone && decide (x.row < descRows b)
      && (descOp b == 1 || x.stage.isSome || (match x.read.bind d.endCode with
        | some _ => true
        | none => false))

/-- A channel's turn among those of its level (R373): how far it stands after the channel served last. -/
def Dev.dmaTurn (d : Dev) (ch : Nat) : Nat := (ch + 255 - nth 0 d.memx.movers (d.get DMA_CH_CTL.LEVEL ch)) % 128

/-- One of the four movers serves a channel (R373): fewer than four ready channels are more urgent, or of its level and before
it in turn. Log: 167 (DEDUCED). -/
def Dev.dmaServed (d : Dev) (ch : Nat) : Bool :=
  let lvl := d.get DMA_CH_CTL.LEVEL ch
  let ahead := (d.dma.map fun p => p.1).filter fun q =>
    q != ch && d.dmaReady q && (decide (d.get DMA_CH_CTL.LEVEL q < lvl)
      || (d.get DMA_CH_CTL.LEVEL q == lvl && decide (d.dmaTurn q < d.dmaTurn ch)))
  decide (ahead.length < 4)

/-- A mover has served a channel (R373). -/
def Dev.dmaTook (d : Dev) (ch : Nat) : Dev :=
  { d with memx := { d.memx with movers := setNth ch d.memx.movers (d.get DMA_CH_CTL.LEVEL ch) } }

/-- The data of a host read that has come (R373, R378, R379): they move on, or wait in the staging buffer for a mover. -/
def Dev.dmaHostData (d : Dev) (ch : Nat) (b bs : List (BitVec 8)) : Dev :=
  if d.dmaServed ch then (d.dmaTook ch).dmaWrite ch b bs []
  else d.setDma ch { d.dmaSt ch with stage := some bs, hostWait := false }

/-- A read or a write of the present request completes (R616, R378, R379), and a mover moves its data on (R373). -/
def Dev.dmaComplete (d : Dev) (ch : Nat) (host : List (BitVec 8)) (how : HostEnd) : Dev :=
  let x := d.dmaSt ch
  if 128 ≤ ch || (d.get DMA_CH_STAT.STATE ch ≠ 1 && d.get DMA_CH_STAT.STATE ch ≠ 2) then d else
  match x.desc with
  | none => d
  | some b =>
    match x.write with
    | some id =>
      match d.req? id with
      | some q =>
        match q.phase with
        | .ended c => if c = 0 then (d.dropReq id).dmaAdvance ch q.len else (d.dropReq id).dmaHalt ch c q.addr 1 false false
        | _ => d
      | none => d
    | none =>
      if descRows b ≤ x.row then d.dmaDone ch b
      else if x.hostWait then
        match how with
        | .ok => d.dmaHostData ch b ((host ++ List.replicate (x.size b) 0).take (x.size b))
        | _ => d.dmaHalt ch 0x0310 (x.src b) 0 true false
      else if !d.dmaReady ch || !d.dmaServed ch then d
      else
        let d1 := d.dmaTook ch
        match x.stage with
        | some bs => d1.dmaWrite ch b bs []
        | none =>
          if descOp b = 1 then d1.dmaWrite ch b (fillBytes b x.off (x.size b)) []
          else match x.read.bind d.req? with
            | some q => d1.dmaDeviceRead ch b q
            | none => d

/-- STOP (R377): at once between descriptors, else when the present one has been written back. Log: 91 (DEDUCED). -/
def Dev.dmaStop (d : Dev) (ch : Nat) : Dev :=
  if d.get DMA_CH_STAT.STATE ch ≠ 1 then d
  else if (d.dmaSt ch).desc.isNone then d.dmaSettle ch 3 0
  else (d.set DMA_CH_STAT.STATE ch 2).set DMA_CH_CTL.STOP ch 1

/-- ABANDON (R378). -/
def Dev.dmaAbandon (d : Dev) (ch : Nat) : Dev := if d.get DMA_CH_STAT.STATE ch = 4 then d.dmaSettle ch 0 0 else d

/-- A write of DMA_CH_CTL's plain fields (R372): ROOM_EN and ROOM change only for the physical function while the channel
is IDLE or HALTED; the other fields take the write. -/
def Dev.dmaAssign (d : Dev) (fn ch val : Nat) : Dev :=
  let st := d.get DMA_CH_STAT.STATE ch
  let d1 := (d.set DMA_CH_CTL.LEVEL ch (bitsOf val 3 2)).set DMA_CH_CTL.DESC_LOC ch (bitsOf val 5 1)
  if fn = 0 && (st = 0 || st = 4) then
    (d1.set DMA_CH_CTL.ROOM_EN ch (bitsOf val 6 1)).set DMA_CH_CTL.ROOM ch (bitsOf val 7 4)
  else d1

/-- The DMA_START command (R380). -/
def Dev.dmaStartCmd (d : Dev) (c : Cmd) : Dev :=
  let ch := bitsOf (c.arg 0) 0 7
  let st := d.get DMA_CH_STAT.STATE ch
  if d.dmaRoom ch ≠ some c.room then d.finish c 0x0301
  else if st ≠ 0 && st ≠ 3 then d.finish c 0x0302
  else
    let d1 := if bitAt (c.arg 0) 8 then d.set64 DMA_CH_NEXT_LO DMA_CH_NEXT_HI ch (c.arg64 2 / 64 * 64) else d
    ((d1.begin c .started 0).set DMA_CH_CTL.LEVEL ch c.level).dmaGo ch (some c.id)

/-- An unload stops one of the Room's channels (R381): the descriptor in progress is written back with 0x0160, whatever the
balance, and the channel goes IDLE from every state. -/
def Dev.dmaUnload (d : Dev) (ch : Nat) : Dev :=
  let d1 := match (d.dmaSt ch).desc with
    | some b =>
      let back := (d.dmaWriteBack ch 0x0160 b)
      let charged := if back.2 = 0 && d.get DMA_CH_CTL.DESC_LOC ch == 0 then back.1.charge (d.dmaRoom ch) (d.dmaNext ch) 256 else back.1
      if back.2 = 0 then charged.set DMA_CH_STAT.CODE ch 0x0160 else
        let e := (charged.set64 DMA_CH_ERR_ADDR_LO DMA_CH_ERR_ADDR_HI ch (d.dmaNext ch)).wr DMA_CH_ERR_INFO ch
          (1 + 2 * d.get DMA_CH_CTL.DESC_LOC ch + 4)
        (e.set DMA_CH_STAT.CODE ch back.2).raise DMA_CH_STAT.HALT_EV ch
    | none => d
  ((d1.set DMA_CH_STAT.STATE ch 0).set DMA_CH_CTL.STOP ch 0).setDma ch DmaSt.init

def execDmaGo (fn ch : Nat) (s : State) := s.onHost fn DMA_CH_CTL fun d => if d.dmaReach fn ch then d.dmaGo ch none else d

def execDmaStop (fn ch : Nat) (s : State) := s.onHost fn DMA_CH_CTL fun d => if d.dmaReach fn ch then d.dmaStop ch else d

def execDmaAbandon (fn ch : Nat) (s : State) := s.onHost fn DMA_CH_CTL fun d => if d.dmaReach fn ch then d.dmaAbandon ch else d

def execDmaAssign (fn ch val : Nat) (s : State) := s.onHost fn DMA_CH_CTL fun d => if d.dmaReach fn ch then d.dmaAssign fn ch val else d

def execDescriptorFetch (ch : Nat) (host : List (BitVec 8)) (how : HostEnd) (s : State) := s.onUnit 128 ch fun d => d.descriptorFetch ch host how

def execDmaReadComplete (ch : Nat) (host : List (BitVec 8)) (how : HostEnd) (s : State) := s.onUnit 128 ch fun d => d.dmaComplete ch host how

def execDmaStart (id : Nat) (s : State) := s.onDev fun d =>
  match d.starts id 0x10 with
  | some c => d.dmaStartCmd c
  | none => d

end Sys2Proof.Machine
end

