-- ==== Sys2Proof/Machine/Unload.lean ====
section
/-! DEFINITION. The end of an unload (Flaram images and partial reconfiguration, R111), and faults of the update, media,
preparation and video engines (R518, R520). -/

namespace Sys2Proof.Machine

/-! ## Unloading -/

/-- A command's engines abandon it: its decode, preparation and packing work is dropped and the units show it. -/
def Dev.abandonMedia (d : Dev) (ids : List Nat) : Dev :=
  let m := d.med
  let d1 := { d with med := { m with
    jobs := m.jobs.filter fun j => !ids.contains j.cmd
    samples := m.samples.filter fun s => !ids.contains s.cmd
    preps := m.preps.filter fun j => !ids.contains j.cmd
    geo := m.geo.filter fun u => !ids.contains u.cmd
    packs := m.packs.filter fun p => !ids.contains p.cmd } }
  let d2 := (m.samples.filter fun s => ids.contains s.cmd).foldl (fun (e : Dev) s =>
    match s.engine with
    | some k => e.wr MED_ENG_STAT k 0
    | none => e) d1
  let d3 := (m.geo.filter fun u => ids.contains u.cmd).foldl (fun (e : Dev) u => e.wr MED_GEO_STAT u.unit 0) d2
  (m.packs.filter fun p => ids.contains p.cmd).foldl (fun (e : Dev) p => e.wr MED_PACK_STAT p.unit 0) d3

/-- The streams and frames of a Room are dropped, and its windows are free (R507). -/
def Dev.abandonVideo (d : Dev) (r : Nat) : Dev :=
  let v := d.vc
  let d1 := { d with vc := { v with
    streams := v.streams.filter fun s => s.room != r
    frames := v.frames.filter fun f => f.room != r } }
  let d2 := (v.streams.filter fun s => s.room == r).foldl (fun (e : Dev) s =>
    match s.window with
    | some w => e.set VC_PRIV.IN_USE w 0
    | none => e) d1
  (v.frames.filter fun f => f.room == r).foldl (fun (e : Dev) f =>
    match f.engine with
    | some k => e.showEnc k
    | none => e) d2

/-- The semaphores that a Room holds. -/
def Dev.semsOf (d : Dev) (r : Nat) : List Nat :=
  d.regs.filterMap fun p =>
    match SEM_STATE.instAt p.1 with
    | some s => if s < 4096 ∧ d.get SEM_STATE.HELD s = 1 ∧ d.get SEM_STATE.ROOM s = r then some s else none
    | none => none

/-- Step 2 of an unload (R111, R155): every fetched command of the Room completes with 0x0160, the engines abandon them, the
semaphores it holds break, and its queues are unbound. Log: 53 (DEDUCED). -/
def Dev.unloadCommands (d : Dev) (r : Nat) : Dev :=
  let cs := d.que.cmds.filter fun c => c.room == r
  let d1 := ((d.haltRoom r).abandonMedia (cs.map fun c => c.id)).abandonVideo r
  let d2 := (((d1.wr ROOM_RUN r 0).rcEnable r false).set RED_CTL.EN r 0).setRed r RedSt.init
  let d3 := (d2.set UPD_STAT.RUNNING r 0).showEngines
  let d4 := cs.foldl (fun (e : Dev) c => if c.phase == .semWait then (e.finish c 0x0160).showSem (c.arg 0) else e.finish c 0x0160) d3
  let d5 := { d4 with
    que := { d4.que with raises := d4.que.raises.filter fun x => !(d4.room r).queues.contains x.queue }
    memx := { d4.memx with reqs := d4.memx.reqs.filter fun q => q.room != some r }
    kl := { d4.kl with remotes := d4.kl.remotes.filter fun q => q.owner != RemoteOwner.update r } }
  let d6 := (d5.semsOf r).foldl (fun (e : Dev) s => (e.set SEM_STATE.BROKEN s 1).semFree s) (d5.dropDues r)
  d6.unbindQueues (d6.room r).queues

/-- The channels of a Room stop (R381). -/
def Dev.unloadChannels (d : Dev) (r : Nat) : Dev :=
  (List.range 128).foldl (fun (e : Dev) ch =>
    if e.get DMA_CH_CTL.ROOM_EN ch = 1 ∧ e.get DMA_CH_CTL.ROOM ch = r then e.dmaUnload ch else e) d

/-- Steps 3 and 4 for one Spindle, and its release (R111). -/
def Dev.unloadSpindle (d : Dev) (i : Nat) : Dev :=
  let d1 := (d.clearSpindle i).zeroStorage i
  let d2 := (d1.zero (deskBase i + offActive) planeBytes).zero (deskBase i + offStandby) planeBytes
  (d2.set SPX_STATE.BOUND i 0).set SPX_STATE.ROOM i 0

/-- Every Spindle bound to a Room: those that serve it, and those retired with no spare (R524). -/
def Dev.boundTo (d : Dev) (r : Nat) : List Nat := (List.range 1024).filter fun i => d.spindleRoom i == some r

/-- A Spindle whose substitution failed is replaced once its Room is gone (R50, R521), or its position left unmapped (R524). -/
def Dev.replaceFailed (d : Dev) (i : Nat) : Dev :=
  let d1 := { d with flt := { d.flt with failed := srem i d.flt.failed } }
  match d1.freeSpare (i / 64) with
  | some s => d1.swapIn (d1.logicalOf i) i s
  | none => d1.retireNoSpare i 0x0B05

/-- Once the Room's work has stopped, the unload completes (R111, R155, R302, R381, R463). Log: 53 (DEDUCED). -/
def Dev.unloadRoom (d : Dev) (r : Nat) : Dev :=
  let x := d.room r
  let is := d.boundTo r
  let d1 := (d.set ROOM_STATUS.STATE r stUnloading).set ROOM_STATUS.HOLD_CAUSE r 0
  let d2 := (d1.unloadChannels r).unloadCommands r
  let d3 := is.foldl Dev.unloadSpindle (d2.xdMove false x.xd)
  let d4 := (d3.slotsClear r).tokClear r
  let d5 := (List.range 12).foldl (fun (e : Dev) k => e.wr CFG_DIGEST (12 * r + k) 0) d4
  let d6 := { d5 with bell := { d5.bell with leaving := d5.bell.leaving ++ [(x.lessons.length, x.entered)] } }
  let d7 := ((d6.setRoom r RoomSt.init).set ROOM_STATUS.STATE r stEmpty).set ROOM_STATUS.SLOTS r 0
  let d8 := ((d7.set ROOM_STATUS.SLOTS_USED r 0).set ROOM_STATUS.SWITCHING r 0).set CFG_STATUS.STANDBY_VALID r 0
  let d9 := (d8.flt.failed.filter is.contains).foldl Dev.replaceFailed d8
  (d9.showLesson r).endOp r 0

/-- UNLOAD_PROCEED: the unload in progress has brought the Room's work to a stop (R110). -/
def Dev.unloadProceed (d : Dev) (r : Nat) : Dev :=
  match d.que.op with
  | some o =>
    if o.kind = .unload ∧ o.room = r ∧ o.step = 1 ∧ (d.room r).switch = none ∧ d.planeGoing r = false ∧ (d.idle r ∨ d.allStopped r) then d.unloadRoom r else d
  | none => d

/-! ## Engine faults -/

/-- An entry of a PACK command ends with 0x0B10: what was written of its sample is free. -/
def Dev.packFault (d : Dev) (u k : Nat) : Dev :=
  match d.med.packs.find? fun p => p.unit == u with
  | none => d
  | some p =>
    match d.cmd? p.cmd, p.ends[k]? with
    | some c, some e =>
      let tb := d.tokenBytes c
      let d1 := if e.status = 0 then d.scrambleOut (d.packOut c + (e.a * d.packRow c + e.b) * tb) (e.c * tb) else d
      let q := { p with
        ends := setNth { e with status := 0x0B10 } p.ends k
        placed := if e.status = 0 then p.placed - 1 else p.placed }
      { d1 with med := { d1.med with packs := d1.med.packs.map fun x => if x.unit == u then q else x } }
    | _, _ => d

/-- The Room that an engine works for. -/
def Dev.engineFor (d : Dev) (k : Nat) : Option Nat :=
  let cmdRoom := fun (id : Nat) => (d.cmd? id).map fun c => c.room
  if k < 12 then (d.engineRoom k).map fun p => p.1
  else if k < 88 then (d.med.samples.find? fun s => s.engine == some (k - 12)).bind fun s => cmdRoom s.cmd
  else if k < 112 then (d.unit? (k - 88)).bind fun u => cmdRoom u.cmd
  else if k < 114 then (d.med.packs.find? fun p => p.unit == k - 112).bind fun p => cmdRoom p.cmd
  else (d.coding? (k - 114)).map fun x => x.f.room

/-- What an uncorrectable word in an engine does to its work (R518, R513). `at'` is the address of the state that an update
engine holds, or the entry that a packing unit copies. -/
def Dev.engineWork (d : Dev) (k at' : Nat) : Dev :=
  if k < 12 then
    match d.engineRoom k with
    | some (r, pass) =>
      match d.upd r with
      | some u =>
        let d1 := d.setUpd r (some (u.fails 0x0715))
        if pass = 2 && d1.inWindows r (at' / 64 * 64) 64 then d1.markPoison at' 2 else d1
      | none => d
    | none => d
  else if k < 88 then
    match d.held? (k - 12) with
    | some h => d.sampleFails h.c h.s 0x0B10 h.o.work 0xFFFFFFFFFFFFFFFF d.freeWord
    | none => d
  else if k < 112 then
    match d.unit? (k - 88) with
    | some x =>
      match d.cmd? x.cmd with
      | some c =>
        let g := d.geoOf c x.entry
        let d1 := (d.freeUnit (k - 88)).scrambleOut (c.dstBase + x.entry * c.dstStride) g.size
        d1.drew.prepEnds c x.entry 0x0B10 x.live x.age (g.ageAt d.now / 1000) d1.freeWord
      | none => d
    | none => d
  else if k < 114 then d.packFault (k - 112) at'
  else
    match d.coding? (k - 114) with
    | some x => d.frameFails x 0x0B10
    | none => d

/-- An uncorrectable word in an engine (R518, R520). An idle engine has none. Log: 110 (DEDUCED); 132 (DEDUCED). -/
def Dev.engineFault (d : Dev) (k at' : Nat) : Dev :=
  match d.engineFor k with
  | none => d
  | some r => (d.engineWork k at').strikeEngine k (some r) (if k < 12 then 0x0715 else 0x0B10) (if k < 12 then at' else 0)

def execUnloadProceed (r : Nat) (s : State) := s.onDev fun d => if r < 16 then d.unloadProceed r else d

def execEngineFault (k at' : Nat) (s : State) := s.onDev fun d => if k < 122 then d.engineFault k at' else d

end Sys2Proof.Machine
end

