-- ==== Sys2Proof/Machine/Access.lean ====
section
/-! DEFINITION. A host's access to a register of the window: what a function reaches, what a write stores, what a read returns
(Register reference, R584 to R588; Notation, R8 to R18). -/

namespace Sys2Proof.Machine

/-! ## What a write stores -/

/-- A field of a value, put into a range where it lies outside it. -/
def clampField (f : Field) (lo hi v : Nat) : Nat := setBits v f.lo f.width (max lo (min hi (bitsOf v f.lo f.width)))

/-- A field of a value, with 0 stored as 1. -/
def atLeastOne (v : Nat) (f : Field) : Nat := clampField f 1 (2 ^ f.width) v

/-- A sampling rate that turns its unit off at 0 and is limited to a range otherwise. -/
def rateField (f : Field) (lo hi v : Nat) : Nat := if bitsOf v f.lo f.width = 0 then v else clampField f lo hi v

/-- The fields that store 0 as 1 (Table 21-9). -/
def oneFields : List Field :=
  [NUM_SCALE_WAIT.WAIT_US, NUM_MON_CTL.THRESH, NUM_CLASS_CTL.DOWN_ROUNDS, MEM_RT_CTL.CE_THRESH, MEM_RT_CTL.RETIRE_N, MEM_RT_CTL.WIN_MS,
   MEM_SCRUB_CTL.PERIOD_H, MEM_SCRUB_CTL.RECESS_H, KL_LANE_CTL.LOL_N, KL_BELL_CTL.LEAD_US, KL_RC_TMO.TMO_US, RED_CHECK_CTL.STRIKES,
   RED_CHECK_CTL.WIN_S, UPD_TALLY_TMO.BASE_US, UPD_TALLY_TMO.HOP_US, FLT_CTL.STRIKES, FLT_CTL.WIN_S, FLT_CTL.CE_THRESH,
   THM_FF.LEAD_MS, THM_FF.AVG_MS, THM_COOL.FLOW_K]

/-- The value that a register stores when the host writes `v` to it (Table 21-9 and the tables of the home chapters).
Log: 189 (DESIGN CHOICE). -/
def stored (r : RegDesc) (v : Nat) : Nat :=
  let v := (oneFields.filter fun f => f.reg.base == r.base).foldl atLeastOne v
  if r.base = QUE_SIZE.base then (if 4 ≤ v ∧ v ≤ 16 then v else 4)
  else if r.base = NUM_SCALE_GROUPS.base then min v 65536
  else if r.base = NUM_MON_CTL.base then rateField NUM_MON_CTL.RATE_LOG2 6 16 v
  else if r.base = NUM_CLASS_CTL.base then clampField NUM_CLASS_CTL.LOST_LO (bitsOf v 0 4) 15 v
  else if r.base = MEM_MIG_CTL.base then clampField MEM_MIG_CTL.RATE 1 64 v
  else if r.base = RED_CHECK_CTL.base then rateField RED_CHECK_CTL.RATE_LOG2 4 12 v
  else if r.base = UPD_GROUPS.base then min v 1024
  else if r.base = AGE_CTL.base then
    let w := clampField AGE_CTL.TERM_H 1 720 v
    clampField AGE_CTL.TARGET_PS (bitsOf w 10 8) 255 w
  else if r.base = PWR_LIMIT.base then clampField PWR_LIMIT.CAP_W 1000 7500 (clampField PWR_LIMIT.TDP_W 4000 7500 v)
  else if r.base = PWR_RAMP.base then clampField PWR_RAMP.DOWN_W_MS 10 1000 (clampField PWR_RAMP.UP_W_MS 10 1000 v)
  else if r.base = THM_FLOW_CTL.base then (if bitsOf v 0 2 = 3 then v - 3 else v)
  else if r.base = DMA_CH_NEXT_LO.base || r.base = RED_TABLE_BASE_LO.base then v / 64 * 64
  else if r.base = UPD_GROUP_BASE_LO.base then v / 128 * 128
  else if r.base = AGE_CARD_ADDR_LO.base then v / 4096 * 4096
  else v

/-- A write of `v` to a register by its access types alone (R11, R12): the RW bits take the value as stored, the W1C bits written
as 1 clear, and every other bit stays. Log: 11 (DEDUCED). -/
def Dev.storeReg (d : Dev) (r : RegDesc) (i v : Nat) : Dev :=
  let old := d.rd r i
  let kept := old &&& (0xFFFFFFFF ^^^ (r.rw ||| (v &&& r.w1c)))
  d.wr r i (kept ||| (stored r (v &&& r.rw) &&& r.rw))

/-! ## What a function reaches -/

/-- An instance of a register that a function reaches (R123, R155, R384, R585). Log: 12 (DEDUCED). -/
def Dev.reach (d : Dev) (x : Reach) (fn : Nat) (r : RegDesc) (i : Nat) : Bool :=
  fn == 0 || match x with
  | .none => false
  | .all => true
  | .room => i / r.count2 + 1 == fn
  | .intset => i == fn
  | .queue => d.reachesQueue fn i
  | .sem => bitAt (d.get SEM_ACL.ROOMS i) (fn - 1)
  | .channel => d.dmaReach fn i
  | .spindle => d.spindleRoom i == some (fn - 1)

/-! ## What a read returns -/

/-- SYS_STATUS (Table 21-3, R588, R571). Log: 10 (DESIGN CHOICE). -/
def Dev.sysStatus (d : Dev) : Nat :=
  let ready := d.boot.stage == .ready && d.get PWR_RECESS.STATE 0 == 0
  let fw := (match d.boot.stage with | .firmware _ => true | .ready => true | _ => false) && !d.flt.wdogBusy
  bit ready + 2 * bit d.degraded + 4 * d.get FLT_STAT.FATAL 0 + 8 * bit (d.boot.stage == .failed) + 16 * bit fw
    + 32 * d.get PWR_RECESS.STATE 0 + 128 * d.get THM_STAT.TRIP 0 + 256 * d.get TIME_STAT.LOCKED 0

/-- The value that a register shows (R11): WO bits read as 0. -/
def Dev.shown (d : Dev) (r : RegDesc) (i : Nat) : Nat :=
  if r.base = SYS_STATUS.base then d.sysStatus
  else if r.base = INT_LEVEL.base then d.intLevel i
  else d.rd r i &&& (0xFFFFFFFF ^^^ r.wo)

end Sys2Proof.Machine
end

