-- ==== Sys2Proof/Machine/Boot.lean ====
section
/-! DEFINITION. Power-up, reset, boot, configuration requests, Function Level Reset, the management port and JTAG (Start-up, boot
and the host interface, R567 to R583; R555, R605, R607). -/

namespace Sys2Proof.Machine

/-- A meaning that always answers a next state. Where `hits` holds, the main domain is reset, and no function's window keeps
anything. -/
def State.onReset (s : State) (hits : Dev → Bool) (f : Dev → Dev) : Host.Outcome State Fault Refusal :=
  .next { s with fns := if hits s.dev then [] else s.fns, dev := f s.dev }

/-! ## Reset -/

/-- Write CFG_KEY_STAT as the key slots are provisioned (R101). -/
def Dev.showKeys (d : Dev) : Dev :=
  [1, 2, 3].foldl (fun (e : Dev) k => e.set ⟨CFG_KEY_STAT, 2 * k, 2⟩ 0 (tget (fun _ => 0) d.mgmt.slots k)) d

/-- A reset of the main domain (R568, R577): every register, engine and memory is as after reset. The auxiliary domain, the flash,
the one-time-programmable arrays and the powered time of the Term are kept (R531, R534, R545). Log: 152 (DEDUCED). -/
def Dev.mainReset (d : Dev) (stage : BootStage) : Dev :=
  let x := d.flt
  let d1 : Dev := { Dev.reset with
    out := d.out
    free := d.free
    mgmt := d.mgmt
    flt := { FltSt.init with
      otp := x.otp
      term := x.term
      poweredMin := x.poweredMin
      termStart := x.termStart
      faults := x.faults
      eyes := x.eyes
      snr := x.snr
      tjMax := x.tjMax
      leak := x.leak }
    boot := { d.boot with stage := stage, numVfs := 0, retired := [] } }
  (d1.wr THM_STAT 0 (d.rd THM_STAT 0)).showKeys

/-- Loss of main power besides (R538): the Term in progress is cut short and leaves nothing. Log: 152 (DEDUCED). -/
def Dev.powerLoss (d : Dev) : Dev :=
  let d1 := d.mainReset .held
  { d1 with flt := { FltSt.init with otp := d.flt.otp, term := 0 } }

/-- PWR_GOOD is deasserted (R568): the alert cause where RESET_N is released, and the device holds itself in reset. -/
def Dev.goodLost (d : Dev) : Dev :=
  let d1 := if d.boot.good && d.boot.released then d.alert 6 else d
  let d2 := if d.boot.good then d1.send (.pin "PWR_GOOD" 0) else d1
  { d2 with boot := { d2.boot with good := false } }

/-- Conversion is switched off (R555, R605). -/
def Dev.convOff (d : Dev) : Dev :=
  let d1 := d.goodLost.powerLoss
  { d1 with boot := { d1.boot with conv := false } }

/-- A reset of the running device from tr on (R577, R589): of a device that holds itself in reset there is none. -/
def Dev.runs (d : Dev) : Bool := d.boot.stage != .held
def Dev.deviceReset (d : Dev) : Dev := if d.runs then d.mainReset (.rom 0) else d

/-! ## Power -/

/-- The comparator reaches 115 °C (R555). -/
def Dev.trips (d : Dev) : Bool := d.boot.aux && d.boot.conv
/-- Log: 151 (DEDUCED). -/
def Dev.trip (d : Dev) : Dev := if d.trips then ((d.set THM_STAT.TRIP 0 1).alert 2).convOff else d

/-- V3P3_AUX reaches its threshold (R567, R579, R581). -/
def Dev.auxOn (d : Dev) (addrSel : Nat) : Dev :=
  if d.boot.aux then d
  else { d with
    mgmt := { d.mgmt with causes := 0, unmasked := 0xFF }
    boot := { d.boot with aux := true, addrSel := addrSel % 4 } }

/-- V48_IN reaches 40 V with RESET_N asserted (Table 20-1). Log: 151 (DEDUCED). -/
def Dev.v48On (d : Dev) : Dev :=
  if d.boot.aux && !d.boot.conv && !d.boot.released && d.get THM_STAT.TRIP 0 == 0 then { d with boot := { d.boot with conv := true } }
  else d

/-- Every rail regulates and the PLL is locked (R567). -/
def Dev.goodOn (d : Dev) : Dev :=
  if d.boot.conv && !d.boot.good then ({ d with boot := { d.boot with good := true } }).send (.pin "PWR_GOOD" 1) else d

/-- A rail leaves regulation, or the root PLL loses lock (R568; Table 18-1). -/
def Dev.railFalls (d : Dev) : Bool := d.boot.good && d.boot.released
def Dev.railFault (d : Dev) (pll : Bool) : Dev :=
  if d.railFalls then ((if pll then d.alert 1 else d).goodLost).mainReset .held else d

/-- V48_IN out of range, in 0.1 V, for a time in µs (R605). -/
def Dev.v48Fails (d : Dev) (v us : Nat) : Bool :=
  d.boot.conv && ((decide (v < 380) && decide (50 ≤ us)) || (decide (620 < v) && decide (10 ≤ us)))
def Dev.v48Out (d : Dev) (v us : Nat) : Dev := if d.v48Fails v us then d.convOff else d

/-- V3P3_AUX below 3.0 V for 10 µs (R605): the whole device is as at power-off. -/
def Dev.auxFails (d : Dev) (us : Nat) : Bool := d.boot.aux && decide (10 ≤ us)
def Dev.auxLost (d : Dev) (us : Nat) : Dev :=
  if d.auxFails us then
    let d1 := (d.goodLost.powerLoss).wr THM_STAT 0 0
    { d1 with
      mgmt := { d1.mgmt with causes := 0, unmasked := 0xFF }
      boot := { BootSt.init with aux := false, conv := false, good := false, released := d.boot.released, stage := .held } }
  else d

/-- RESET_N is asserted for a time in ns, with the hottest die at a temperature in 0.1 °C (R568, R607, R555). From 1 µs to 10 µs
the manual leaves open whether the device takes it. -/
def Dev.takesReset (d : Dev) (ns : Nat) : Bool := decide (1000 ≤ ns) && (decide (10000 ≤ ns) || d.freeWord % 2 != 0)
/-- Log: 151 (DEDUCED). -/
def Dev.resetAssert (d : Dev) (ns tj : Nat) : Dev :=
  if !d.takesReset ns then (if ns < 1000 then d else d.drew)
  else
    let d1 := d.drew.mainReset .held
    let d2 := if tj < 900 then d1.set THM_STAT.TRIP 0 0 else d1
    { d2 with boot := { d2.boot with released := false } }

/-- RESET_N is released (R568, R569): ignored while PWR_GOOD is deasserted, and while a trip holds. Log: 157 (PRESUMED). -/
def Dev.resetRelease (d : Dev) : Dev :=
  if d.boot.good && !d.boot.released && d.get THM_STAT.TRIP 0 == 0 then
    { d with boot := { d.boot with released := true, stage := .rom 0, tap := if 3 ≤ d.boot.tap then 0 else d.boot.tap } }
  else d

/-! ## Firmware -/

/-- Offset of a firmware slot (Table 20-4). -/
def slotBase (k : Nat) : Nat := if k = 0 then 0x1000 else 0x800000

/-- The boot ROM accepts a firmware slot (R570). Log: 16 (DESIGN CHOICE). -/
def Dev.slotOk (d : Dev) (k : Nat) : Bool :=
  let b := slotBase k
  let w := fun (o n : Nat) => ofLe (d.flashBytes (b + o) n)
  w 0 4 == 0x57465952 && decide (w 12 4 ≤ 8383488) && decide (d.mgmt.svnMin ≤ w 8 4)
    && (Config.sha384 (d.flashBytes (b + 512) (w 12 4))).toNat == w 0x10 48
    && Config.ecdsaVerifies Config.vendorKey (Config.sha384 (d.flashBytes b 0x40)) (d.flashBytes (b + 0x40) 96)

/-- A firmware slot has been read and verified (R570). -/
def Dev.firmwareVerified (d : Dev) : Dev :=
  match d.boot.stage with
  | .rom k =>
    if d.slotOk k then
      ({ d with boot := { d.boot with stage := .firmware [] } }).wr SYS_FW_VER 0 (ofLe (d.flashBytes (slotBase k + 4) 4))
    else { d with boot := { d.boot with stage := if k = 0 then .rom 1 else .noFirmware } }
  | _ => d

/-! ## The boot stages (Table 20-2) -/

/-- The board record (R572): eight registers, with the CRC-32 in the last bytes of its region. -/
def boardRegs : List RegDesc := [PWR_LIMIT, PWR_RAMP, PWR_FLOOR, PWR_ADV_CTL, THM_FLOW_CTL, THM_PI, THM_FF, THM_COOL]

def Dev.boardRecord (d : Dev) : Dev :=
  let b := d.flashBytes 0x1040000 4096
  if crc32 (b.take 4092) = ofLe (b.drop 4092) then
    (boardRegs.zipIdx).foldl (fun (e : Dev) (p : RegDesc × Nat) => e.storeReg p.1 0 (ofLe ((b.drop (4 * p.2)).take 4))) d
  else d

/-- The units that a bitmap of a Report card names. -/
def mapped (b : List (BitVec 8)) (off n : Nat) (f : Nat → Part) : List Part :=
  ((List.range n).filter fun k => bitAt ((nth 0 b (off + k / 8)).toNat) (k % 8)).map f

/-- The retirements of a Report card (Table 18-10). -/
def cardParts (b : List (BitVec 8)) : List Part :=
  mapped b 0x100 1024 .spindle ++ mapped b 0x180 384 .ftChannel ++ mapped b 0x1B0 64 (fun k => .ctChannel (384 + k))
    ++ mapped b 0x1B8 48 (fun k => .lane (k / 4) (k % 4)) ++ mapped b 0x1C0 56 .adder ++ mapped b 0x1C8 122 .engine

/-- The union of two lists of units. -/
def unite (a b : List Part) : List Part := b.foldl (fun l p => if l.contains p then l else l ++ [p]) a

/-- Stage 0 (R531, R538, R572): the retirements that start-up applies, the starting offsets, the board record. A Term that power
loss cut short is followed by the Term after the card's. Log: 152 (DEDUCED). -/
def Dev.readCard (d : Dev) : Dev :=
  match d.newestCard with
  | some (k, t) =>
    let b := d.flashBytes (0x1000000 + 4096 * k) 4096
    let d1 := (List.range 80).foldl (fun (e : Dev) j => e.setVoff (j / 5) (j % 5) (nth 0 b (0x40 + j)).toInt) d
    let min := 60 * ofLe ((b.drop 0x10).take 4)
    let x := d1.flt
    let x' := if x.term = 0 then { x with term := t + 1, poweredMin := min, termStart := min } else x
    ({ d1 with
      flt := x'
      boot := { d1.boot with retired := unite x.otp (cardParts b) } }).wr AGE_REPORT 0 t
  | none =>
    let x := d.flt
    ({ d with
      flt := if x.term = 0 then { x with term := 1 } else x
      boot := { d.boot with retired := x.otp } }).raise AGE_STAT.CARD_EV 0

/-- The units that are retired from the start: their registers. Log: 153 (DEDUCED). -/
def Dev.preRetire (d : Dev) (p : Part) : Dev :=
  match p with
  | .spindle i => if i < 1024 then d.set FLT_SPX_STAT.RETIRED i 1 else d
  | .engine k => if k < 122 then d.set FLT_ENG_STAT.RETIRED k 1 else d
  | _ => d

/-- Stage 1: the memory channels are trained (R333, R342). -/
def Dev.trainChannels (d : Dev) (fails : List Nat) : Dev :=
  (fails.filter fun c => decide (c < 448) && !(d.boot.retired.contains (.ftChannel c) || d.boot.retired.contains (.ctChannel c))).foldl
    (fun (e : Dev) c => if e.memx.dead.contains c || e.get MEM_CHAN_STATE.STATE c = 3 then e else e.trainFail c 0) d

/-- A recorded retirement of a channel is applied again (R341, R342): a fast-tier channel without spares is DEAD.
Log: 153 (DEDUCED). -/
def Dev.reapply (d : Dev) (p : Part) : Dev :=
  match p with
  | .ftChannel c =>
    if 384 ≤ c || d.get MEM_CHAN_STATE.STATE c = 3 || d.get MEM_CHAN_STATE.STATE c = 4 then d
    else if d.get MEM_SPARE_STAT.FREE 0 < d.needed c then
      { d.set MEM_CHAN_STATE.STATE c 4 with memx := { d.memx with dead := d.memx.dead ++ [c] } }
    else
      let p := d.assign c
      let d1 := ({ p.1 with memx := (p.1.memx.redirect p.2).spoil (p.2.map fun (q : Nat × Nat) => q.1) [] }).set MEM_CHAN_STATE.STATE c 3
      d1.set MEM_SPARE_STAT.RETIRED 0 (d1.get MEM_SPARE_STAT.RETIRED 0 + 1)
  | .ctChannel c =>
    if c < 384 || 448 ≤ c || d.memx.dead.contains c then d
    else
      { d.set MEM_CHAN_STATE.STATE c 4 with memx := { d.memx with dead := d.memx.dead ++ [c] } }
  | _ => d

/-- Stage 2 (R335, R341, R573): the fast tier reads as zero, the spare extents hold poison marks, channel retirements apply.
Log: 86 (DEDUCED). -/
def Dev.zeroFast (d : Dev) : Dev :=
  let d1 := d.zero 0 spareEnd
  let d2 := { d1 with
    poison := d1.poison.filter fun s => decide (spareEnd ≤ s)
    memx := { d1.memx with bad := d1.memx.bad ++ (List.range 384).map fun c => (65536 * c + 2016, 65536 * c + 2048) } }
  d2.boot.retired.foldl Dev.reapply d2

/-- A Kaluf lane is out of service from the start (R393, R394): a port keeps at least three. -/
def Dev.lostLane (d : Dev) (p l : Nat) : Dev :=
  if 12 ≤ p || 4 ≤ l || !bitAt (d.get KL_PORT_STAT.LANES p) l || d.get KL_PORT_STAT.STATE p = 4 then d
  else if d.laneCount p ≤ 3 then d.portDown p
  else d.set KL_PORT_STAT.LANES p (setBits (d.get KL_PORT_STAT.LANES p) l 1 0)

/-- Stage 3: the lanes are trained; those that failed are retired for good, and the recorded ones again (R394, R531). -/
def Dev.trainLanes (d : Dev) (fails : List (Nat × Nat)) : Dev :=
  let d1 := d.boot.retired.foldl (fun (e : Dev) x =>
    match x with
    | .lane p l => e.lostLane p l
    | _ => e) d
  (fails.filter fun x => decide (x.1 < 12) && decide (x.2 < 4) && !d.boot.retired.contains (.lane x.1 x.2)).foldl (fun (e : Dev) x =>
    ((e.lostLane x.1 x.2).burn (.lane x.1 x.2)).log 8 2 5 none 0 x.1 x.2 0 0) d1

/-- A recorded retirement of an adder is applied (R432). -/
def Dev.lostAdder (d : Dev) (a : Nat) : Dev :=
  if 56 ≤ a || d.get RED_ADDER_STAT.STATE a = 2 then d else
  let served := if a < 48 then a else d.get RED_ADDER_STAT.SERVES a
  let spare := decide (d.get RED_ADDER_STAT.STATE a = 1)
  let t := adderTile a
  let d1 := d.set RED_ADDER_STAT.STATE a 2
  if spare then d1.set RED_CHECK_STAT.SPARES_FREE 0 (d1.get RED_CHECK_STAT.SPARES_FREE 0 - 1)
  else match [48 + 2 * t, 49 + 2 * t].find? fun s => d1.get RED_ADDER_STAT.STATE s == 1 with
    | some s => ((d1.set RED_ADDER_STAT.STATE s 0).set RED_ADDER_STAT.SERVES s served).set RED_CHECK_STAT.SPARES_FREE 0
        (d1.get RED_CHECK_STAT.SPARES_FREE 0 - 1)
    | none => d1.set RED_CHECK_STAT.ACTIVE 0 (d1.get RED_CHECK_STAT.ACTIVE 0 - 1)

/-- A unit fails its self-test (R531): retired for good, with a record. Log: 153 (DEDUCED). -/
def Dev.selfTestFail (d : Dev) (p : Part) : Dev :=
  match p with
  | .spindle i => if i < 1024 ∧ d.get FLT_SPX_STAT.RETIRED i = 0 then ((d.preRetire p).burn p).log 0x0D 2 5 none 0 i (i / 64) 0 0 else d
  | .engine k => if k < 122 ∧ d.get FLT_ENG_STAT.RETIRED k = 0 then ((d.preRetire p).burn p).log 0x0A 2 6 none 0 k 0xFFFF 0 0 else d
  | .adder a => if a < 56 ∧ d.get RED_ADDER_STAT.STATE a ≠ 2 then ((d.lostAdder a).burn p).log 9 2 5 none 0 a 0xFFFF 0 0 else d
  | _ => d

/-- Stage 4: the recorded retirements of adders, and the self-test. -/
def Dev.selfTest (d : Dev) (fails : List Part) : Dev :=
  let d1 := d.boot.retired.foldl (fun (e : Dev) x =>
    match x with
    | .adder a => e.lostAdder a
    | _ => e) d
  fails.foldl Dev.selfTestFail d1

/-- A boot stage may end: its row of Table 20-2 follows those before it. -/
def stageDue (done : List Nat) (k : Nat) : Bool :=
  !done.contains k && (k == 0 || (done.contains 0 && (k == 1 || k == 3 || k == 4 || (k == 2 && done.contains 1))))

/-- A boot stage ends (R569). -/
def Dev.stageDone (d : Dev) (k : Nat) (b : BootSample) : Dev :=
  match d.boot.stage with
  | .firmware done =>
    if !stageDue done k then d else
    let d1 := match k with
      | 0 => (d.boardRecord.readCard)
      | 1 => d.trainChannels b.channels
      | 2 => d.zeroFast
      | 3 => d.trainLanes b.lanes
      | _ => d.selfTest b.fails
    let d2 := if k = 0 then d1.boot.retired.foldl Dev.preRetire d1 else d1
    { d2 with boot := { d2.boot with stage := .firmware (done ++ [k]) } }
  | _ => d

/-! ## READY -/

/-- One logical position of a die (R48): its own Spindle, or the lowest free spare of the die, or none. -/
def Dev.mapPosition (d : Dev) (die q : Nat) : Dev :=
  let i := 64 * die + q
  let l := 60 * die + q
  if d.get FLT_SPX_STAT.RETIRED i = 0 then
    let d1 := (d.wr SPX_REMAP l (0x80 + q)).set SPX_STATE.STATE i 0
    d1.set SPX_STATE.LPOS i q
  else
    let d1 := (d.set SPX_STATE.STATE i 2).set SPX_STATE.LPOS i q
    match d1.freeSpare die with
    | some s => ((d1.wr SPX_REMAP l (0xC0 + s % 64)).set SPX_STATE.STATE s 0).set SPX_STATE.LPOS s q
    | none => (d1.set SPX_REMAP.MAPPED l 0).set SPX_DIE_STAT.DEGRADED die 1

/-- One die (R48): its spares, its positions and SPX_DIE_STAT. -/
def Dev.mapDie (d : Dev) (die : Nat) : Dev :=
  let at' := fun (p : Nat) => 64 * die + p
  let d1 := [60, 61, 62, 63].foldl (fun (e : Dev) p =>
    e.set SPX_STATE.STATE (at' p) (if e.get FLT_SPX_STAT.RETIRED (at' p) = 1 then 2 else 1)) d
  let d2 := (List.range 60).foldl (fun (e : Dev) q => e.mapPosition die q) d1
  let count := fun (v : Nat) => ((List.range 64).filter fun p => d2.get SPX_STATE.STATE (at' p) == v).length
  (d2.set SPX_DIE_STAT.SPARES_FREE die (count 1)).set SPX_DIE_STAT.RETIRED die (count 2)

/-- Some instance of a list meets a test. -/
def Dev.countOf (d : Dev) (l : List Nat) (f : Dev → Nat → Bool) : Nat := (l.filter fun k => f d k).length

/-- SYS_CAP0, SYS_CAP1 and FLT_DEGRADED (Tables 21-3 and 18-6). -/
def Dev.showCaps (d : Dev) : Dev :=
  let dead := fun (e : Dev) (c : Nat) => e.get MEM_CHAN_STATE.STATE c == 4
  let gone := fun (e : Dev) (k : Nat) => e.get FLT_ENG_STAT.RETIRED k == 1
  let upd := d.countOf (List.range 12) gone
  let med := d.countOf ((List.range 110).map fun k => 12 + k) gone
  let ft := d.countOf (List.range 384) dead
  let ct := d.countOf ((List.range 64).map fun k => 384 + k) dead
  let lanes := (List.range 12).foldl (fun n p => n + d.laneCount p) 0
  let adders := d.get RED_CHECK_STAT.ACTIVE 0
  let d1 := ((d.showActive).set SYS_CAP0.ADDERS 0 adders).set SYS_CAP0.UPD_ENGINES 0 (12 - upd)
  let d2 := ((d1.set SYS_CAP1.FT_DEAD 0 ft).set SYS_CAP1.CT_DEAD 0 ct).set SYS_CAP1.KL_LANES 0 lanes
  let d3 := d2.set SYS_CAP1.MEDIA_ENGINES 0 (110 - med)
  let kl := (List.range 12).any fun p => d.get KL_PORT_STAT.STATE p == 4
  d3.set FLT_DEGRADED.POOLS 0 (bit (d3.get SYS_CAP0.N_ACTIVE 0 < 960) + 2 * bit (0 < ft) + 4 * bit (0 < ct) + 8 * bit kl
    + 16 * bit (adders < 48) + 32 * bit (0 < upd) + 64 * bit (0 < med))

/-- The steps of Table 20-2 end (R48, R569, R588). Log: 153 (DEDUCED). -/
def Dev.bootComplete (d : Dev) : Dev :=
  match d.boot.stage with
  | .firmware done =>
    if [0, 1, 2, 3, 4].all fun k => done.contains k then
      let d1 := ((List.range 16).foldl Dev.mapDie d).showCaps
      (({ d1 with boot := { d1.boot with stage := .ready } }).alert 7).send .readiness
    else d
  | _ => d

/-- With no slot accepted, tr + 2.5 s (R571). -/
def Dev.bootTimeout (d : Dev) : Dev :=
  if d.boot.stage = .noFirmware then ({ d with boot := { d.boot with stage := .failed } }).alert 0 else d

/-! ## Configuration requests and Function Level Reset -/

/-- Messages held for a function's unmasked vectors leave once neither mask holds them (R594). -/
def Dev.sendHeld (d : Dev) (fn : Nat) : Dev :=
  if !d.irq.openFns.contains fn then d else
  let go := d.irq.held.filter fun k => k / 2048 == fn && d.irq.openVecs.contains k
  go.foldl (fun (e : Dev) k => ({ e with irq := { e.irq with held := srem k e.irq.held } }).send (.msix fn (k % 2048))) d

/-- The function mask of MSI-X is written. -/
def Dev.fnMask (d : Dev) (fn : Nat) (masked : Bool) : Dev :=
  if masked then { d with irq := { d.irq with openFns := srem fn d.irq.openFns } }
  else ({ d with irq := { d.irq with openFns := sins fn d.irq.openFns } }).sendHeld fn

/-- A configuration request to a function (R574, R575), which may write NumVFs and the MSI-X function mask. -/
def Dev.configRequest (d : Dev) (fn : Nat) (vfs : Option Nat) (mask : Option Bool) : Dev :=
  let live := match d.boot.stage with
    | .held => none
    | .ready => some true
    | .failed => some true
    | _ => some false
  match live with
  | none => d
  | some false => if fn = 0 then d.send (.retryStatus fn) else d
  | some true =>
    if !d.window fn then d else
    let d1 := match vfs with
      | some n => if fn = 0 ∧ n ≤ 16 ∧ d.boot.stage = BootStage.ready then { d with boot := { d.boot with numVfs := n } } else d
      | none => d
    let d2 := match mask with
      | some m => d1.fnMask fn m
      | none => d1
    d2.send (.configDone fn)

/-- A function's MSI-X table is cleared: every vector masked, nothing held (R577). -/
def Dev.clearMsix (d : Dev) (fn : Nat) : Dev :=
  let q := d.irq
  { d with irq := { q with
    openVecs := q.openVecs.filter fun k => k / 2048 != fn
    openFns := srem fn q.openFns
    held := q.held.filter fun k => k / 2048 != fn } }

/-- A Function Level Reset of virtual function `r` runs now (R577, Table 20-8): no other operation of the loader, and no
substitution of its Room, keeps it waiting. -/
def Dev.flrRuns (d : Dev) (r : Nat) : Bool :=
  decide (r < 16) && d.boot.stage == .ready && d.window (r + 1) && (match d.que.op with
    | some o => o.room == r && o.kind != .substitution
    | none => true)

/-- The Function Level Reset (R577, R595, Table 20-8): a load of its Room ends as cancelled, and a drain goes on as an abort.
Log: 158 (DEDUCED). -/
def Dev.vfFlr (d : Dev) (r : Nat) : Dev :=
  if !d.flrRuns r then d
  else
    let qs := (d.room r).queues
    let d1 := match d.que.op with
      | some o => if o.kind = .load then d.failLoad r 0x0161 else if o.step = 0 then d.beginUnload r false else d
      | none => if d.roomState r = stEmpty then d else d.beginUnload r false
    let d2 := qs.foldl (fun (e : Dev) q => e.set QUE_CTL.ENABLE q 0) d1
    let chans := (List.range 128).filter fun ch => d2.dmaRoom ch == some r
    let d3 := chans.foldl Dev.dmaUnload d2
    ((d3.clearMsix (r + 1)).wr INT_VSTATUS r 0).wr INT_VMASK r 0xFFFFFFFF

/-! ## The management port -/

/-- A response: STATUS, LEN, data, CRC-8 of them (R579). Log: 154 (DESIGN CHOICE). -/
def Dev.respond (d : Dev) (status : Nat) (data : List (BitVec 8)) : Dev :=
  let b := toLe 1 status ++ toLe 1 data.length ++ data
  d.send (.mgmt (b ++ toLe 1 (crcMsb 8 0x07 0 b)))

/-- A request of the management port: nothing without the auxiliary domain; with a bad CRC-8, STATUS 0x01 alone. -/
def Dev.mgmtReq (d : Dev) (crcOk : Bool) (f : Dev → Dev) : Dev :=
  if !d.boot.aux then d else if !crcOk then d.respond 1 [] else f d

/-- A command that is available once firmware has run (Table 20-6). Log: 154 (DESIGN CHOICE). -/
def Dev.afterFw (d : Dev) (f : Dev → Dev) : Dev :=
  match d.boot.stage with
  | .firmware _ => f d
  | .ready => f d
  | _ => d.respond 3 []

/-- A signature over command bytes verifies under an ACTIVE key slot other than `but` (R580). Log: 155 (DESIGN CHOICE). -/
def Dev.signed (d : Dev) (bytes sig : List (BitVec 8)) (but : Nat) : Bool :=
  [0, 1, 2, 3].any fun k => k != but && d.keyState k == 1
    && Config.ecdsaVerifies (d.keyOf k) (Config.keyDigest bytes Config.serial d.mgmt.keyCtr) sig

/-- A signed command is accepted: KEY_CTR advances (R580). -/
def Dev.accepted (d : Dev) (m : MgmtSt) : Dev :=
  (({ d with mgmt := { m with keyCtr := m.keyCtr + 1 } }).showKeys).respond 0 []

/-- KEY_WRITE. Log: 155 (DESIGN CHOICE). -/
def Dev.mgmtKeyWrite (d : Dev) (slot : Nat) (key sig : List (BitVec 8)) : Dev :=
  if 1 ≤ slot ∧ slot ≤ 3 ∧ key.length = 96 ∧ d.keyState slot = 0 ∧ d.signed (toLe 1 0x10 ++ toLe 1 193 ++ toLe 1 slot ++ key) sig 4 then
    d.accepted { d.mgmt with
      slots := tset (fun _ => 0) d.mgmt.slots slot 1
      keys := tset (fun _ => 0) d.mgmt.keys slot (ofLe key) }
  else d.respond 3 []

/-- KEY_REVOKE. -/
def Dev.mgmtKeyRevoke (d : Dev) (slot : Nat) (sig : List (BitVec 8)) : Dev :=
  if 1 ≤ slot ∧ slot ≤ 3 ∧ d.signed (toLe 1 0x11 ++ toLe 1 97 ++ toLe 1 slot) sig slot then
    d.accepted { d.mgmt with slots := tset (fun _ => 0) d.mgmt.slots slot 2 }
  else d.respond 3 []

/-- FW_SVN_RAISE: the fuses only go up. Log: 156 (DEDUCED). -/
def Dev.mgmtSvnRaise (d : Dev) (svn : Nat) (sig : List (BitVec 8)) : Dev :=
  if d.signed (toLe 1 0x21 ++ toLe 1 97 ++ toLe 1 svn) sig 4 then d.accepted { d.mgmt with svnMin := max d.mgmt.svnMin (svn % 256) }
  else d.respond 3 []

/-- FLASH_WRITE may write a range (Tables 20-4, 20-6): outside the reserved regions, and firmware slots only while no Room is LOADED.
Log: 156 (DEDUCED). -/
def Dev.flashOk (d : Dev) (off n : Nat) : Bool :=
  decide (n ≤ 240) && decide (0x1000 ≤ off) && decide (off + n ≤ 0x1041000)
    && (decide (0x1000000 ≤ off) || (List.range 16).all fun r => d.roomState r != stLoaded)

/-- FLASH_WRITE; where RESET_N is asserted during it, only the current page of 256 bytes is written (Table 20-8).
Log: 156 (DEDUCED). -/
def Dev.mgmtFlash (d : Dev) (off : Nat) (bytes : List (BitVec 8)) (cut : Bool) : Dev :=
  if d.flashOk off bytes.length then
    (d.flashWrite off (if cut then bytes.take (256 - off % 256) else bytes)).respond 0 []
  else d.respond 3 []

/-- CARD_READ: 4,096 bytes of the newest card in 17 responses (Table 20-6). Log: 141 (DEDUCED). -/
def Dev.mgmtCard (d : Dev) : Dev :=
  match d.newestCard with
  | some (k, _) =>
    let b := d.flashBytes (0x1000000 + 4096 * k) 4096
    (List.range 17).foldl (fun (e : Dev) j => e.respond 0 ((b.drop (241 * j)).take 241)) d
  | none => d.respond 3 []

/-! ## JTAG -/

/-- A TAP instruction (R582): which it is, and what the pins of the boundary register carry. Log: 157 (PRESUMED). -/
def Dev.jtag (d : Dev) (instr pins : Nat) : Dev :=
  let live := if instr ≤ 2 then instr else if instr ≤ 5 && !d.boot.released then instr else 0
  let value := match live with
    | 0 => 0
    | 1 => 0x20960001 + 2 * Config.jedecId.toNat
    | _ => pins
  ({ d with boot := { d.boot with tap := live } }).send (.jtag live value)

/-! ## Commands -/

def execThermalTrip (s : State) := s.onReset Dev.trips fun d => d.trip

def execAuxPowerOn (addrSel : Nat) (s : State) := s.onDev fun d => d.auxOn addrSel

def execV48Applied (s : State) := s.onDev fun d => d.v48On

def execPwrGoodAssert (s : State) := s.onDev fun d => d.goodOn

def execRailFault (pll : Bool) (s : State) := s.onReset Dev.railFalls fun d => d.railFault pll

def execV48OutOfRange (v us : Nat) (s : State) := s.onReset (fun d => d.v48Fails v us) fun d => d.v48Out v us

def execAuxLow (us : Nat) (s : State) := s.onReset (fun d => d.auxFails us) fun d => d.auxLost us

def execResetNAssert (ns tj : Nat) (s : State) := s.onReset (fun d => d.takesReset ns) fun d => d.resetAssert ns tj

def execResetNRelease (s : State) := s.onDev fun d => d.resetRelease

def execFirmwareVerified (s : State) := s.onDev fun d => d.firmwareVerified

def execBootStageDone (stage : Nat) (b : BootSample) (s : State) := s.onDev fun d => d.stageDone stage b

def execBootComplete (s : State) := s.onDev fun d => d.bootComplete

def execBootTimeout (s : State) := s.onDev fun d => d.bootTimeout

def execConfigRequest (fn : Nat) (vfs : Option Nat) (mask : Option Bool) (s : State) := s.onDev fun d => d.configRequest fn vfs mask

def execVfFlr (r : Nat) (s : State) : Host.Outcome State Fault Refusal := .next { s with
  fns := if s.dev.flrRuns r then tset (fun _ => FnState.init) s.fns (r + 1) FnState.init else s.fns
  dev := s.dev.vfFlr r }

def execPfFlr (s : State) := s.onReset Dev.runs fun d => d.deviceReset

def execMgmtStatus (crcOk : Bool) (s : State) := s.onDev fun d => d.mgmtReq crcOk fun e =>
  e.respond 0 (toLe 4 e.sysStatus ++ toLe 4 (e.rd THM_STAT 0) ++ toLe 4 (e.rd THM_TJ 0) ++ toLe 4 (e.rd PWR_INPUT 0) ++ toLe 4 (e.rd PWR_STAT 0))

def execAlertRead (crcOk : Bool) (s : State) := s.onDev fun d => d.mgmtReq crcOk fun e => e.respond 0 (toLe 4 e.mgmt.causes)

def execAlertClear (crcOk : Bool) (causes : Nat) (s : State) := s.onDev fun d => d.mgmtReq crcOk fun e =>
  ({ e with mgmt := { e.mgmt with causes := e.mgmt.causes &&& (0xFFFFFFFF ^^^ (causes % 2 ^ 32)) } }).respond 0 []

def execAlertMask (crcOk : Bool) (causes : Nat) (s : State) := s.onDev fun d => d.mgmtReq crcOk fun e =>
  ({ e with mgmt := { e.mgmt with unmasked := causes % 256 } }).respond 0 []

/-- Log: 154 (DESIGN CHOICE). -/
def execLoadNext (crcOk : Bool) (s : State) := s.onDev fun d => d.mgmtReq crcOk fun e =>
  match e.pwr.adv with
  | some a => if e.get PWR_STAT.ADV 0 = 1 then e.respond 0 (toLe 4 a.1 ++ toLe 8 a.2.1) else e.respond 3 []
  | none => e.respond 3 []

def execKeyWrite (crcOk : Bool) (slot : Nat) (key sig : List (BitVec 8)) (s : State) := s.onDev fun d =>
  d.mgmtReq crcOk fun e => e.afterFw fun g => g.mgmtKeyWrite slot key sig

def execKeyRevoke (crcOk : Bool) (slot : Nat) (sig : List (BitVec 8)) (s : State) := s.onDev fun d =>
  d.mgmtReq crcOk fun e => e.afterFw fun g => g.mgmtKeyRevoke slot sig

def execFlashWrite (crcOk : Bool) (off : Nat) (bytes : List (BitVec 8)) (cut : Bool) (s : State) := s.onDev fun d =>
  d.mgmtReq crcOk fun e => e.mgmtFlash off bytes cut

def execFwSvnRaise (crcOk : Bool) (svn : Nat) (sig : List (BitVec 8)) (s : State) := s.onDev fun d =>
  d.mgmtReq crcOk fun e => e.afterFw fun g => g.mgmtSvnRaise svn sig

def execCardRead (crcOk : Bool) (s : State) := s.onDev fun d => d.mgmtReq crcOk fun e => e.afterFw Dev.mgmtCard

def execJtagInstruction (instr pins : Nat) (s : State) := s.onDev fun d => d.jtag instr pins

end Sys2Proof.Machine
end

