-- ==== Sys2Proof/Machine/Host.lean ====
section
/-! DEFINITION. Host accesses to the register window, the Desk window and the MSI-X tables (Notation, R8 to R18; R73, R74, R316;
Register reference, R584 to R595). A write of a whole register does what each of its fields names; where a command of the table
names the action of a field, that field acts as that command does. -/

namespace Sys2Proof.Machine

/-! ## Register writes -/

/-- Stored fields of a register outside the actions of a write: the fields `fs` take the value written. -/
def Dev.takeFields (d : Dev) (fs : List Field) (i v : Nat) : Dev :=
  fs.foldl (fun (e : Dev) f => e.set f i (bitsOf v f.lo f.width)) d

/-- A write of INT_MASK or INT_VMASK (R594): one message of the view where it unmasks summary bits that are 1. -/
def Dev.maskWrite (d : Dev) (mask status : RegDesc) (i fn vec v : Nat) : Dev :=
  let old := d.rd mask i
  let d1 := d.wr mask i v
  if old &&& (0xFFFFFFFF ^^^ (v % 2 ^ 32)) &&& d.rd status i = 0 then d1 else d1.msix fn vec

/-- CFG_LOAD with GO = 1 (R103 to R106, Table 03-10); without GO the write stores OP. Log: 18 (DEDUCED). -/
def Dev.cfgWrite (d : Dev) (fn r v : Nat) : Dev :=
  if !bitAt v 0 then (if mayAct fn r then d.set CFG_LOAD.OP r (v / 2) else d)
  else match bitsOf v 1 3 with
    | 0 => d.cfgLoad fn r
    | 1 => d.cfgUnload fn r true
    | 2 => d.cfgUnload fn r false
    | 3 => d.cfgCancel fn r
    | op => (d.set CFG_LOAD.OP r (if mayAct fn r then op else d.get CFG_LOAD.OP r)).cfgReserved fn r

/-- KL_PORT_CTL (R390, R393, R395): LANE, EN, RETIRE, RETRAIN. Log: 18 (DEDUCED). -/
def Dev.portWrite (d : Dev) (p v : Nat) : Dev :=
  let d1 := (d.set KL_PORT_CTL.LANE p (v / 4)).portEnable p (bitAt v 0)
  let d2 := if bitAt v 4 then d1.laneRetire p (bitsOf v 2 2) else d1
  if bitAt v 1 then d2.portRetrain p else d2

/-- DMA_CH_CTL (R372, R375, R377, R378): the plain fields, then ABANDON, STOP and GO. Log: 18 (DEDUCED). -/
def Dev.dmaCtl (d : Dev) (fn ch v : Nat) : Dev :=
  let d1 := d.dmaAssign fn ch v
  let d2 := if bitAt v 2 then d1.dmaAbandon ch else d1
  let d3 := if bitAt v 1 then d2.dmaStop ch else d2
  if bitAt v 0 then d3.dmaGo ch none else d3

/-- KL_CREDIT (Table 13-11): stored while the port is disabled, each class 8 units or more, 128 in all. Log: 22 (DEDUCED). -/
def Dev.creditWrite (d : Dev) (p v : Nat) : Dev :=
  let cs := [bitsOf v 0 8, bitsOf v 8 8, bitsOf v 16 8, bitsOf v 24 8]
  if d.get KL_PORT_CTL.EN p = 0 && cs.all (fun c => decide (8 ≤ c)) && decide (cs.foldl (· + ·) 0 ≤ 128) then d.wr KL_CREDIT p v else d

/-- KL_ROOM_JOB (R407): stored while the Room is EMPTY, unless another Room holds the tag. Log: 24 (DEDUCED). -/
def Dev.jobWrite (d : Dev) (r v : Nat) : Dev :=
  let tag := v % 2 ^ 16
  let taken := tag != 0 && (List.range 16).any fun q => q != r && d.rd KL_ROOM_JOB q == tag
  if d.roomState r == stEmpty && !taken then d.wr KL_ROOM_JOB r tag else d

/-- TIME_CTL (R401, R402): a change of source starts the discipline anew. -/
def Dev.timeWrite (d : Dev) (v : Nat) : Dev :=
  let d1 := d.storeReg TIME_CTL 0 v
  if d1.get TIME_CTL.SRC 0 = d.get TIME_CTL.SRC 0 then d1
  else d1.setTime { d1.kl.time with target := none, missed := 0, lost := 0, asked := false }

/-- The window registers of a Room (R316). -/
def isWindow (r : RegDesc) : Bool :=
  [MEM_FT_BASE_LO, MEM_FT_BASE_HI, MEM_FT_SIZE, MEM_CT_BASE_LO, MEM_CT_BASE_HI, MEM_CT_SIZE].any fun x => x.base == r.base

/-- The effect of a write of `v` to instance `i` of a register that function `fn` reaches.
Log: 18 (DEDUCED); 21 (DEDUCED); 23 (DEDUCED). -/
def Dev.writeReg (d : Dev) (fn : Nat) (r : RegDesc) (i v : Nat) : Dev :=
  let b := r.base
  if b = SYS_RESET.base then (if v / 2 ^ 16 = 0xC960 ∧ bitAt v 0 then d.deviceReset else d)
  else if b = INT_MASK.base then d.maskWrite INT_MASK INT_STATUS i 0 i v
  else if b = INT_VMASK.base then d.maskWrite INT_VMASK INT_VSTATUS i (i + 1) 0 v
  else if b = ROOM_CTL.base then
    let d1 := d.set ROOM_CTL.TILE_PREEMPT i (v / 2)
    if bitAt v 0 then d1.roomHold i else d1.roomRelease i
  else if b = ROOM_SAVE_ADDR_LO.base || b = ROOM_SAVE_ADDR_HI.base || b = ROOM_SAVE_SIZE.base then
    (if d.roomState i = stEmpty then d.storeReg r i v else d)
  else if b = NUM_SCALE_BASE_LO.base || b = NUM_SCALE_BASE_HI.base || b = NUM_SCALE_GROUPS.base then
    (if d.roomState i = stEmpty || d.roomState i = stHeld then d.storeReg r i v else d)
  else if b = QUE_BASE_LO.base || b = QUE_BASE_HI.base || b = QUE_SIZE.base then
    (if d.get QUE_CTL.ENABLE i = 1 then d else d.storeReg r i v)
  else if b = QUE_CTL.base then
    let d1 := if d.get QUE_CTL.ENABLE i = 1 then d else d.set QUE_CTL.LOC i (v / 2)
    d1.set QUE_CTL.ENABLE i v
  else if b = QUE_STAT.base then
    let d1 := if bitAt v 17 then d.set QUE_STAT.DB_IGN i 0 else d
    if bitAt v 16 then d1.queErrClear fn i else d1
  else if b = SEM_STATE.base then
    let d1 := if bitAt v 10 then d.set SEM_STATE.BROKEN i 0 else d
    if bitAt v 31 then d1.forceRel fn i else d1
  else if b = SEM_ACL.base then d.aclWrite i v
  else if b = CFG_LOAD.base then d.cfgWrite fn i v
  else if isWindow r then d.windowWrite fn (i / r.count2) (d.storeReg r i v)
  else if b = MEM_CHAN_CTL.base then
    let d1 := if bitAt v 0 then d.retireChannel i else d
    if bitAt v 1 && !d1.memx.trainWait.contains i then
      { d1 with memx := { d1.memx with trainWait := d1.memx.trainWait ++ [i] } }
    else d1
  else if b = DMA_CH_CTL.base then d.dmaCtl fn i v
  else if b = KL_PORT_CTL.base then d.portWrite i v
  else if b = KL_CREDIT.base then d.creditWrite i v
  else if b = KL_DEV_ID.base then
    (if (List.range 12).all fun p => d.get KL_PORT_CTL.EN p == 0 then d.storeReg r i v else d)
  else if b = KL_ROOM_JOB.base then d.jobWrite i v
  else if b = KL_RC_CTL.base then
    (d.takeFields [KL_RC_CTL.ROOT, KL_RC_CTL.PARENT, KL_RC_CTL.CHILDREN, KL_RC_CTL.HEIGHT] i v).rcEnable i (bitAt v 0)
  else if b = RED_CTL.base then d.redEnable i (bitAt v 0)
  else if b = RED_TABLE_BASE_LO.base || b = RED_TABLE_BASE_HI.base then
    (if d.get RED_CTL.EN i = 1 then d else d.storeReg r i v)
  else if b = SKN_TABLE_SLOT.base then
    let d1 := d.set SKN_TABLE_SLOT.CLOSE i (v / 2)
    if bitAt v 0 then d1.tableLoad fn (i / 4) (i % 4) else d1
  else if b = MED_TOK_SLOT.base then
    let d1 := d.set MED_TOK_SLOT.CLOSE i (v / 2)
    if bitAt v 0 then d1.tokLoad fn (i / 4) (i % 4) else d1
  else if b = VC_PRIV.base then d.privWrite fn i v
  else if b = FLT_SPX_CTL.base then
    let d1 := d.storeReg r i v
    if bitAt v 10 then d1.retireSpindle (v % 1024) true 0x0D 0 else d1
  else if b = AGE_CTL.base then (d.storeReg r i v).showTerm
  else if b = AGE_CARD_CTL.base then
    let d1 := d.storeReg r i v
    if bitAt v 0 then d1.set AGE_CARD_CTL.COPY 0 1 else d1
  else if b = PWR_RECESS.base then
    let d1 := d.storeReg r i v
    let d2 := if bitAt v 0 then d1.recessEnter else d1
    if bitAt v 1 then d2.wake else d2
  else if b = PWR_WAKE_SEND.base then
    d.wakeSend v
  else if b = TIME_CTL.base then d.timeWrite v
  else d.storeReg r i v

/-- A write by a function that does not reach the instance changes nothing there; where a home chapter gives a code for it, the
code is reported in the function's own Room (R585), and a window write for its own Room sets WIN_EV (R316).
Log: 20 (DEDUCED). -/
def Dev.foreignWrite (d : Dev) (fn : Nat) (r : RegDesc) (i v : Nat) : Dev :=
  if r.base = CFG_LOAD.base && bitAt v 0 then d.cfgWrite fn i v
  else if r.base = SKN_TABLE_SLOT.base && bitAt v 0 then d.tableLoad fn (i / 4) (i % 4)
  else if r.base = MED_TOK_SLOT.base && bitAt v 0 then d.tokLoad fn (i / 4) (i % 4)
  else if isWindow r && i / r.count2 + 1 == fn then d.windowWrite fn (i / r.count2) d
  else d

/-- A write that has reached a register (R585): `fn` exists, and the access is served. -/
def Dev.hostWrite (d : Dev) (fn : Nat) (r : RegDesc) (i v : Nat) : Dev :=
  if d.reach r.vwrite fn r i then d.writeReg fn r i v else d.foreignWrite fn r i v

/-- The offset is the low half of a 64-bit value (R9). -/
def lowHalf (off : Nat) : Bool :=
  match regAt off with
  | some (r, _) => r.half == .low
  | none => false

/-- The offset is one of a Room's window registers (R316). -/
def windowOff (off : Nat) : Bool :=
  match regAt off with
  | some (r, _) => isWindow r
  | none => false

/-- The offset is the low half of a 64-bit RW value (R10). -/
def heldLow (off : Nat) : Bool :=
  match regAt off with
  | some (r, _) => r.half == .low && r.rw != 0
  | none => false

/-- Both halves of a 64-bit RW value take effect together (R10): for a window base as one write, so that a base is judged whole. -/
def Dev.writeBoth (d : Dev) (fn : Nat) (lo hi : RegDesc) (i vlo vhi : Nat) : Dev :=
  if isWindow lo then
    (if d.reach lo.vwrite fn lo i then d.windowWrite fn (i / lo.count2) ((d.storeReg lo i vlo).storeReg hi i vhi)
     else d.foreignWrite fn lo i vlo)
  else (d.hostWrite fn lo i vlo).hostWrite fn hi i vhi

/-- The effect on the device of a write of `v` at an offset, `held` being the low word held for the function (R10).
Log: 19 (DEDUCED). -/
def Dev.writeAt (d : Dev) (fn off v : Nat) (held : Option (Nat × Nat)) : Dev :=
  match regAt off with
  | none => d
  | some (r, i) =>
    if r.half == .low && r.rw != 0 then d
    else match r.half, held, regAt (off - 4) with
      | .high, some (o, w), some (lo, _) =>
        if o + 4 = off ∧ r.rw ≠ 0 then d.writeBoth fn lo r i w v else d.hostWrite fn r i v
      | _, _, _ => d.hostWrite fn r i v

/-- A write of SYS_RESET that resets the device (R589). -/
def resets (fn off v : Nat) : Bool :=
  fn == 0 && off == SYS_RESET.base && v % 2 ^ 32 / 2 ^ 16 == 0xC960 && bitAt v 0

/-- A write of a function at an offset of the register window: narrower or unaligned accesses apart, it ends the snapshot; a low
word of a 64-bit RW value is held, and any other write discards what is held (R9, R10, R13). A reset leaves nothing of either. -/
def State.regWrite (s : State) (fn off v : Nat) : State :=
  if !s.dev.window fn then s
  else if off % 4 ≠ 0 then { s with dev := s.dev.send (.unsupported fn) }
  else
    let served := s.dev.windowServed fn off
    let keep := served && heldLow off
    { s with
      fns := if served && resets fn off v then []
        else tset (fun _ => FnState.init) s.fns fn ⟨none, if keep then some (off, v % 2 ^ 32) else none⟩
      dev := if served then s.dev.writeAt fn off (v % 2 ^ 32) (s.fnSt fn).held else s.dev }

/-! ## Register reads -/

/-- The value that a read of a function at an offset returns from the live registers (R11, R13, R585). Log: 27 (DEDUCED). -/
def Dev.readAt (d : Dev) (fn off : Nat) : Nat :=
  if !d.windowServed fn off then 0 else
  match regAt off with
  | some (r, i) => if d.reach r.vread fn r i then d.shown r i else 0
  | none => 0

/-- What a read clears (R9, R11): an RC field, and of a 64-bit RC value both halves at the read of the low word alone. -/
def Dev.readClears (d : Dev) (fn off : Nat) : Dev :=
  if !d.windowServed fn off then d else
  match regAt off with
  | some (r, i) =>
    if r.rc = 0 || !d.reach r.vread fn r i || r.half == .high then d
    else
      let d1 := d.wr r i (d.rd r i &&& (0xFFFFFFFF ^^^ r.rc))
      if r.half == .low then d1.wrOff (off + 4) 0 else d1
  | none => d

/-- The offset is the low word of a 64-bit value that the function reads. -/
def Dev.isLow (d : Dev) (fn off : Nat) : Bool :=
  d.windowServed fn off && (match regAt off with
    | some (r, i) => r.half == .low && d.reach r.vread fn r i
    | none => false)

/-- A read of a function at an offset of the register window (R9, R11): its data, its clear, and the snapshot that the read of a low
word takes and every access ends. -/
def State.regRead (s : State) (fn off : Nat) : State :=
  if !s.dev.window fn then s
  else if off % 4 ≠ 0 then { s with dev := s.dev.send (.unsupported fn) }
  else
    let x := s.fnSt fn
    let live := s.dev.readAt fn off
    let value := match x.snapshot with
      | some (o, h) => if o = off then h else live
      | none => live
    let snap := if s.dev.isLow fn off then some (off + 4, s.dev.readAt fn (off + 4)) else none
    { s with
      fns := tset (fun _ => FnState.init) s.fns fn ⟨snap, x.held⟩
      dev := (s.dev.readClears fn off).send (.readData fn value) }

/-! ## The Desk window -/

/-- An offset within a Spindle's region that holds storage (Table 02-11). Log: 26 (DEDUCED). -/
def deskHolds (o : Nat) : Bool := decide (o < 0x878000) || (decide (0x880000 ≤ o) && decide (o < 0x898000))

/-- An address of the Desk window (R73). -/
def inDesk (a : Nat) : Bool := decide (deskBase 0 ≤ a) && decide (a < deskBase 1024)

/-- The Desk window is served to the physical function from READY, outside Recess (R73, R562, R574). -/
def Dev.deskServed (d : Dev) : Bool := d.boot.stage == .ready && d.awake

/-- A host read of the 32-bit word at an address of the Desk window (R74, R519), with what the code check of the word found. Of a
word that is in error or poisoned the manual leaves the data open. Log: 25 (DESIGN CHOICE). -/
def Dev.deskRead (d : Dev) (addr : Nat) (err : WordError) : Dev :=
  let a := addr / 4 * 4
  if !inDesk a || !d.deskServed then d
  else if !deskHolds (a % 0x1000000) then d.send (.readData 0 0)
  else if err = .double then
    let d1 := (d.send (.readData 0 d.freeWord)).drew
    { d1 with poisonW := sins a d1.poisonW }
  else if d.poisonW.contains a then (d.send (.readData 0 d.freeWord)).drew
  else
    let d1 := d.send (.readData 0 (d.rdLe a 4))
    if err = .single then d1.correctedWord (spindleAt a) else d1

/-- The host may write a Spindle's Desk and Bobbin: bound to no Room, or its Room HELD (R74). -/
def Dev.deskFree (d : Dev) (i : Nat) : Bool :=
  match d.spindleRoom i with
  | none => true
  | some r => d.roomState r == stHeld

/-- A host write through the Desk window (R74): to the Desk or Bobbin of a Spindle that is free; any other is discarded and counted,
and the reserved ranges ignore it. Log: 26 (DEDUCED). -/
def Dev.deskWrite (d : Dev) (addr : Nat) (bytes : List (BitVec 8)) : Dev :=
  let i := spindleAt addr
  let o := addr % 0x1000000
  if !inDesk addr || !d.deskServed || !deskHolds o || bytes.isEmpty then d
  else if decide (o + bytes.length ≤ offAcc 0) && d.deskFree i then d.wrDesk i addr bytes
  else (d.set SPX_WIN_STAT.WR_DROP 0 1).count SPX_WIN_DROP 0 1

/-! ## MSI-X -/

/-- A vector of a function's MSI-X table is unmasked (R594): the message held for it leaves. -/
def Dev.vectorOpen (d : Dev) (fn vec : Nat) : Dev :=
  if d.boot.stage != .ready || !d.window fn || decide (msixSize fn ≤ vec) then d
  else ({ d with irq := { d.irq with openVecs := sins (2048 * fn + vec) d.irq.openVecs } }).sendHeld fn

/-! ## Commands -/

def execRegisterWrite (fn off val : Nat) (s : State) : Host.Outcome State Fault Refusal :=
  .next (s.regWrite fn off val)

/-- R8: it changes nothing, and counts as no access. Log: 17 (DEDUCED). -/
def execNarrowAccess (fn : Nat) (_off : Nat) (_write : Bool) (s : State) : Host.Outcome State Fault Refusal := s.onDev fun d =>
  if d.window fn then d.send (.unsupported fn) else d

def execRcRead (fn off : Nat) (s : State) : Host.Outcome State Fault Refusal := .next (s.regRead fn off)

def execLowWordRead (fn off : Nat) (s : State) : Host.Outcome State Fault Refusal :=
  .next (if lowHalf off then s.regRead fn off else s)

def execDeskWindowRead (addr : Nat) (err : WordError) (s : State) := s.onDev fun d => d.deskRead addr err

def execDeskWindowWrite (addr : Nat) (bytes : List (BitVec 8)) (s : State) := s.onDev fun d => d.deskWrite addr bytes

def execMemWindowWrite (fn off val : Nat) (s : State) : Host.Outcome State Fault Refusal :=
  .next (if windowOff off then s.regWrite fn off val else s)

/-- `view` selects the virtual function's mask of the set. -/
def execIntMaskWrite (fn set : Nat) (view : Bool) (val : Nat) (s : State) : Host.Outcome State Fault Refusal :=
  .next (if 17 ≤ set ∨ (view ∧ set = 0) then s
    else s.regWrite fn (if view then INT_VMASK.addr (set - 1) else INT_MASK.addr set) val)

def execMsiXVectorUnmask (fn vec : Nat) (s : State) := s.onDev fun d => d.vectorOpen fn vec

def execSysReset (fn val : Nat) (s : State) : Host.Outcome State Fault Refusal := .next (s.regWrite fn SYS_RESET.base val)

end Sys2Proof.Machine
end

