-- ==== Sys2Proof/Machine/Dispatch.lean ====
section
/-! DEFINITION. exec: one arm per command of the opcode table, each a direct call of its meaning. -/

namespace Sys2Proof.Machine

def exec (i : Instr) (s : State) : Host.Outcome State Fault Refusal :=
  match i with
  | .registerWrite fn off val => Sys2Proof.Machine.execRegisterWrite fn off val s
  | .narrowAccess fn off write => Sys2Proof.Machine.execNarrowAccess fn off write s
  | .rcRead fn off => Sys2Proof.Machine.execRcRead fn off s
  | .lowWordRead fn off => Sys2Proof.Machine.execLowWordRead fn off s
  | .deskWindowRead addr err => Sys2Proof.Machine.execDeskWindowRead addr err s
  | .deskWindowWrite addr bytes => Sys2Proof.Machine.execDeskWindowWrite addr bytes s
  | .yarnWordArrive j port ce ue => Sys2Proof.Machine.execYarnWordArrive j port ce ue s
  | .yarnCreditReturn j port ce ue => Sys2Proof.Machine.execYarnCreditReturn j port ce ue s
  | .noteInject j p => Sys2Proof.Machine.execNoteInject j p s
  | .noteWrite k bad => Sys2Proof.Machine.execNoteWrite k bad s
  | .noteRead k bad => Sys2Proof.Machine.execNoteRead k bad s
  | .noteAtomic k bad => Sys2Proof.Machine.execNoteAtomic k bad s
  | .noteSignal k bad => Sys2Proof.Machine.execNoteSignal k bad s
  | .noteAck k => Sys2Proof.Machine.execNoteAck k s
  | .readResp k => Sys2Proof.Machine.execReadResp k s
  | .atomicResp k => Sys2Proof.Machine.execAtomicResp k s
  | .noteNack k => Sys2Proof.Machine.execNoteNack k s
  | .noteTimeout j tag => Sys2Proof.Machine.execNoteTimeout j tag s
  | .cfgLoad fn r => Sys2Proof.Machine.execCfgLoad fn r s
  | .loadStepDone => Sys2Proof.Machine.execLoadStepDone s
  | .cfgCancel fn r => Sys2Proof.Machine.execCfgCancel fn r s
  | .cancelPoint => Sys2Proof.Machine.execCancelPoint s
  | .unloadDrain fn r => Sys2Proof.Machine.execUnloadDrain fn r s
  | .unloadAbort fn r => Sys2Proof.Machine.execUnloadAbort fn r s
  | .cfgLoadReservedOp fn r op => Sys2Proof.Machine.execCfgLoadReservedOp fn r op s
  | .unloadProceed r => Sys2Proof.Machine.execUnloadProceed r s
  | .planeSwitch r slow => Sys2Proof.Machine.execPlaneSwitch r slow s
  | .preloadDone r => Sys2Proof.Machine.execPreloadDone r s
  | .drainTimeout r => Sys2Proof.Machine.execDrainTimeout r s
  | .roomHold fn r => Sys2Proof.Machine.execRoomHold fn r s
  | .roomHoldRelease fn r => Sys2Proof.Machine.execRoomHoldRelease fn r s
  | .doorbell fn q off tail => Sys2Proof.Machine.execDoorbell fn q off tail s
  | .queErrClear fn q => Sys2Proof.Machine.execQueErrClear fn q s
  | .packetFetch host => Sys2Proof.Machine.execPacketFetch host s
  | .commandStart r => Sys2Proof.Machine.execCommandStart r s
  | .cmdNop id => Sys2Proof.Machine.execCmdNop id s
  | .cmdRun r => Sys2Proof.Machine.execCmdRun r s
  | .semAcquire id => Sys2Proof.Machine.execSemAcquire id s
  | .semRelease id => Sys2Proof.Machine.execSemRelease id s
  | .semWaitTimeout id => Sys2Proof.Machine.execSemWaitTimeout id s
  | .semInheritTimeout sem => Sys2Proof.Machine.execSemInheritTimeout sem s
  | .forceRel fn sem => Sys2Proof.Machine.execForceRel fn sem s
  | .waitTime id => Sys2Proof.Machine.execWaitTime id s
  | .waitTimeDue id => Sys2Proof.Machine.execWaitTimeDue id s
  | .roundBoundary => Sys2Proof.Machine.execRoundBoundary s
  | .lessonBoundary r => Sys2Proof.Machine.execLessonBoundary r s
  | .bellInEdge width => Sys2Proof.Machine.execBellInEdge width s
  | .bellWindowEnd => Sys2Proof.Machine.execBellWindowEnd s
  | .switchStopped r => Sys2Proof.Machine.execSwitchStopped r s
  | .saveDone r => Sys2Proof.Machine.execSaveDone r s
  | .restoreDone r => Sys2Proof.Machine.execRestoreDone r s
  | .scaleWaitExpire j => Sys2Proof.Machine.execScaleWaitExpire j s
  | .tile j => Sys2Proof.Machine.execTile j s
  | .tileComplete j stall fault err => Sys2Proof.Machine.execTileComplete j stall fault err s
  | .drainComplete j err => Sys2Proof.Machine.execDrainComplete j err s
  | .intScaleMismatch j => Sys2Proof.Machine.execIntScaleMismatch j s
  | .expandComplete j err => Sys2Proof.Machine.execExpandComplete j err s
  | .microNop j => Sys2Proof.Machine.execMicroNop j s
  | .endSeq j => Sys2Proof.Machine.execEndSeq j s
  | .loopOpen j => Sys2Proof.Machine.execLoopOpen j s
  | .endloop j => Sys2Proof.Machine.execEndloop j s
  | .vwait j => Sys2Proof.Machine.execVwait j s
  | .waitSatisfied j cycles => Sys2Proof.Machine.execWaitSatisfied j cycles s
  | .ckpt j => Sys2Proof.Machine.execCkpt j s
  | .nsig j err => Sys2Proof.Machine.execNsig j err s
  | .ysend j lost err => Sys2Proof.Machine.execYsend j lost err s
  | .vadd j err => Sys2Proof.Machine.execVadd j err s
  | .vsub j err => Sys2Proof.Machine.execVsub j err s
  | .vmul j err => Sys2Proof.Machine.execVmul j err s
  | .vfma j err => Sys2Proof.Machine.execVfma j err s
  | .vmin j err => Sys2Proof.Machine.execVmin j err s
  | .vmax j err => Sys2Proof.Machine.execVmax j err s
  | .vabs j err => Sys2Proof.Machine.execVabs j err s
  | .vneg j err => Sys2Proof.Machine.execVneg j err s
  | .vcmplt j err => Sys2Proof.Machine.execVcmplt j err s
  | .vcmpeq j err => Sys2Proof.Machine.execVcmpeq j err s
  | .vsel j err => Sys2Proof.Machine.execVsel j err s
  | .vfnma j err => Sys2Proof.Machine.execVfnma j err s
  | .vcvt j err => Sys2Proof.Machine.execVcvt j err s
  | .vand j err => Sys2Proof.Machine.execVand j err s
  | .vor j err => Sys2Proof.Machine.execVor j err s
  | .vxor j err => Sys2Proof.Machine.execVxor j err s
  | .vshl j err => Sys2Proof.Machine.execVshl j err s
  | .vshr j err => Sys2Proof.Machine.execVshr j err s
  | .idx j err => Sys2Proof.Machine.execIdx j err s
  | .rcp j err => Sys2Proof.Machine.execRcp j err s
  | .vsqrt j err => Sys2Proof.Machine.execVsqrt j err s
  | .rsqrt j err => Sys2Proof.Machine.execRsqrt j err s
  | .vexp j err => Sys2Proof.Machine.execVexp j err s
  | .exp2 j err => Sys2Proof.Machine.execExp2 j err s
  | .vlog j err => Sys2Proof.Machine.execVlog j err s
  | .log2 j err => Sys2Proof.Machine.execLog2 j err s
  | .tanh j err => Sys2Proof.Machine.execTanh j err s
  | .sigm j err => Sys2Proof.Machine.execSigm j err s
  | .erf j err => Sys2Proof.Machine.execErf j err s
  | .vsin j err => Sys2Proof.Machine.execVsin j err s
  | .vcos j err => Sys2Proof.Machine.execVcos j err s
  | .rsum j err => Sys2Proof.Machine.execRsum j err s
  | .rmax j err => Sys2Proof.Machine.execRmax j err s
  | .rmin j err => Sys2Proof.Machine.execRmin j err s
  | .vld j lost err => Sys2Proof.Machine.execVld j lost err s
  | .vst j lost err => Sys2Proof.Machine.execVst j lost err s
  | .accrd j err => Sys2Proof.Machine.execAccrd j err s
  | .planeFault j double rereadFails => Sys2Proof.Machine.execPlaneFault j double rereadFails s
  | .inPlaceTest addr fails => Sys2Proof.Machine.execInPlaceTest addr fails s
  | .strikeLapse p => Sys2Proof.Machine.execStrikeLapse p s
  | .spareSubstitution => Sys2Proof.Machine.execSpareSubstitution s
  | .fltSpxRetire fn j => Sys2Proof.Machine.execFltSpxRetire fn j s
  | .preventiveHold j => Sys2Proof.Machine.execPreventiveHold j s
  | .stateCopyDone => Sys2Proof.Machine.execStateCopyDone s
  | .engineFault k at' => Sys2Proof.Machine.execEngineFault k at' s
  | .meshCrcError tile link replays lockLost => Sys2Proof.Machine.execMeshCrcError tile link replays lockLost s
  | .watchdogExpire => Sys2Proof.Machine.execWatchdogExpire s
  | .watchdogRestartDone => Sys2Proof.Machine.execWatchdogRestartDone s
  | .tableLoad fn r slot => Sys2Proof.Machine.execTableLoad fn r slot s
  | .tableLoadEnd r slot => Sys2Proof.Machine.execTableLoadEnd r slot s
  | .slotClose fn r slot close => Sys2Proof.Machine.execSlotClose fn r slot close s
  | .skeinBlockDecode j stream => Sys2Proof.Machine.execSkeinBlockDecode j stream s
  | .refill => Sys2Proof.Machine.execRefill s
  | .memRequestIssue id => Sys2Proof.Machine.execMemRequestIssue id s
  | .memReadReturn id link ce ue => Sys2Proof.Machine.execMemReadReturn id link ce ue s
  | .retrainStart ch => Sys2Proof.Machine.execRetrainStart ch s
  | .retrainEnd ch result => Sys2Proof.Machine.execRetrainEnd ch result s
  | .holdRetry id => Sys2Proof.Machine.execHoldRetry id s
  | .scrubRead sector ce ue progress => Sys2Proof.Machine.execScrubRead sector ce ue progress s
  | .chanRetire fn ch => Sys2Proof.Machine.execChanRetire fn ch s
  | .chanRetrain fn ch => Sys2Proof.Machine.execChanRetrain fn ch s
  | .extentCopyDone bad => Sys2Proof.Machine.execExtentCopyDone bad s
  | .memWindowWrite fn off val => Sys2Proof.Machine.execMemWindowWrite fn off val s
  | .reelRequestIssue j pick => Sys2Proof.Machine.execReelRequestIssue j pick s
  | .reelReadReturn j tag => Sys2Proof.Machine.execReelReadReturn j tag s
  | .reelWriteAck j tag => Sys2Proof.Machine.execReelWriteAck j tag s
  | .quiesceDone j => Sys2Proof.Machine.execQuiesceDone j s
  | .dmaGo fn ch => Sys2Proof.Machine.execDmaGo fn ch s
  | .dmaStop fn ch => Sys2Proof.Machine.execDmaStop fn ch s
  | .dmaAbandon fn ch => Sys2Proof.Machine.execDmaAbandon fn ch s
  | .dmaAssign fn ch val => Sys2Proof.Machine.execDmaAssign fn ch val s
  | .descriptorFetch ch host how => Sys2Proof.Machine.execDescriptorFetch ch host how s
  | .dmaReadComplete ch host how => Sys2Proof.Machine.execDmaReadComplete ch host how s
  | .dmaStart id => Sys2Proof.Machine.execDmaStart id s
  | .idleFlit p bytes => Sys2Proof.Machine.execIdleFlit p bytes s
  | .flitReceive p bytes => Sys2Proof.Machine.execFlitReceive p bytes s
  | .linkCtlNak p seq => Sys2Proof.Machine.execLinkCtlNak p seq s
  | .linkCtlLaneRetire p l => Sys2Proof.Machine.execLinkCtlLaneRetire p l s
  | .linkCtlRetrain p => Sys2Proof.Machine.execLinkCtlRetrain p s
  | .linkCtlWake p => Sys2Proof.Machine.execLinkCtlWake p s
  | .ackTimeout p => Sys2Proof.Machine.execAckTimeout p s
  | .portRetrain fn p => Sys2Proof.Machine.execPortRetrain fn p s
  | .portRetrainDone p ok failed nbrDev nbrPort => Sys2Proof.Machine.execPortRetrainDone p ok failed nbrDev nbrPort s
  | .laneRetire fn p => Sys2Proof.Machine.execLaneRetire fn p s
  | .laneRateCheck p l ce ue => Sys2Proof.Machine.execLaneRateCheck p l ce ue s
  | .laneLossOfLock p l => Sys2Proof.Machine.execLaneLossOfLock p l s
  | .laneRestripeDone p => Sys2Proof.Machine.execLaneRestripeDone p s
  | .portEnable fn p en => Sys2Proof.Machine.execPortEnable fn p en s
  | .devIdWrite fn val => Sys2Proof.Machine.execDevIdWrite fn val s
  | .remoteWrite src cls job id addr data poisoned => Sys2Proof.Machine.execRemoteWrite src cls job id addr data poisoned s
  | .remoteRead src cls job id addr len => Sys2Proof.Machine.execRemoteRead src cls job id addr len s
  | .klReadResp id code data => Sys2Proof.Machine.execKlReadResp id code data s
  | .completion id code state => Sys2Proof.Machine.execCompletion id code state s
  | .remoteTimeout id => Sys2Proof.Machine.execRemoteTimeout id s
  | .ppsEdge width => Sys2Proof.Machine.execPpsEdge width s
  | .ppsMiss => Sys2Proof.Machine.execPpsMiss s
  | .timeExchange => Sys2Proof.Machine.execTimeExchange s
  | .timeFlit p t1 t2 t3 t4 reply => Sys2Proof.Machine.execTimeFlit p t1 t2 t3 t4 reply s
  | .bellSend => Sys2Proof.Machine.execBellSend s
  | .bellFlit p seq instant => Sys2Proof.Machine.execBellFlit p seq instant s
  | .rcEnable fn r en => Sys2Proof.Machine.execRcEnable fn r en s
  | .rollCall p job step rec => Sys2Proof.Machine.execRollCall p job step rec s
  | .rollCallDeadline r => Sys2Proof.Machine.execRollCallDeadline r s
  | .rollVerdict p job step v => Sys2Proof.Machine.execRollVerdict p job step v s
  | .contribution src cls job id data waited wrong => Sys2Proof.Machine.execContribution src cls job id data waited wrong s
  | .probe src cls job id data => Sys2Proof.Machine.execProbe src cls job id data s
  | .subDelayExpire j stream => Sys2Proof.Machine.execSubDelayExpire j stream s
  | .redEnable fn r en => Sys2Proof.Machine.execRedEnable fn r en s
  | .cmdUpdate id => Sys2Proof.Machine.execCmdUpdate id s
  | .reductionDeadline r => Sys2Proof.Machine.execReductionDeadline r s
  | .updatePass1Done r => Sys2Proof.Machine.execUpdatePass1Done r s
  | .tallyRecord src cls job id data => Sys2Proof.Machine.execTallyRecord src cls job id data s
  | .tallyDeadline r => Sys2Proof.Machine.execTallyDeadline r s
  | .tallyResult src cls job id data => Sys2Proof.Machine.execTallyResult src cls job id data s
  | .updatePass2Done r => Sys2Proof.Machine.execUpdatePass2Done r s
  | .param src cls job id addr data => Sys2Proof.Machine.execParam src cls job id addr data s
  | .paramWait id => Sys2Proof.Machine.execParamWait id s
  | .paramWaitTimeout id => Sys2Proof.Machine.execParamWaitTimeout id s
  | .decImage id => Sys2Proof.Machine.execDecImage id s
  | .decVideo id => Sys2Proof.Machine.execDecVideo id s
  | .decAudio id => Sys2Proof.Machine.execDecAudio id s
  | .tokenize id => Sys2Proof.Machine.execTokenize id s
  | .sampleStart e => Sys2Proof.Machine.execSampleStart e s
  | .sampleDamage e => Sys2Proof.Machine.execSampleDamage e s
  | .sampleDefer e => Sys2Proof.Machine.execSampleDefer e s
  | .sampleDrop e => Sys2Proof.Machine.execSampleDrop e s
  | .sampleEnd e => Sys2Proof.Machine.execSampleEnd e s
  | .tokLoad fn r slot => Sys2Proof.Machine.execTokLoad fn r slot s
  | .tokLoadEnd r slot => Sys2Proof.Machine.execTokLoadEnd r slot s
  | .tokSlotClose fn r slot close => Sys2Proof.Machine.execTokSlotClose fn r slot close s
  | .prep id => Sys2Proof.Machine.execPrep id s
  | .entryTake g => Sys2Proof.Machine.execEntryTake g s
  | .entryEnd g => Sys2Proof.Machine.execEntryEnd g s
  | .pack id => Sys2Proof.Machine.execPack id s
  | .packComplete p => Sys2Proof.Machine.execPackComplete p s
  | .encOpen id => Sys2Proof.Machine.execEncOpen id s
  | .encFrame id => Sys2Proof.Machine.execEncFrame id s
  | .encClose id => Sys2Proof.Machine.execEncClose id s
  | .blockRowStart e => Sys2Proof.Machine.execBlockRowStart e s
  | .rowCounterPoll e => Sys2Proof.Machine.execRowCounterPoll e s
  | .blockRowEnd e => Sys2Proof.Machine.execBlockRowEnd e s
  | .chunkEmit e rdPtr => Sys2Proof.Machine.execChunkEmit e rdPtr s
  | .ringPoll e rdPtr => Sys2Proof.Machine.execRingPoll e rdPtr s
  | .rowsTimeout e => Sys2Proof.Machine.execRowsTimeout e s
  | .ringTimeout e => Sys2Proof.Machine.execRingTimeout e s
  | .marginSample a => Sys2Proof.Machine.execMarginSample a s
  | .voltageStep die f ms => Sys2Proof.Machine.execVoltageStep die f ms s
  | .termEnd t => Sys2Proof.Machine.execTermEnd t s
  | .eyeScan ch eye => Sys2Proof.Machine.execEyeScan ch eye s
  | .cardCopy fn => Sys2Proof.Machine.execCardCopy fn s
  | .cardCopyEnd => Sys2Proof.Machine.execCardCopyEnd s
  | .powerCheck mean v48 => Sys2Proof.Machine.execPowerCheck mean v48 s
  | .supplyRampDone => Sys2Proof.Machine.execSupplyRampDone s
  | .drawControl x => Sys2Proof.Machine.execDrawControl x s
  | .pwrCapInAssert us mean => Sys2Proof.Machine.execPwrCapInAssert us mean s
  | .pwrCapInDeassert us => Sys2Proof.Machine.execPwrCapInDeassert us s
  | .tjSample ts => Sys2Proof.Machine.execTjSample ts s
  | .thermalTrip => Sys2Proof.Machine.execThermalTrip s
  | .flowDemand => Sys2Proof.Machine.execFlowDemand s
  | .flowActuate => Sys2Proof.Machine.execFlowActuate s
  | .ntcSample rs => Sys2Proof.Machine.execNtcSample rs s
  | .coolantCondition kind sub => Sys2Proof.Machine.execCoolantCondition kind sub s
  | .faultCapRelease => Sys2Proof.Machine.execFaultCapRelease s
  | .recessEnter fn => Sys2Proof.Machine.execRecessEnter fn s
  | .recessReached => Sys2Proof.Machine.execRecessReached s
  | .wake fn => Sys2Proof.Machine.execWake fn s
  | .wakeTime => Sys2Proof.Machine.execWakeTime s
  | .wakeSend fn ports => Sys2Proof.Machine.execWakeSend fn ports s
  | .wakeComplete fails marginal => Sys2Proof.Machine.execWakeComplete fails marginal s
  | .auxPowerOn addrSel => Sys2Proof.Machine.execAuxPowerOn addrSel s
  | .v48Applied => Sys2Proof.Machine.execV48Applied s
  | .pwrGoodAssert => Sys2Proof.Machine.execPwrGoodAssert s
  | .railFault pll => Sys2Proof.Machine.execRailFault pll s
  | .v48OutOfRange v us => Sys2Proof.Machine.execV48OutOfRange v us s
  | .auxLow us => Sys2Proof.Machine.execAuxLow us s
  | .resetNAssert ns tj => Sys2Proof.Machine.execResetNAssert ns tj s
  | .resetNRelease => Sys2Proof.Machine.execResetNRelease s
  | .firmwareVerified => Sys2Proof.Machine.execFirmwareVerified s
  | .bootStageDone stage b => Sys2Proof.Machine.execBootStageDone stage b s
  | .bootComplete => Sys2Proof.Machine.execBootComplete s
  | .bootTimeout => Sys2Proof.Machine.execBootTimeout s
  | .configRequest fn vfs mask => Sys2Proof.Machine.execConfigRequest fn vfs mask s
  | .vfFlr r => Sys2Proof.Machine.execVfFlr r s
  | .pfFlr => Sys2Proof.Machine.execPfFlr s
  | .sysReset fn val => Sys2Proof.Machine.execSysReset fn val s
  | .mgmtStatus crcOk => Sys2Proof.Machine.execMgmtStatus crcOk s
  | .alertRead crcOk => Sys2Proof.Machine.execAlertRead crcOk s
  | .alertClear crcOk causes => Sys2Proof.Machine.execAlertClear crcOk causes s
  | .alertMask crcOk causes => Sys2Proof.Machine.execAlertMask crcOk causes s
  | .loadNext crcOk => Sys2Proof.Machine.execLoadNext crcOk s
  | .keyWrite crcOk slot key sig => Sys2Proof.Machine.execKeyWrite crcOk slot key sig s
  | .keyRevoke crcOk slot sig => Sys2Proof.Machine.execKeyRevoke crcOk slot sig s
  | .flashWrite crcOk off bytes cut => Sys2Proof.Machine.execFlashWrite crcOk off bytes cut s
  | .fwSvnRaise crcOk svn sig => Sys2Proof.Machine.execFwSvnRaise crcOk svn sig s
  | .cardRead crcOk => Sys2Proof.Machine.execCardRead crcOk s
  | .jtagInstruction instr pins => Sys2Proof.Machine.execJtagInstruction instr pins s
  | .intMaskWrite fn set view val => Sys2Proof.Machine.execIntMaskWrite fn set view val s
  | .flowPulse input => Sys2Proof.Machine.execFlowPulse input s
  | .msiXVectorUnmask fn vec => Sys2Proof.Machine.execMsiXVectorUnmask fn vec s

end Sys2Proof.Machine
end

