-- ==== Sys2Proof/Machine/Pins.lean ====
section
/-! DEFINITION. What the output pins and the Kaluf transmitters show of a state (R581, R611, R614). The edges that a command drives
stand in the events of `out`; nothing in the machine reads a level. -/

namespace Sys2Proof.Machine

/-- The level of an output pin, or the state of a transmitter lane. -/
inductive PinLevel where
  | low
  | high
  | highZ
  /-- a pulse-width duty in 255ths -/
  | duty (n : Nat)
  /-- a transmitter without power -/
  | off
  /-- a transmitter in electrical idle -/
  | idle
  /-- a transmitter that sends -/
  | active
  deriving DecidableEq, Repr

/-- The device has V48_IN and no trip holds: past the first column of Table 22-9. -/
def Dev.mainPower (d : Dev) : Bool := d.boot.conv && d.get THM_STAT.TRIP 0 == 0

/-- PWR_GOOD (R567, R568, R614). -/
def Dev.pwrGoodPin (d : Dev) : PinLevel := if d.boot.good then .high else .low

/-- ALERT_N, an open-drain output (R581). -/
def Dev.alertPin (d : Dev) : PinLevel := if d.boot.aux && d.alertAsserted then .low else .highZ

/-- PWM_PUMP and PWM_VALVE (R611, R614). -/
def Dev.pwmPumpPin (d : Dev) : PinLevel := .duty d.pumpPin
def Dev.pwmValvePin (d : Dev) : PinLevel := .duty d.valvePin

/-- LOAD_ADV (R552, R614). -/
def Dev.loadAdvPin (d : Dev) : PinLevel := if d.mainPower && d.runs && d.awake && d.get PWR_STAT.ADV 0 == 1 then .high else .low

/-- BELL_OUT between its pulses (R609, R614). -/
def Dev.bellOutPin (d : Dev) : PinLevel := if d.mainPower then .low else .highZ

/-- The lowest lane of a port that is in use (Table 19-6). -/
def Dev.lowestLane (d : Dev) (p : Nat) : Option Nat := [0, 1, 2, 3].find? fun l => bitAt (d.get KL_PORT_STAT.LANES p) l

/-- Transmitter lane `l` of Kaluf port `p` (R614, R560): in Recess one lane of a port stays awake; a lane that is not in use, and a
port that is down, does not send. -/
def Dev.klTxPin (d : Dev) (p l : Nat) : PinLevel :=
  if !d.mainPower then .off
  else if !d.runs then .idle
  else if !d.awake then (if d.lowestLane p = some l then .active else .off)
  else if bitAt (d.get KL_PORT_STAT.LANES p) l && [1, 2, 3].contains (d.get KL_PORT_STAT.STATE p) then .active
  else .idle

/-- SPI_CS_N between the flash accesses, each of which lies within one command (R614). Before tr nothing drives it.
Log: 198 (DEDUCED). -/
def Dev.spiCsPin (d : Dev) : PinLevel := if d.mainPower && !d.runs then .highZ else .high

/-- The other SPI pins between the flash accesses, where the manual gives them: without main power and before tr (R614). -/
def Dev.spiPin (d : Dev) : Option PinLevel := if d.mainPower && d.runs then none else some .highZ

/-- The PCIe transmitters, where the manual gives them: without main power and in reset (R614). Elsewhere they follow the link. -/
def Dev.peTxPin (d : Dev) : Option PinLevel := if !d.mainPower then some .off else if !d.runs then some .idle else none

end Sys2Proof.Machine
end

