-- ==== Sys2Proof/Safety.lean ====
section
/-! DEFINITION. The terms in which claims about the machine are stated: what a command answers, what it leaves alone, and
the invariants of the state. -/

namespace Sys2Proof.Machine

/-- The command answers a next state, and the device of that state meets `P`. -/
def Answers (c : Instr) (s : State) (P : Dev → Prop) : Prop := ∃ t, exec c s = .next t ∧ P t.dev

/-- Every register of `e` outside the offsets `offs` holds what it holds in `d`. -/
def RegsKept (d e : Dev) (offs : List Nat) : Prop := ∀ off, off ∉ offs → e.rdOff off = d.rdOff off

/-- Every byte of memory outside `[a, a + n)` reads in `e` as in `d`. -/
def MemKept (d e : Dev) (a n : Nat) : Prop := ∀ k, k < a ∨ a + n ≤ k → e.rdByte k = d.rdByte k

/-- Every byte of memory reads in `e` as in `d`. -/
def MemSame (d e : Dev) : Prop := ∀ k, e.rdByte k = d.rdByte k

/-- The summary registers that an interrupt source of set `n` may set (R592): INT_STATUS of the set, and INT_VSTATUS of its
Room. -/
def irqRegs (n : Nat) : List Nat :=
  if n = 0 then [INT_STATUS.addr 0] else [INT_STATUS.addr n, INT_VSTATUS.addr (n - 1)]

/-- The registers of a Room's regulators (R321, R322). -/
def regulatorRegs (r : Nat) : List Nat :=
  [MEM_REG_BAL.addr (2 * r), MEM_REG_BAL.addr (2 * r + 1), MEM_REG_BUDGET.addr (2 * r), MEM_REG_BUDGET.addr (2 * r + 1)]

/-- The registers that change when a piece of work forgets what it had still to pay (R322). -/
def Dev.payerRegs (d : Dev) (p : Payer) : List Nat :=
  match d.memx.dues.find? fun x => x.payer == p with
  | some x => regulatorRegs x.room
  | none => []

/-- The Spindle has issued its instruction and stands at the next slot (R252, Table 08-9). -/
def Issued (d e : Dev) (i : Nat) : Prop :=
  e.get SPX_VX_STAT.IP i = (d.get SPX_VX_STAT.IP i + 1) % 4096
    ∧ e.rd SPX_VX_ISSUE_CNT i = min (d.rd SPX_VX_ISSUE_CNT i + 1) 0xFFFFFFFF

/-- The sequencer's registers of a Spindle. -/
def seqRegs (i : Nat) : List Nat := [SPX_VX_STAT.addr i, SPX_VX_ISSUE_CNT.addr i]

/-- The registers in which a Spindle's Room counts saturations and NaNs and shows their events (R177). -/
def Dev.numRegs (d : Dev) (i : Nat) : List Nat :=
  match d.spindleRoom i with
  | some r => NUM_SAT_CNT.addr r :: NUM_NAN_CNT.addr r :: NUM_STATUS.addr r :: irqRegs (1 + r)
  | none => []

/-- The instructions that read operands from Spindle storage, each waiting for the error that it meets (R42), with their opcodes. -/
def operandReaders (i lost : Nat) : List ((Option (Nat × Bool) → Instr) × Nat) :=
  [(Instr.vadd i, 0x10), (Instr.vsub i, 0x11), (Instr.vmul i, 0x12), (Instr.vfma i, 0x13), (Instr.vmin i, 0x14),
   (Instr.vmax i, 0x15), (Instr.vabs i, 0x16), (Instr.vneg i, 0x17), (Instr.vcmplt i, 0x18), (Instr.vcmpeq i, 0x19),
   (Instr.vsel i, 0x1A), (Instr.vfnma i, 0x1B), (Instr.vcvt i, 0x20), (Instr.vand i, 0x28), (Instr.vor i, 0x29),
   (Instr.vxor i, 0x2A), (Instr.vshl i, 0x2B), (Instr.vshr i, 0x2C), (Instr.idx i, 0x2D), (Instr.rcp i, 0x30),
   (Instr.vsqrt i, 0x31), (Instr.rsqrt i, 0x32), (Instr.vexp i, 0x33), (Instr.exp2 i, 0x34), (Instr.vlog i, 0x35),
   (Instr.log2 i, 0x36), (Instr.tanh i, 0x37), (Instr.sigm i, 0x38), (Instr.erf i, 0x39), (Instr.vsin i, 0x3A),
   (Instr.vcos i, 0x3B), (Instr.rsum i, 0x40), (Instr.rmax i, 0x41), (Instr.rmin i, 0x42), (Instr.vld i lost, 0x48),
   (Instr.vst i lost, 0x49), (Instr.accrd i, 0x4A)]

/-- The lanes of Bobbin line `n` hold what `f` gives, and what they held where it gives nothing; no other byte of memory
changes, and of the registers the sequencer's and the Room's counts alone. -/
def LineWritten (d e : Dev) (i lanes n : Nat) (f : Nat → Option Nat) : Prop :=
  (∀ l, l < lineLanes lanes → nth 0 (e.lineCodes i lanes n) l = (f l).getD (nth 0 (d.lineCodes i lanes n) l))
    ∧ MemKept d e (bobLine i n) 1024 ∧ RegsKept d e (seqRegs i ++ d.numRegs i) ∧ Issued d e i

/-- A Room's Spindles are Spindles of the device, and the blocks that their Reels hold name table slots of a Room (R41, R302):
so it is in every state that a run reaches. -/
def Dev.roomInRange (d : Dev) (r : Nat) : Prop :=
  ∀ j ∈ d.roomSpindles r, j < 1024 ∧ ∀ b ∈ (d.reel j).blocks, ∀ k, b.slot = some k → k < 4

/-- The distance of a finite value from the value of an element code, as a magnitude. -/
def distance (f : Nat) (v : FVal) (c : Nat) : Nat × Int :=
  match v.add (elemRaw f c).neg with
  | .num _ m e => (m, e)
  | _ => (0, 0)

/-- An element code of a floating-point format that stands for a finite value. -/
def finiteCode (f c : Nat) : Bool :=
  decide (c < 2 ^ fmtWidth f) && (match elemRaw f c with | .num _ _ _ => true | _ => false)

/-- A fetched command has completed with a status (R132, R133): the queue engine holds it no more, and a record for host
memory has left with its 16 bytes. -/
def Completed (d e : Dev) (c : Cmd) (status : Nat) : Prop :=
  (∀ x ∈ e.que.cmds, x.id ≠ c.id)
    ∧ (c.cplHost = true → ∃ detail, OutEv.hostWrite (1 + c.room) c.cplAddr (complRecord c status detail d.now) ∈ e.out)

/-- The main domain is as after reset (R568, R577): every register holds its reset value but THM_STAT, which the auxiliary
domain keeps, and CFG_KEY_STAT, which shows the key slots; every byte of memory reads 0 (log 6) and no command waits. -/
def FreshMain (e : Dev) : Prop :=
  (∀ off, off ∉ [THM_STAT.addr 0, CFG_KEY_STAT.addr 0] → e.rdOff off = resetOf off) ∧ (∀ a, e.rdByte a = 0) ∧ e.que.cmds = []

/-- A response of the management port (R579): STATUS, LEN, the data, and the CRC-8 of them. -/
def mgmtResponse (status : Nat) (data : List (BitVec 8)) : List (BitVec 8) :=
  let b := toLe 1 status ++ toLe 1 data.length ++ data
  b ++ toLe 1 (crcMsb 8 0x07 0 b)

/-- A function's meaning on the state besides the device: the window of no function keeps anything. -/
def Restarts (c : Instr) (s : State) (P : Dev → Prop) : Prop := ∃ t, exec c s = .next t ∧ t.fns = [] ∧ P t.dev

/-- The registers whose write has an action of its own besides the access types of its fields (Table 21-10, the home
chapters). -/
def actionRegs : List RegDesc :=
  [SYS_RESET, INT_MASK, INT_VMASK, ROOM_CTL, ROOM_SAVE_ADDR_LO, ROOM_SAVE_ADDR_HI, ROOM_SAVE_SIZE, NUM_SCALE_BASE_LO,
   NUM_SCALE_BASE_HI, NUM_SCALE_GROUPS, QUE_BASE_LO, QUE_BASE_HI,
   QUE_SIZE, QUE_CTL, QUE_STAT, SEM_STATE, CFG_LOAD, MEM_FT_BASE_LO, MEM_FT_BASE_HI, MEM_FT_SIZE, MEM_CT_BASE_LO,
   MEM_CT_BASE_HI, MEM_CT_SIZE, MEM_CHAN_CTL, DMA_CH_CTL, KL_PORT_CTL, KL_CREDIT, KL_DEV_ID, KL_ROOM_JOB, KL_RC_CTL, RED_CTL,
   RED_TABLE_BASE_LO, RED_TABLE_BASE_HI, SKN_TABLE_SLOT, MED_TOK_SLOT, VC_PRIV, FLT_SPX_CTL, AGE_CTL, AGE_CARD_CTL, PWR_RECESS,
   PWR_WAKE_SEND, TIME_CTL]

/-- A write of the register acts by the access types of its fields alone (R11). -/
def plainReg (r : RegDesc) : Bool := actionRegs.all fun x => x.base != r.base

/-- What the register window keeps for a function is lawful (R9, R10): a snapshot is of the high half of a 64-bit value,
and a held low word is one of a 64-bit RW value and fits its 32 bits. -/
def FnState.lawful (x : FnState) : Bool :=
  (match x.snapshot with
    | some (o, _) => decide (4 ≤ o) && lowHalf (o - 4)
    | none => true)
  && match x.held with
    | some (o, v) => heldLow o && decide (v < 2 ^ 32)
    | none => true

/-- The register window is lawful: its table is canonical, and what it keeps for every function is lawful (R9, R10). -/
def State.windowLawful (s : State) : Bool :=
  twf (fun _ => FnState.init) s.fns && s.fns.all fun p => p.2.lawful

end Sys2Proof.Machine
end

