-- ==== Sys2Proof/WellFormed.lean ====
section
/-! DEFINITION. Which commands are well formed: the function, Room, Spindle, queue, channel, port, slot or entry that a
command names exists, a register access is to an aligned word of the window, and a value fits its word. A command that
is not well formed names nothing, and the meanings leave the state unchanged on it or read only what exists. -/

namespace Sys2Proof

open Sys2Proof.Machine (deskBase)

/-- The command names units that exist and values that fit. Log: 3 (DESIGN CHOICE). -/
def Instr.wf : Instr → Bool
  | .registerWrite fn off val => decide (fn ≤ 16) && decide (off % 4 = 0) && decide (off < 0x2000000) && decide (val < 2 ^ 32)
  | .narrowAccess fn _ _ => decide (fn ≤ 16)
  | .rcRead fn off => decide (fn ≤ 16) && decide (off % 4 = 0) && decide (off < 0x2000000)
  | .lowWordRead fn off => decide (fn ≤ 16) && decide (off % 4 = 0) && decide (off < 0x2000000)
  | .deskWindowRead addr _ => decide (addr % 4 = 0) && decide (deskBase 0 ≤ addr) && decide (addr < deskBase 1024)
  | .deskWindowWrite addr bytes => decide (deskBase 0 ≤ addr) && decide (addr + bytes.length ≤ deskBase 1024) && decide (bytes.length ≤ 128)
  | .yarnWordArrive i port ce ue => decide (i < 1024) && decide (port < 4) && ce.all (fun k => decide (k < 16)) && ue.all fun k => decide (k < 16)
  | .yarnCreditReturn i port ce ue => decide (i < 1024) && decide (port < 4) && ce.all (fun k => decide (k < 16)) && ue.all fun k => decide (k < 16)
  | .noteInject i _ => decide (i < 1024)
  | .noteWrite _ _ => true
  | .noteRead _ _ => true
  | .noteAtomic _ _ => true
  | .noteSignal _ _ => true
  | .noteAck _ => true
  | .readResp _ => true
  | .atomicResp _ => true
  | .noteNack _ => true
  | .noteTimeout i tag => decide (i < 1024) && decide (tag < 64)
  | .cfgLoad fn r => decide (fn ≤ 16) && decide (r < 16)
  | .loadStepDone => true
  | .cfgCancel fn r => decide (fn ≤ 16) && decide (r < 16)
  | .cancelPoint => true
  | .unloadDrain fn r => decide (fn ≤ 16) && decide (r < 16)
  | .unloadAbort fn r => decide (fn ≤ 16) && decide (r < 16)
  | .cfgLoadReservedOp fn r op => decide (fn ≤ 16) && decide (r < 16) && decide (4 ≤ op) && decide (op ≤ 7)
  | .unloadProceed r => decide (r < 16)
  | .planeSwitch r _ => decide (r < 16)
  | .preloadDone r => decide (r < 16)
  | .drainTimeout r => decide (r < 16)
  | .roomHold fn r => decide (fn ≤ 16) && decide (r < 16)
  | .roomHoldRelease fn r => decide (fn ≤ 16) && decide (r < 16)
  | .doorbell fn q off tail => decide (fn ≤ 16) && decide (q < 16384) && decide (off % 4 = 0) && decide (off < 4096) && decide (tail < 2 ^ 32)
  | .queErrClear fn q => decide (fn ≤ 16) && decide (q < 16384)
  | .packetFetch _ => true
  | .commandStart r => decide (r < 16)
  | .cmdNop _ => true
  | .cmdRun r => decide (r < 16)
  | .semAcquire _ => true
  | .semRelease _ => true
  | .semWaitTimeout _ => true
  | .semInheritTimeout sem => decide (sem < 4096)
  | .forceRel fn sem => decide (fn ≤ 16) && decide (sem < 4096)
  | .waitTime _ => true
  | .waitTimeDue _ => true
  | .roundBoundary => true
  | .lessonBoundary r => decide (r < 16)
  | .bellInEdge _ => true
  | .bellWindowEnd => true
  | .switchStopped r => decide (r < 16)
  | .saveDone r => decide (r < 16)
  | .restoreDone r => decide (r < 16)
  | .scaleWaitExpire i => decide (i < 1024)
  | .tile i => decide (i < 1024)
  | .tileComplete i _ _ _ => decide (i < 1024)
  | .drainComplete i _ => decide (i < 1024)
  | .intScaleMismatch i => decide (i < 1024)
  | .expandComplete i _ => decide (i < 1024)
  | .microNop i => decide (i < 1024)
  | .endSeq i => decide (i < 1024)
  | .loopOpen i => decide (i < 1024)
  | .endloop i => decide (i < 1024)
  | .vwait i => decide (i < 1024)
  | .waitSatisfied i _ => decide (i < 1024)
  | .ckpt i => decide (i < 1024)
  | .nsig i _ => decide (i < 1024)
  | .ysend i _ _ => decide (i < 1024)
  | .vadd i _ => decide (i < 1024)
  | .vsub i _ => decide (i < 1024)
  | .vmul i _ => decide (i < 1024)
  | .vfma i _ => decide (i < 1024)
  | .vmin i _ => decide (i < 1024)
  | .vmax i _ => decide (i < 1024)
  | .vabs i _ => decide (i < 1024)
  | .vneg i _ => decide (i < 1024)
  | .vcmplt i _ => decide (i < 1024)
  | .vcmpeq i _ => decide (i < 1024)
  | .vsel i _ => decide (i < 1024)
  | .vfnma i _ => decide (i < 1024)
  | .vcvt i _ => decide (i < 1024)
  | .vand i _ => decide (i < 1024)
  | .vor i _ => decide (i < 1024)
  | .vxor i _ => decide (i < 1024)
  | .vshl i _ => decide (i < 1024)
  | .vshr i _ => decide (i < 1024)
  | .idx i _ => decide (i < 1024)
  | .rcp i _ => decide (i < 1024)
  | .vsqrt i _ => decide (i < 1024)
  | .rsqrt i _ => decide (i < 1024)
  | .vexp i _ => decide (i < 1024)
  | .exp2 i _ => decide (i < 1024)
  | .vlog i _ => decide (i < 1024)
  | .log2 i _ => decide (i < 1024)
  | .tanh i _ => decide (i < 1024)
  | .sigm i _ => decide (i < 1024)
  | .erf i _ => decide (i < 1024)
  | .vsin i _ => decide (i < 1024)
  | .vcos i _ => decide (i < 1024)
  | .rsum i _ => decide (i < 1024)
  | .rmax i _ => decide (i < 1024)
  | .rmin i _ => decide (i < 1024)
  | .vld i _ _ => decide (i < 1024)
  | .vst i _ _ => decide (i < 1024)
  | .accrd i _ => decide (i < 1024)
  | .planeFault i _ _ => decide (i < 1024)
  | .inPlaceTest _ _ => true
  | .strikeLapse _ => true
  | .spareSubstitution => true
  | .fltSpxRetire fn i => decide (fn ≤ 16) && decide (i < 1024)
  | .preventiveHold i => decide (i < 1024)
  | .stateCopyDone => true
  | .engineFault k _ => decide (k < 122)
  | .meshCrcError t _ _ _ => decide (t < 4)
  | .watchdogExpire => true
  | .watchdogRestartDone => true
  | .tableLoad fn r slot => decide (fn ≤ 16) && decide (r < 16) && decide (slot < 4)
  | .tableLoadEnd r slot => decide (r < 16) && decide (slot < 4)
  | .slotClose fn r slot _ => decide (fn ≤ 16) && decide (r < 16) && decide (slot < 4)
  | .skeinBlockDecode i stream => decide (i < 1024) && decide (stream < 64)
  | .refill => true
  | .memRequestIssue _ => true
  | .memReadReturn _ _ _ _ => true
  | .retrainStart ch => decide (ch < 448)
  | .retrainEnd ch result => decide (ch < 448) && decide (result ≤ 2)
  | .holdRetry _ => true
  | .scrubRead _ _ _ _ => true
  | .chanRetire fn ch => decide (fn ≤ 16) && decide (ch < 448)
  | .chanRetrain fn ch => decide (fn ≤ 16) && decide (ch < 448)
  | .extentCopyDone _ => true
  | .memWindowWrite fn off val => decide (fn ≤ 16) && decide (off % 4 = 0) && decide (off < 0x2000000) && decide (val < 2 ^ 32)
  | .reelRequestIssue i _ => decide (i < 1024)
  | .reelReadReturn i tag => decide (i < 1024) && decide (tag < 384)
  | .reelWriteAck i tag => decide (i < 1024) && decide (tag < 128)
  | .quiesceDone i => decide (i < 1024)
  | .dmaGo fn ch => decide (fn ≤ 16) && decide (ch < 128)
  | .dmaStop fn ch => decide (fn ≤ 16) && decide (ch < 128)
  | .dmaAbandon fn ch => decide (fn ≤ 16) && decide (ch < 128)
  | .dmaAssign fn ch val => decide (fn ≤ 16) && decide (ch < 128) && decide (val < 2 ^ 32)
  | .descriptorFetch ch _ _ => decide (ch < 128)
  | .dmaReadComplete ch _ _ => decide (ch < 128)
  | .dmaStart _ => true
  | .idleFlit p _ => decide (p < 12)
  | .flitReceive p _ => decide (p < 12)
  | .linkCtlNak p _ => decide (p < 12)
  | .linkCtlLaneRetire p l => decide (p < 12) && decide (l < 4)
  | .linkCtlRetrain p => decide (p < 12)
  | .linkCtlWake p => decide (p < 12)
  | .ackTimeout p => decide (p < 12)
  | .portRetrain fn p => decide (fn ≤ 16) && decide (p < 12)
  | .portRetrainDone p _ _ _ _ => decide (p < 12)
  | .laneRetire fn p => decide (fn ≤ 16) && decide (p < 12)
  | .laneRateCheck p l _ _ => decide (p < 12) && decide (l < 4)
  | .laneLossOfLock p l => decide (p < 12) && decide (l < 4)
  | .laneRestripeDone p => decide (p < 12)
  | .portEnable fn p _ => decide (fn ≤ 16) && decide (p < 12)
  | .devIdWrite fn val => decide (fn ≤ 16) && decide (val < 2 ^ 32)
  | .remoteWrite _ cls _ _ _ _ _ => decide (cls < 4)
  | .remoteRead _ cls _ _ _ _ => decide (cls < 4)
  | .klReadResp _ _ _ => true
  | .completion _ _ _ => true
  | .remoteTimeout _ => true
  | .ppsEdge _ => true
  | .ppsMiss => true
  | .timeExchange => true
  | .timeFlit p _ _ _ _ _ => decide (p < 12)
  | .bellSend => true
  | .bellFlit p _ _ => decide (p < 12)
  | .rcEnable fn r _ => decide (fn ≤ 16) && decide (r < 16)
  | .rollCall p _ _ _ => decide (p < 12)
  | .rollCallDeadline r => decide (r < 16)
  | .rollVerdict p _ _ _ => decide (p < 12)
  | .contribution _ cls _ _ _ _ _ => decide (cls < 4)
  | .probe _ cls _ _ _ => decide (cls < 4)
  | .subDelayExpire i stream => decide (i < 1024) && decide (stream < 64)
  | .redEnable fn r _ => decide (fn ≤ 16) && decide (r < 16)
  | .cmdUpdate _ => true
  | .reductionDeadline r => decide (r < 16)
  | .updatePass1Done r => decide (r < 16)
  | .tallyRecord _ cls _ _ _ => decide (cls < 4)
  | .tallyDeadline r => decide (r < 16)
  | .tallyResult _ cls _ _ _ => decide (cls < 4)
  | .updatePass2Done r => decide (r < 16)
  | .param _ cls _ _ _ _ => decide (cls < 4)
  | .paramWait _ => true
  | .paramWaitTimeout _ => true
  | .decImage _ => true
  | .decVideo _ => true
  | .decAudio _ => true
  | .tokenize _ => true
  | .sampleStart e => decide (e < 76)
  | .sampleDamage e => decide (e < 76)
  | .sampleDefer e => decide (e < 76)
  | .sampleDrop e => decide (e < 76)
  | .sampleEnd e => decide (e < 76)
  | .tokLoad fn r slot => decide (fn ≤ 16) && decide (r < 16) && decide (slot < 4)
  | .tokLoadEnd r slot => decide (r < 16) && decide (slot < 4)
  | .tokSlotClose fn r slot _ => decide (fn ≤ 16) && decide (r < 16) && decide (slot < 4)
  | .prep _ => true
  | .entryTake g => decide (g < 24)
  | .entryEnd g => decide (g < 24)
  | .pack _ => true
  | .packComplete p => decide (p < 2)
  | .encOpen _ => true
  | .encFrame _ => true
  | .encClose _ => true
  | .blockRowStart e => decide (e < 8)
  | .rowCounterPoll e => decide (e < 8)
  | .blockRowEnd e => decide (e < 8)
  | .chunkEmit e _ => decide (e < 8)
  | .ringPoll e _ => decide (e < 8)
  | .rowsTimeout e => decide (e < 8)
  | .ringTimeout e => decide (e < 8)
  | .marginSample _ => true
  | .voltageStep die f _ => decide (die < 16) && decide (f < 5)
  | .termEnd _ => true
  | .eyeScan ch _ => decide (ch < 448)
  | .cardCopy fn => decide (fn ≤ 16)
  | .cardCopyEnd => true
  | .powerCheck _ _ => true
  | .supplyRampDone => true
  | .drawControl _ => true
  | .pwrCapInAssert _ _ => true
  | .pwrCapInDeassert _ => true
  | .tjSample _ => true
  | .thermalTrip => true
  | .flowDemand => true
  | .flowActuate => true
  | .ntcSample _ => true
  | .coolantCondition _ _ => true
  | .faultCapRelease => true
  | .recessEnter fn => decide (fn ≤ 16)
  | .recessReached => true
  | .wake fn => decide (fn ≤ 16)
  | .wakeTime => true
  | .wakeSend fn ports => decide (fn ≤ 16) && decide (ports < 2 ^ 32)
  | .wakeComplete _ _ => true
  | .auxPowerOn _ => true
  | .v48Applied => true
  | .pwrGoodAssert => true
  | .railFault _ => true
  | .v48OutOfRange _ _ => true
  | .auxLow _ => true
  | .resetNAssert _ _ => true
  | .resetNRelease => true
  | .firmwareVerified => true
  | .bootStageDone stage _ => decide (stage < 5)
  | .bootComplete => true
  | .bootTimeout => true
  | .configRequest fn _ _ => decide (fn ≤ 16)
  | .vfFlr r => decide (r < 16)
  | .pfFlr => true
  | .sysReset fn val => decide (fn ≤ 16) && decide (val < 2 ^ 32)
  | .mgmtStatus _ => true
  | .alertRead _ => true
  | .alertClear _ _ => true
  | .alertMask _ _ => true
  | .loadNext _ => true
  | .keyWrite _ slot _ _ => decide (slot < 4)
  | .keyRevoke _ slot _ => decide (slot < 4)
  | .flashWrite _ _ bytes _ => decide (bytes.length ≤ 256)
  | .fwSvnRaise _ _ _ => true
  | .cardRead _ => true
  | .jtagInstruction _ _ => true
  | .intMaskWrite fn set _ val => decide (fn ≤ 16) && decide (set ≤ 16) && decide (val < 2 ^ 32)
  | .flowPulse input => decide (input < 2)
  | .msiXVectorUnmask fn vec => decide (fn ≤ 16) && decide (vec < 2048)

end Sys2Proof
end

