-- ==== Sys2Proof/Certificates/Slice0/Obligations.lean ====
section
/-! DEFINITION. The statements for the provers. -/

open Sys2Proof Sys2Proof.Machine

/-! ## The queue and the whole machine -/

/-- A step takes the command at the front of the queue and runs it with the queue's rest (the model's form of a block). -/
def Obligations.StepRunsFront : Prop :=
  ∀ (c : Instr) (rest : List Instr) (s : State),
    step { s with pending := c :: rest } = exec c { s with pending := rest }

/-- Every command answers a next state, whatever the state: none ends in a fault or a refusal. None changes the queue of the
commands behind it: a step takes exactly the front one. With no command waiting, one cycle of SCLK passes, and while the device
is held in reset nothing does: the model's choice (log 1). -/
def Obligations.QueueFirstInFirstOut : Prop :=
  (∀ (c : Instr) (s : State), ∃ t, exec c s = .next t) ∧
  (∀ s : State, ∃ t, step s = .next t ∧ t.pending = s.pending.drop 1) ∧
  ∀ s : State, s.pending = [] →
    ∃ t, step s = .next t ∧ t.pending = [] ∧ t.fns = s.fns ∧ (s.dev.boot.stage = .held → t = s)
      ∧ (s.dev.boot.stage ≠ .held → t.dev = s.dev.tick)

/-- What the register window keeps between a function's accesses stays lawful in every step: a snapshot is of the high
half of a 64-bit value, and a held low word is one of a 64-bit RW value. -/
def Obligations.WindowStaysLawful : Prop :=
  ∀ s t : State, s.windowLawful = true → step s = .next t → t.windowLawful = true

/-- What reset leaves (R11, R573): every register holds its reset value, every byte of memory 0 (of the capacity tier and
Spindle storage the model's choice, log 6), and the device has just reached tr with power in order (log 7). The register
window is lawful, memory canonical and the queue empty. -/
def Obligations.ResetState : Prop :=
  (∀ off, State.reset.dev.rdOff off = resetOf off) ∧ (∀ a, State.reset.dev.rdByte a = 0)
    ∧ State.reset.dev.boot.stage = .rom 0 ∧ (∀ r, r < 16 → State.reset.dev.roomState r = stEmpty)
    ∧ State.reset.windowLawful = true ∧ Memory.wf State.reset.dev.mem = true ∧ State.reset.pending = []

/-! ## Host accesses -/

/-- REGISTER_WRITE (R11): a write by the physical function to a register whose write has no action of its own leaves each
bit as its access type says: an RW bit takes the value as the register stores it, a W1C bit written as 1 clears, every
other bit stays; no other register and no byte of memory changes, and the write ends the function's snapshot and discards
the low word held for it (R9, R10). -/
def Obligations.RegisterWriteStores : Prop :=
  ∀ (s : State) (off val i : Nat) (r : RegDesc), s.dev.windowServed 0 off = true → off % 4 = 0 → regAt off = some (r, i) →
    r.half = .single → plainReg r = true → r.addr i = off →
    ∃ t, exec (.registerWrite 0 off val) s = .next t ∧
      t.dev.rd r i = (s.dev.rd r i &&& (0xFFFFFFFF ^^^ (r.rw ||| (val % 2 ^ 32 &&& r.w1c))))
        ||| (stored r (val % 2 ^ 32 &&& r.rw) &&& r.rw) ∧
      RegsKept s.dev t.dev [off] ∧ t.dev.mem = s.dev.mem ∧ t.fnSt 0 = FnState.init

/-- A 64-bit RW value (R10). A write to its low word is held and changes nothing of the device. A write of the function to the
high word then makes both halves take effect as one; where neither register has an action of its own, each takes the value as
it stores it and nothing else changes. A write of the function to any other offset, with an effect or without, discards what is
held, which then has no effect. Reads, writes through the doorbell and Desk windows, narrower and unaligned accesses and the
accesses of other functions leave it held. -/
def Obligations.HeldLowWord : Prop :=
  (∀ (s : State) (fn off val : Nat), s.dev.windowServed fn off = true → off % 4 = 0 → heldLow off = true →
    ∃ t, exec (.registerWrite fn off val) s = .next t ∧ t.dev = s.dev ∧ (t.fnSt fn).held = some (off, val % 2 ^ 32)) ∧
  (∀ (s : State) (fn off w val i : Nat) (lo hi : RegDesc), s.dev.windowServed fn (off + 4) = true → off % 4 = 0 →
    regAt off = some (lo, i) → regAt (off + 4) = some (hi, i) → lo.half = .low → hi.half = .high → lo.rw ≠ 0 → hi.rw ≠ 0 →
    (s.fnSt fn).held = some (off, w) →
    ∃ t, exec (.registerWrite fn (off + 4) val) s = .next t ∧ t.dev = s.dev.writeBoth fn lo hi i w (val % 2 ^ 32)
      ∧ (t.fnSt fn).held = none
      ∧ (plainReg lo = true → plainReg hi = true → s.dev.reach lo.vwrite fn lo i = true → s.dev.reach hi.vwrite fn hi i = true →
          lo.addr i = off → hi.addr i = off + 4 →
          t.dev.rd lo i = (s.dev.rd lo i &&& (0xFFFFFFFF ^^^ (lo.rw ||| (w &&& lo.w1c)))) ||| (stored lo (w &&& lo.rw) &&& lo.rw)
            ∧ t.dev.rd hi i = (s.dev.rd hi i &&& (0xFFFFFFFF ^^^ (hi.rw ||| (val % 2 ^ 32 &&& hi.w1c))))
              ||| (stored hi (val % 2 ^ 32 &&& hi.rw) &&& hi.rw)
            ∧ RegsKept s.dev t.dev [off, off + 4] ∧ t.dev.mem = s.dev.mem)) ∧
  (∀ (s : State) (fn off val o w : Nat), s.dev.window fn = true → off % 4 = 0 → (s.fnSt fn).held = some (o, w) → o + 4 ≠ off →
    ∃ t, exec (.registerWrite fn off val) s = .next t
      ∧ (t.fnSt fn).held = (if s.dev.windowServed fn off && heldLow off then some (off, val % 2 ^ 32) else none)
      ∧ ∀ s' u : State, s'.dev = s.dev → (s'.fnSt fn).held = none → exec (.registerWrite fn off val) s' = .next u → u.dev = t.dev) ∧
  (∀ (s : State) (fn r : Nat), s.dev.window fn = true → ∃ t, exec (.cfgLoad fn r) s = .next t ∧ (t.fnSt fn).held = none) ∧
  (∀ (s : State) (fn g off : Nat) (c : Instr), c ∈ [Instr.rcRead fn off, .lowWordRead fn off] →
    ∃ t, exec c s = .next t ∧ (t.fnSt g).held = (s.fnSt g).held) ∧
  (∀ (s : State) (fn q off val : Nat) (w : Bool) (err : WordError) (bs : List (BitVec 8)) (c : Instr),
    c ∈ [Instr.doorbell fn q off val, .deskWindowRead off err, .deskWindowWrite off bs, .narrowAccess fn off w] →
    ∃ t, exec c s = .next t ∧ t.fns = s.fns) ∧
  (∀ (s : State) (fn off val : Nat), off % 4 ≠ 0 →
    ∃ t, exec (.registerWrite fn off val) s = .next t ∧ t.fns = s.fns ∧ t.dev.regs = s.dev.regs) ∧
  (∀ (s : State) (fn g off val : Nat), g ≠ fn → resets fn off val = false →
    ∃ t, exec (.registerWrite fn off val) s = .next t ∧ (t.fnSt g).held = (s.fnSt g).held)

/-- A 64-bit value (R9) occupies two adjacent registers, the low word at the lower offset. A read of the low word returns it and
snapshots the high half for the reading function; of an RC value it then clears all 64 bits. The next access of the function,
if it reads the high word, returns the snapshot's; any other read of a high word returns the live one; neither clears. Any
access of the function to the register window, of either kind and to any offset, ends the snapshot; accesses through the
doorbell and Desk windows, narrower and unaligned ones and those of other functions do not. -/
def Obligations.SnapshotReads : Prop :=
  (∀ r ∈ regTable, r.half = .low → ∃ h ∈ regTable, h.half = .high ∧ h.base = r.base + 4 ∧ h.stride = r.stride ∧ h.count = r.count
    ∧ h.stride2 = r.stride2 ∧ h.count2 = r.count2) ∧
  (∀ (s : State) (fn off i : Nat) (r : RegDesc) (c : Instr), off % 4 = 0 → s.dev.isLow fn off = true →
    (s.fnSt fn).lawful = true → regAt off = some (r, i) → c ∈ [Instr.lowWordRead fn off, .rcRead fn off] →
    ∃ t, exec c s = .next t ∧ t.dev.out = .readData fn (s.dev.readAt fn off) :: s.dev.out
      ∧ (t.fnSt fn).snapshot = some (off + 4, s.dev.readAt fn (off + 4)) ∧ t.dev.mem = s.dev.mem
      ∧ (if r.rc = 0 then t.dev.regs = s.dev.regs
         else t.dev.rdOff off = 0 ∧ t.dev.rdOff (off + 4) = 0 ∧ RegsKept s.dev t.dev [off, off + 4])) ∧
  (∀ (s : State) (fn off h : Nat), s.dev.window fn = true → off % 4 = 0 → (s.fnSt fn).snapshot = some (off, h) →
    (s.fnSt fn).lawful = true →
    ∃ t, exec (.rcRead fn off) s = .next t ∧ t.dev = s.dev.send (.readData fn h) ∧ (t.fnSt fn).snapshot = none) ∧
  (∀ (s : State) (fn off i : Nat) (r : RegDesc), s.dev.window fn = true → off % 4 = 0 → regAt off = some (r, i) → r.half = .high →
    (∀ h, (s.fnSt fn).snapshot ≠ some (off, h)) →
    ∃ t, exec (.rcRead fn off) s = .next t ∧ t.dev = s.dev.send (.readData fn (s.dev.readAt fn off))
      ∧ (t.fnSt fn).snapshot = none) ∧
  (∀ (s : State) (fn off val : Nat), s.dev.window fn = true → off % 4 = 0 →
    (∃ t, exec (.registerWrite fn off val) s = .next t ∧ (t.fnSt fn).snapshot = none)
      ∧ (s.dev.isLow fn off = false → ∃ t, exec (.rcRead fn off) s = .next t ∧ (t.fnSt fn).snapshot = none)
      ∧ ∃ t, exec (.cfgLoad fn val) s = .next t ∧ (t.fnSt fn).snapshot = none) ∧
  (∀ (s : State) (fn q off val : Nat) (w : Bool) (err : WordError) (bs : List (BitVec 8)) (c : Instr),
    c ∈ [Instr.doorbell fn q off val, .deskWindowRead off err, .deskWindowWrite off bs, .narrowAccess fn off w] →
    ∃ t, exec c s = .next t ∧ t.fns = s.fns) ∧
  (∀ (s : State) (fn off val : Nat) (c : Instr), off % 4 ≠ 0 → c ∈ [Instr.registerWrite fn off val, .rcRead fn off] →
    ∃ t, exec c s = .next t ∧ t.fns = s.fns ∧ t.dev.regs = s.dev.regs) ∧
  (∀ (s : State) (fn g off val : Nat) (c : Instr), g ≠ fn → resets fn off val = false →
    c ∈ [Instr.registerWrite fn off val, .rcRead fn off] → ∃ t, exec c s = .next t ∧ (t.fnSt g).snapshot = (s.fnSt g).snapshot)

/-- NARROW_ACCESS (R8) and RC_READ (R11). Every register is 32 bits wide. A narrower or unaligned access completes with
unsupported-request status and changes no register; it counts as no access, so it ends no snapshot and discards no held low
word. A read of an RC register by the physical function returns its value and clears its RC bits alone. -/
def Obligations.RegisterReads : Prop :=
  (∀ (s : State) (fn off : Nat) (w : Bool), s.dev.window fn = true →
    exec (.narrowAccess fn off w) s = .next { s with dev := s.dev.send (.unsupported fn) }) ∧
  (∀ (s : State) (off i : Nat) (r : RegDesc), s.dev.windowServed 0 off = true → off % 4 = 0 → regAt off = some (r, i) →
    r.half = .single → r.rc ≠ 0 → r.addr i = off → r.base ≠ SYS_STATUS.base → r.base ≠ INT_LEVEL.base →
    (s.fnSt 0).snapshot = none →
    Answers (.rcRead 0 off) s fun e =>
      e.out = .readData 0 (s.dev.rd r i &&& (0xFFFFFFFF ^^^ r.wo)) :: s.dev.out
        ∧ e.rd r i = s.dev.rd r i &&& (0xFFFFFFFF ^^^ r.rc) ∧ RegsKept s.dev e [off] ∧ e.mem = s.dev.mem) ∧
  ∀ (d : Dev) (off : Nat), (d.rdOff off).toNat < 2 ^ 32

/-- DESK_WINDOW_READ and DESK_WINDOW_WRITE (R74): a read of a good word of Spindle storage returns it and changes nothing
else; a write to the Desk or Bobbin of a Spindle bound to no Room, or to a HELD one, is made, and any other is discarded
and counted. -/
def Obligations.DeskWindow : Prop :=
  (∀ (s : State) (addr : Nat), addr % 4 = 0 → inDesk addr = true → s.dev.deskServed = true →
    deskHolds (addr % 0x1000000) = true → addr ∉ s.dev.poisonW →
    exec (.deskWindowRead addr .clean) s = .next { s with dev := s.dev.send (.readData 0 (s.dev.rdLe addr 4)) }) ∧
  (∀ (s : State) (addr : Nat) (bs : List (BitVec 8)), inDesk addr = true → s.dev.deskServed = true → bs ≠ [] →
    addr % 0x1000000 + bs.length ≤ offAcc 0 → s.dev.deskFree (spindleAt addr) = true →
    Answers (.deskWindowWrite addr bs) s fun e =>
      e.rdBytes addr bs.length = bs ∧ MemKept s.dev e addr bs.length ∧ e.regs = s.dev.regs) ∧
  (∀ (s : State) (addr : Nat) (bs : List (BitVec 8)), inDesk addr = true → s.dev.deskServed = true → bs ≠ [] →
    deskHolds (addr % 0x1000000) = true → s.dev.deskFree (spindleAt addr) = false →
    Answers (.deskWindowWrite addr bs) s fun e =>
      e.mem = s.dev.mem ∧ e.get SPX_WIN_STAT.WR_DROP 0 = 1
        ∧ e.rd SPX_WIN_DROP 0 = min (s.dev.rd SPX_WIN_DROP 0 + 1) 0xFFFFFFFF)

/-- MEM_WINDOW_WRITE (R316), INT_MASK_WRITE (R594) and MSI_X_VECTOR_UNMASK (R594). A lawful window written by the physical
function for an EMPTY Room is stored, a base once its two words have been written (R10); any other write of a window
register changes no window and sets WIN_EV, for the physical function and for a virtual function's own Room alike, and a
virtual function's write for another Room does nothing (R585). A mask write of a function that reaches the set stores the
mask and, where it unmasks a summary bit that is 1, sends one message of the view's vector, held while the vector is
masked; any other changes nothing. An unmasked vector is open from then on, and the message held for it leaves unless the
function is masked. -/
def Obligations.HostMasks : Prop :=
  (∀ (s : State) (r val : Nat) (g : RegDesc), r < 16 → g ∈ [MEM_FT_SIZE, MEM_CT_SIZE, MEM_FT_BASE_HI, MEM_CT_BASE_HI] →
    s.dev.windowServed 0 (g.addr r) = true → (g.half = .high → ∀ w, (s.fnSt 0).held ≠ some (g.addr r - 4, w)) →
    s.dev.roomState r = stEmpty → (s.dev.storeReg g r (val % 2 ^ 32)).windowOk r = true →
    Answers (.memWindowWrite 0 (g.addr r) val) s fun e => e = s.dev.storeReg g r (val % 2 ^ 32)) ∧
  (∀ (s : State) (r val : Nat) (g : RegDesc), r < 16 → g ∈ [MEM_FT_SIZE, MEM_CT_SIZE, MEM_FT_BASE_HI, MEM_CT_BASE_HI] →
    s.dev.windowServed 0 (g.addr r) = true → (g.half = .high → ∀ w, (s.fnSt 0).held ≠ some (g.addr r - 4, w)) →
    (s.dev.roomState r ≠ stEmpty ∨ (s.dev.storeReg g r (val % 2 ^ 32)).windowOk r = false) →
    Answers (.memWindowWrite 0 (g.addr r) val) s fun e =>
      e.get MEM_ROOM_STAT.WIN_EV r = 1 ∧ e.ftWin r = s.dev.ftWin r ∧ e.ctWin r = s.dev.ctWin r) ∧
  (∀ (s : State) (r val : Nat) (lo hi : RegDesc), r < 16 →
    (lo, hi) ∈ [(MEM_FT_BASE_LO, MEM_FT_BASE_HI), (MEM_CT_BASE_LO, MEM_CT_BASE_HI)] → s.dev.windowServed 0 (lo.addr r) = true →
    ∃ t, exec (.memWindowWrite 0 (lo.addr r) val) s = .next t ∧ t.dev = s.dev
      ∧ (t.fnSt 0).held = some (lo.addr r, val % 2 ^ 32)) ∧
  (∀ (s : State) (r val w : Nat) (lo hi : RegDesc), r < 16 →
    (lo, hi) ∈ [(MEM_FT_BASE_LO, MEM_FT_BASE_HI), (MEM_CT_BASE_LO, MEM_CT_BASE_HI)] → s.dev.windowServed 0 (hi.addr r) = true →
    (s.fnSt 0).held = some (lo.addr r, w) →
    Answers (.memWindowWrite 0 (hi.addr r) val) s fun e =>
      if s.dev.roomState r = stEmpty ∧ ((s.dev.storeReg lo r w).storeReg hi r (val % 2 ^ 32)).windowOk r = true
      then e = (s.dev.storeReg lo r w).storeReg hi r (val % 2 ^ 32)
      else e.get MEM_ROOM_STAT.WIN_EV r = 1 ∧ e.ftWin r = s.dev.ftWin r ∧ e.ctWin r = s.dev.ctWin r) ∧
  (∀ (s : State) (fn r val : Nat) (g : RegDesc), r < 16 → fn ≠ 0 →
    g ∈ [MEM_FT_SIZE, MEM_CT_SIZE, MEM_FT_BASE_HI, MEM_CT_BASE_HI] →
    s.dev.windowServed fn (g.addr r) = true →
    Answers (.memWindowWrite fn (g.addr r) val) s fun e =>
      if fn = r + 1 then e.get MEM_ROOM_STAT.WIN_EV r = 1 ∧ e.ftWin r = s.dev.ftWin r ∧ e.ctWin r = s.dev.ctWin r
      else e = s.dev) ∧
  (∀ (s : State) (fn off val : Nat), windowOff off = false → exec (.memWindowWrite fn off val) s = .next s) ∧
  (∀ (s : State) (set val : Nat), set ≤ 16 → s.dev.windowServed 0 (INT_MASK.addr set) = true →
    Answers (.intMaskWrite 0 set false val) s fun e =>
      e.rd INT_MASK set = val % 2 ^ 32 ∧ RegsKept s.dev e [INT_MASK.addr set] ∧ e.mem = s.dev.mem
        ∧ (s.dev.rd INT_MASK set &&& (0xFFFFFFFF ^^^ (val % 2 ^ 32)) &&& s.dev.rd INT_STATUS set = 0 →
            e.out = s.dev.out ∧ e.irq = s.dev.irq)
        ∧ (s.dev.rd INT_MASK set &&& (0xFFFFFFFF ^^^ (val % 2 ^ 32)) &&& s.dev.rd INT_STATUS set ≠ 0 →
            if s.dev.irq.openFns.contains 0 && s.dev.irq.openVecs.contains set then e.out = .msix 0 set :: s.dev.out
            else set ∈ e.irq.held)) ∧
  (∀ (s : State) (fn set val : Nat), 0 < set → set ≤ 16 → (fn = 0 ∨ fn = set) →
    s.dev.windowServed fn (INT_VMASK.addr (set - 1)) = true →
    Answers (.intMaskWrite fn set true val) s fun e =>
      e.rd INT_VMASK (set - 1) = val % 2 ^ 32 ∧ RegsKept s.dev e [INT_VMASK.addr (set - 1)] ∧ e.mem = s.dev.mem
        ∧ (s.dev.rd INT_VMASK (set - 1) &&& (0xFFFFFFFF ^^^ (val % 2 ^ 32)) &&& s.dev.rd INT_VSTATUS (set - 1) = 0 →
            e.out = s.dev.out ∧ e.irq = s.dev.irq)
        ∧ (s.dev.rd INT_VMASK (set - 1) &&& (0xFFFFFFFF ^^^ (val % 2 ^ 32)) &&& s.dev.rd INT_VSTATUS (set - 1) ≠ 0 →
            if s.dev.irq.openFns.contains set && s.dev.irq.openVecs.contains (2048 * set) then e.out = .msix set 0 :: s.dev.out
            else 2048 * set ∈ e.irq.held)) ∧
  (∀ (s : State) (fn set val : Nat), set ≤ 16 → fn ≠ 0 →
    Answers (.intMaskWrite fn set false val) s fun e => e.regs = s.dev.regs ∧ e.irq = s.dev.irq ∧ e.mem = s.dev.mem) ∧
  (∀ (s : State) (fn set val : Nat), 0 < set → set ≤ 16 → fn ≠ 0 → fn ≠ set →
    Answers (.intMaskWrite fn set true val) s fun e => e.regs = s.dev.regs ∧ e.irq = s.dev.irq ∧ e.mem = s.dev.mem) ∧
  (∀ (s : State) (fn set val : Nat) (view : Bool), (17 ≤ set ∨ (view = true ∧ set = 0)) →
    exec (.intMaskWrite fn set view val) s = .next s) ∧
  (∀ (s : State) (fn vec : Nat), s.dev.boot.stage = .ready → s.dev.window fn = true → vec < msixSize fn →
    Answers (.msiXVectorUnmask fn vec) s fun e =>
      (∀ v, v ∈ e.irq.openVecs ↔ v = 2048 * fn + vec ∨ v ∈ s.dev.irq.openVecs) ∧ e.irq.openFns = s.dev.irq.openFns
        ∧ e.regs = s.dev.regs ∧ e.mem = s.dev.mem
        ∧ (fn ∉ s.dev.irq.openFns → e.irq.held = s.dev.irq.held ∧ e.out = s.dev.out)
        ∧ (fn ∈ s.dev.irq.openFns → 2048 * fn + vec ∈ s.dev.irq.held →
            2048 * fn + vec ∉ e.irq.held ∧ OutEv.msix fn vec ∈ e.out)) ∧
  ∀ (s : State) (fn vec : Nat), (s.dev.boot.stage ≠ .ready ∨ s.dev.window fn = false ∨ msixSize fn ≤ vec) →
    exec (.msiXVectorUnmask fn vec) s = .next s

/-! ## Yarns and the Note path -/

/-- YARN_WORD_ARRIVE (R52, R61) and YARN_CREDIT_RETURN (R42, R53). The oldest word in flight to an input port enters the port's
receive buffer behind the words it holds, and a tile-end marker is counted; each of its 32-bit words whose single-bit error
the check corrects is counted, each with a double-bit error enters poisoned, and one of those stops the receiving Spindle's
command with 0x0B03. The oldest word of a buffer leaves for the Desk, where its 64 bytes are written at the place that the
model leaves open (log 31) and its poisoned words stay poisoned, one credit returns, and the errors met in the buffer are
those of Spindle storage. With nothing in flight and nothing in the buffer nothing happens. -/
def Obligations.YarnWords : Prop :=
  (∀ (s : State) (i port : Nat) (ce : List Nat) (w : YarnWord) (rest : List YarnWord), i < 1024 → port < 4 →
    s.dev.yWire (4 * i + port) = w :: rest →
    Answers (.yarnWordArrive i port ce []) s fun e =>
      e.yWire (4 * i + port) = rest
        ∧ e.yBuf (4 * i + port) = s.dev.yBuf (4 * i + port) ++ [{ w with bad := wordsIn w.bad }]
        ∧ e.yMarks (4 * i + port) = s.dev.yMarks (4 * i + port) + (if w.marker = 2 then 1 else 0)
        ∧ (∀ k, k ≠ 4 * i + port → e.yBuf k = s.dev.yBuf k ∧ e.yWire k = s.dev.yWire k)
        ∧ e.rd SPX_LINK_CE i = min (s.dev.rd SPX_LINK_CE i + (wordsIn ce).length) 0xFFFFFFFF
        ∧ RegsKept s.dev e [SPX_LINK_CE.addr i] ∧ e.mem = s.dev.mem) ∧
  (∀ (s : State) (i port : Nat) (ce ue : List Nat) (w : YarnWord) (rest : List YarnWord), i < 1024 → port < 4 →
    s.dev.yWire (4 * i + port) = w :: rest → wordsIn ue ≠ [] →
    ∃ d : Dev, exec (.yarnWordArrive i port ce ue) s
        = .next { s with dev := d.spindleFault i 4 0x0B03 (s.dev.yarnFrom i port) 0 }
      ∧ d.yWire (4 * i + port) = rest
      ∧ d.yBuf (4 * i + port) = s.dev.yBuf (4 * i + port) ++ [{ w with bad := wordsIn (w.bad ++ wordsIn ue) }]
      ∧ d.yMarks (4 * i + port) = s.dev.yMarks (4 * i + port) + (if w.marker = 2 then 1 else 0)
      ∧ (∀ k, k ≠ 4 * i + port → d.yBuf k = s.dev.yBuf k ∧ d.yWire k = s.dev.yWire k)
      ∧ d.rd SPX_LINK_CE i
          = min (s.dev.rd SPX_LINK_CE i + ((wordsIn ce).filter fun n => !(wordsIn ue).contains n).length) 0xFFFFFFFF
      ∧ RegsKept s.dev d [SPX_LINK_CE.addr i] ∧ d.mem = s.dev.mem) ∧
  (∀ (s : State) (i port : Nat) (w : YarnWord) (rest : List YarnWord), i < 1024 → port < 4 →
    s.dev.yBuf (4 * i + port) = w :: rest →
    Answers (.yarnCreditReturn i port [] []) s fun e =>
      ∃ a, a = deskBase i + s.dev.yarnAddr i port (tget (fun _ => 0) s.dev.net.placed (4 * i + port)) ∧
        e.yBuf (4 * i + port) = rest ∧ e.rdLe a 64 = w.data % 2 ^ 512 ∧ MemKept s.dev e a 64
        ∧ e.yCredit (4 * i + port) = min 256 (s.dev.yCredit (4 * i + port) + 1)
        ∧ e.out = .yarnCredit i port :: s.dev.out ∧ e.regs = s.dev.regs) ∧
  (∀ (s : State) (i port : Nat) (ce ue : List Nat) (w : YarnWord) (rest : List YarnWord), i < 1024 → port < 4 →
    s.dev.yBuf (4 * i + port) = w :: rest →
    ∃ (d : Dev) (a : Nat), exec (.yarnCreditReturn i port ce ue) s
        = .next { s with dev := d.receiveError i port (wordsIn ce) (wordsIn ue) }
      ∧ a = deskBase i + s.dev.yarnAddr i port (tget (fun _ => 0) s.dev.net.placed (4 * i + port))
      ∧ d.yBuf (4 * i + port) = rest ∧ d.rdLe a 64 = w.data % 2 ^ 512 ∧ MemKept s.dev d a 64
      ∧ (∀ j, j < 16 → (a + 4 * j ∈ d.poisonW ↔ j ∈ w.bad ∨ j ∈ ue))
      ∧ d.yCredit (4 * i + port) = min 256 (s.dev.yCredit (4 * i + port) + 1)
      ∧ d.out = .yarnCredit i port :: s.dev.out ∧ d.regs = s.dev.regs) ∧
  ∀ (s : State) (i port : Nat) (ce ue : List Nat), i < 1024 → port < 4 →
    (s.dev.yWire (4 * i + port) = [] → exec (.yarnWordArrive i port ce ue) s = .next s)
      ∧ (s.dev.yBuf (4 * i + port) = [] → exec (.yarnCreditReturn i port ce ue) s = .next s)

/-- NOTE_INJECT (R64, R65, R67, R70): a request that keeps the address rules leaves with the lowest free tag, its
destination translated to a physical endpoint, its Room and the level of the Room's command in it (of no Room or no command
the model's choice, log 178, 179), and waits for its answer; nothing else changes. -/
def Obligations.NoteInject : Prop :=
  ∀ (s : State) (i tag : Nat) (p : NotePacket), i < 1024 → s.dev.noteTag i = some tag →
    (p.fence = true → s.dev.notesOf i = []) → p.typ ≤ 3 →
    ({ p with dst := s.dev.noteDst p.dst }).formatOk = true →
    Answers (.noteInject i p) s fun e =>
      (∃ q, e.net.flight = s.dev.net.flight ++ [q] ∧ q.typ = p.typ ∧ q.src = i ∧ q.dst = s.dev.noteDst p.dst ∧ q.tag = tag
        ∧ q.addr = p.addr ∧ q.payload = p.payload ∧ q.room = (s.dev.spindleRoom i).getD 0 ∧ q.prio = s.dev.notePrio i)
      ∧ (∃ n, e.net.notes = s.dev.net.notes ++ [n] ∧ n.src = i ∧ n.tag = tag ∧ n.time = s.dev.now)
      ∧ e.regs = s.dev.regs ∧ e.mem = s.dev.mem

/-- WRITE, READ and ATOMIC at a Spindle (R66, R68, R157): a request that passes every check of the endpoint is performed
and answered with its tag; a WRITE stores its payload at its address and changes no other byte, a READ returns the bytes it
names, an ATOMIC stores what Table 04-9 gives and returns the old value. A request that fails a check leaves memory alone
and is answered with NACK and the lowest reason. -/
def Obligations.NoteRequests : Prop :=
  (∀ (s : State) (k : Nat) (bad : Bool) (p : NotePacket), s.dev.arrives k ntWrite = some p → p.dst < 0x400 →
    s.dev.nackReason p bad = 0 →
    Answers (.noteWrite k bad) s fun e =>
      e.rdBytes (deskBase p.dst + p.addr) p.payload.length = p.payload
        ∧ MemKept s.dev e (deskBase p.dst + p.addr) p.payload.length ∧ e.regs = s.dev.regs
        ∧ ∃ a, a.typ = ntAck ∧ a.tag = p.tag ∧ a.dst = p.src ∧
            e.net.flight = s.dev.net.flight.take k ++ s.dev.net.flight.drop (k + 1) ++ [a]) ∧
  (∀ (s : State) (k : Nat) (bad : Bool) (p : NotePacket), s.dev.arrives k ntRead = some p → p.dst < 0x400 →
    s.dev.nackReason p bad = 0 →
    Answers (.noteRead k bad) s fun e =>
      e.mem = s.dev.mem ∧ e.regs = s.dev.regs
        ∧ ∃ a, a.typ = ntReadResp ∧ a.tag = p.tag ∧ a.dst = p.src
            ∧ a.payload = s.dev.rdBytes (deskBase p.dst + p.addr) (4 * (p.len + 1))
            ∧ e.net.flight = s.dev.net.flight.take k ++ s.dev.net.flight.drop (k + 1) ++ [a]) ∧
  (∀ (s : State) (k : Nat) (bad : Bool) (p : NotePacket), s.dev.arrives k ntAtomic = some p → p.dst < 0x400 →
    s.dev.nackReason p bad = 0 →
    Answers (.noteAtomic k bad) s fun e =>
      ∃ n old, n = atomicBytes p.op ∧ old = s.dev.rdLe (deskBase p.dst + p.addr) n
        ∧ e.rdLe (deskBase p.dst + p.addr) n = atomicNew p.op old (ofLe p.payload) % 256 ^ n
        ∧ MemKept s.dev e (deskBase p.dst + p.addr) n ∧ e.regs = s.dev.regs
        ∧ ∃ a, a.typ = ntAtomicResp ∧ a.tag = p.tag ∧ a.payload = toLe n old
            ∧ e.net.flight = s.dev.net.flight.take k ++ s.dev.net.flight.drop (k + 1) ++ [a]) ∧
  (∀ (s : State) (k : Nat) (bad : Bool) (p : NotePacket), s.dev.arrives k ntWrite = some p → p.dst < 0x400 →
    s.dev.nackReason p bad ≠ 0 → s.dev.nackReason p bad ≠ 4 →
    Answers (.noteWrite k bad) s fun e =>
      e.mem = s.dev.mem ∧ e.regs = s.dev.regs
        ∧ ∃ a, a.typ = ntNack ∧ a.tag = p.tag ∧ a.op = s.dev.nackReason p bad
            ∧ e.net.flight = s.dev.net.flight.take k ++ s.dev.net.flight.drop (k + 1) ++ [a])

/-- ACK, READ_RESP and ATOMIC_RESP (R70): the response of a request that NSIG or code sent frees its tag and changes nothing
else; a response that answers no request is dropped and counted. NACK and NOTE_TIMEOUT (R70, R365): the tag is free, and
the request ends with 0x0340 plus the reason, or with 0x0331 once it has been unanswered for 10 µs. SIGNAL
(R132, R153): a SIGNAL by the Room that holds a semaphore frees it where nothing waits for it, and one that names the running
command by queue and ring index completes it with its DETAIL once its Reels' writes are done; both are acknowledged. -/
def Obligations.NoteResponses : Prop :=
  (∀ (s : State) (k : Nat) (p : NotePacket), s.dev.arrives k ntSignal = some p → p.dst = 0x410 → p.addr < 2 ^ 16 →
    p.addr / 4096 = 1 → p.op = 0 → p.len = 0 → p.payload = toLe 4 0 → s.dev.get SEM_STATE.HELD (p.addr % 4096) = 1 →
    s.dev.get SEM_STATE.ROOM (p.addr % 4096) = p.room → s.dev.waiters (p.addr % 4096) = [] →
    Answers (.noteSignal k false) s fun e =>
      e.get SEM_STATE.HELD (p.addr % 4096) = 0 ∧ e.rd SEM_OWNER (p.addr % 4096) = 0 ∧ e.mem = s.dev.mem
        ∧ RegsKept s.dev e [SEM_STATE.addr (p.addr % 4096), SEM_OWNER.addr (p.addr % 4096)]
        ∧ ∃ a ∈ e.net.flight, a.typ = ntAck ∧ a.tag = p.tag ∧ a.dst = p.src) ∧
  (∀ (s : State) (k : Nat) (p : NotePacket) (c : Cmd), s.dev.arrives k ntSignal = some p → p.dst = 0x411 → p.addr < 2 ^ 30 →
    s.dev.running p.room = some c → p.addr % 2 ^ 14 = c.queue → p.addr / 2 ^ 14 = c.index → (s.dev.room p.room).ending = none →
    s.dev.get QUE_CTL.ROOM c.queue = p.room → p.op = 0 → p.len = 0 → p.payload.length = 4 →
    ∃ d : Dev, exec (.noteSignal k false) s = .next { s with dev := d.tryEnd p.room }
      ∧ (d.room p.room).ending = some (ofLe p.payload % 2 ^ 16) ∧ d.regs = s.dev.regs ∧ d.mem = s.dev.mem
      ∧ d.que.cmds = s.dev.que.cmds ∧ ∃ a ∈ d.net.flight, a.typ = ntAck ∧ a.tag = p.tag ∧ a.dst = p.src) ∧
  (∀ (s : State) (k : Nat) (p : NotePacket) (q : NoteReq) (c : Instr) (typ : Nat),
    (c, typ) ∈ [(Instr.noteAck k, ntAck), (Instr.readResp k, ntReadResp), (Instr.atomicResp k, ntAtomicResp)] →
    s.dev.arrives k typ = some p → s.dev.answered? p = some q → q.stream = none → q.stale = false →
    Answers c s fun e =>
      e.net.notes = s.dev.net.notes.filter (fun x => !(x.src == q.src && x.tag == q.tag))
        ∧ e.net.flight = s.dev.net.flight.take k ++ s.dev.net.flight.drop (k + 1) ∧ e.regs = s.dev.regs ∧ e.mem = s.dev.mem) ∧
  (∀ (s : State) (k : Nat) (p : NotePacket) (c : Instr) (typ : Nat),
    (c, typ) ∈ [(Instr.noteAck k, ntAck), (Instr.readResp k, ntReadResp), (Instr.atomicResp k, ntAtomicResp)] →
    s.dev.arrives k typ = some p → s.dev.answered? p = none →
    Answers c s fun e =>
      e.rd SPX_NOTE_DROP 0 = min (s.dev.rd SPX_NOTE_DROP 0 + 1) 0xFFFFFFFF ∧ RegsKept s.dev e [SPX_NOTE_DROP.addr 0]
        ∧ e.net.notes = s.dev.net.notes ∧ e.mem = s.dev.mem) ∧
  (∀ (s : State) (k : Nat) (p : NotePacket) (q : NoteReq), s.dev.arrives k ntNack = some p → s.dev.answered? p = some q →
    q.stale = false →
    exec (.noteNack k) s = .next { s with
      dev := ((s.dev.takeFlight k).dropNote q).noteFail q.src (0x0340 + p.op) q.stream q.unit q.addr }) ∧
  (∀ (s : State) (i tag : Nat) (q : NoteReq), i < 1024 →
    s.dev.net.notes.find? (fun x => x.src == i && x.tag == tag) = some q → q.time + 10000 ≤ s.dev.now → q.stale = false →
    ∃ d : Dev, exec (.noteTimeout i tag) s = .next { s with dev := d.noteFail i 0x0331 q.stream q.unit q.addr }
      ∧ (∀ x ∈ d.net.notes, ¬(x.src = i ∧ x.tag = tag)) ∧ d.regs = s.dev.regs ∧ d.mem = s.dev.mem)

/-! ## Rooms: the loader -/

/-- LOAD (R103 to R105). A request that passes step 1 makes the Room LOADING, with BUSY and GO, and its next step is step 2;
one that fails leaves the loader and the Room alone and shows its code with FAIL, in the function's own Room for a foreign
one: 0x0101 while an operation is in progress or a substitution waits. The address, the size and the key slots are
latched as they are then. GO with a reserved OP is refused with 0x0102, or 0x0101. -/
def Obligations.LoadRequest : Prop :=
  (∀ (s : State) (fn r : Nat), r < 16 → s.dev.windowServed fn CFG_LOAD.base = true → s.dev.loadReqCode fn r = 0 →
    Answers (.cfgLoad fn r) s fun e =>
      e.roomState r = stLoading ∧ e.get CFG_STATUS.BUSY r = 1 ∧ e.get CFG_LOAD.GO r = 1
        ∧ e.que.op = some ⟨.load, r, 2, false, 0⟩ ∧ e.mem = s.dev.mem
        ∧ (e.room r).imgAddr = s.dev.get64 CFG_IMG_ADDR_LO CFG_IMG_ADDR_HI r
        ∧ (e.room r).imgSize = s.dev.get CFG_IMG_SIZE.SIZE r * 4096 ∧ (e.room r).imgKeys = s.dev.rd CFG_KEY_STAT 0
        ∧ RegsKept s.dev e [CFG_LOAD.addr r, CFG_STATUS.addr r, ROOM_STATUS.addr r, MEM_REG_BAL.addr (2 * r),
            MEM_REG_BAL.addr (2 * r + 1)]) ∧
  (∀ (s : State) (fn r : Nat), r < 16 → fn ≤ 16 → s.dev.windowServed fn CFG_LOAD.base = true →
    s.dev.loadReqCode fn r ≠ 0 →
    Answers (.cfgLoad fn r) s fun e =>
      e.get CFG_STATUS.CODE (reportRoom fn r) = s.dev.loadReqCode fn r ∧ e.get CFG_STATUS.FAIL (reportRoom fn r) = 1
        ∧ (s.dev.que.op ≠ none ∨ s.dev.flt.queue ≠ [] → e.get CFG_STATUS.CODE (reportRoom fn r) = 0x0101)
        ∧ e.que = s.dev.que ∧ e.mem = s.dev.mem
        ∧ RegsKept s.dev e (CFG_STATUS.addr (reportRoom fn r) :: irqRegs (1 + reportRoom fn r))) ∧
  (∀ (s : State) (fn r op : Nat), r < 16 → fn ≤ 16 → 4 ≤ op → s.dev.windowServed fn CFG_LOAD.base = true →
    Answers (.cfgLoadReservedOp fn r op) s fun e =>
      e.get CFG_STATUS.CODE (reportRoom fn r) = (if s.dev.que.op = none ∧ s.dev.flt.queue = [] then 0x0102 else 0x0101)
        ∧ e.get CFG_STATUS.FAIL (reportRoom fn r) = 1 ∧ e.que = s.dev.que ∧ e.mem = s.dev.mem
        ∧ RegsKept s.dev e (CFG_LOAD.addr r :: CFG_STATUS.addr (reportRoom fn r) :: irqRegs (1 + reportRoom fn r)))

/-- LOAD_STEP_DONE (R105). While reads of the step have still to issue, as many issue as the Room's balance allows, sector by
sector, each charged, and the step goes on (R119, R322), as it does while a channel that holds the image retrains (R332). A step
with all its reads issued whose check passes goes on to the next (shown for steps 3 and 4, which change nothing else but
what step 5 has to read); a step whose check fails ends the load: the Room is EMPTY and holds nothing, both planes of its
Spindles read 0, and its code is shown with FAIL; step 7 writes the planes, shows INIT_VARIANT as active, and goes on to
step 8, after which the Room is LOADED, with CODE 0 and DONE. CANCEL and CANCEL_POINT (R106, R121): a CANCEL of the load in
progress marks it, unless it has reached step 8, and changes nothing else but CFG_LOAD.OP; at its next point the load ends
with 0x0161 and everything claimed is released. A CANCEL of anything else is refused with 0x0102. -/
def Obligations.LoadSteps : Prop :=
  (∀ (s : State) (o : LoadOp) (n : Nat), s.dev.que.op = some o → o.kind = .load → o.cancel = false → o.room < 16 →
    n = 64 * (((s.dev.bal (2 * o.room)).toNat + 639) / 640) → n < (s.dev.room o.room).reads →
    Answers .loadStepDone s fun e =>
      e.room o.room = { s.dev.room o.room with reads := (s.dev.room o.room).reads - n }
        ∧ e.bal (2 * o.room) = s.dev.bal (2 * o.room) - 10 * (n : Int) ∧ e.bal (2 * o.room) ≤ 0
        ∧ e.get MEM_REG_BUDGET.HELD (2 * o.room) = 1 ∧ e.que = { s.dev.que with rooms := e.que.rooms }
        ∧ (∀ q, q ≠ o.room → e.room q = s.dev.room q) ∧ e.mem = s.dev.mem
        ∧ RegsKept s.dev e [MEM_REG_BUDGET.addr (2 * o.room), MEM_REG_BAL.addr (2 * o.room)]) ∧
  (∀ (s : State) (o : LoadOp) (c : Nat), s.dev.que.op = some o → o.kind = .load → o.cancel = false → o.room < 16 →
    s.dev.readsGoOn o.room = false →
    ((o.step = 3 ∧ c = s.dev.step3Code o.room (s.dev.room o.room).imgAddr (s.dev.room o.room).imgSize) ∨
      (o.step = 4 ∧ c = s.dev.step4Code (s.dev.room o.room).imgAddr (s.dev.room o.room).imgSize)) →
    Answers .loadStepDone s fun e =>
      if c = 0 then
        let d := if o.step = 4 then s.dev.toRead o.room (step5Reads (s.dev.room o.room).imgSize) else s.dev
        e = { d with que := { d.que with op := some { o with step := o.step + 1 } } }
      else e.roomState o.room = stEmpty ∧ e.room o.room = RoomSt.init ∧ e.que.op = none
        ∧ e.get CFG_STATUS.CODE o.room = c ∧ e.get CFG_STATUS.FAIL o.room = 1 ∧ e.get CFG_STATUS.BUSY o.room = 0
        ∧ ∀ i ∈ s.dev.roomSpindles o.room, ∀ k < planeBytes,
            e.rdByte (deskBase i + offActive + k) = 0 ∧ e.rdByte (deskBase i + offStandby + k) = 0) ∧
  (∀ (s : State) (o : LoadOp), s.dev.que.op = some o → o.kind = .load → o.cancel = false → o.room < 16 → o.step = 8 →
    s.dev.readsGoOn o.room = false →
    Answers .loadStepDone s fun e =>
      e.roomState o.room = stLoaded ∧ e.que.op = none ∧ e.get CFG_STATUS.CODE o.room = 0
        ∧ e.get CFG_STATUS.DONE o.room = 1 ∧ e.get CFG_STATUS.BUSY o.room = 0) ∧
  (∀ (s : State) (o : LoadOp), s.dev.que.op = some o → o.kind = .load → o.cancel = false → o.room < 16 → o.step = 7 →
    s.dev.readsGoOn o.room = false → (s.dev.room o.room).initVariant < 8 →
    Answers .loadStepDone s fun e =>
      e.que.op = some { o with step := 8 } ∧ e.get CFG_STATUS.ACTIVE_VAR o.room = (s.dev.room o.room).initVariant) ∧
  (∀ (s : State) (o : LoadOp), s.dev.que.op = some o → o.kind = .load → o.cancel = false → (s.dev.room o.room).reads = 0 →
    s.dev.readsGoOn o.room = true → exec .loadStepDone s = .next s) ∧
  (∀ (s : State) (fn r : Nat) (o : LoadOp), r < 16 → s.dev.windowServed fn CFG_LOAD.base = true → mayAct fn r = true →
    s.dev.que.op = some o → o.kind = .load → o.room = r →
    Answers (.cfgCancel fn r) s fun e =>
      e.que = (if o.step = 8 then s.dev.que else { s.dev.que with op := some { o with cancel := true } })
        ∧ e.get CFG_LOAD.OP r = 3 ∧ e.mem = s.dev.mem
        ∧ RegsKept s.dev e [CFG_LOAD.addr r]) ∧
  (∀ (s : State) (fn r : Nat), r < 16 → s.dev.windowServed fn CFG_LOAD.base = true → mayAct fn r = true →
    (∀ o, s.dev.que.op = some o → o.kind ≠ .load ∨ o.room ≠ r) →
    Answers (.cfgCancel fn r) s fun e =>
      e.get CFG_STATUS.CODE r = 0x0102 ∧ e.get CFG_STATUS.FAIL r = 1 ∧ e.que = s.dev.que ∧ e.mem = s.dev.mem) ∧
  (∀ (s : State) (o : LoadOp), s.dev.que.op = some o → o.kind = .load → o.cancel = true → o.room < 16 →
    Answers .cancelPoint s fun e =>
      e.roomState o.room = stEmpty ∧ e.room o.room = RoomSt.init ∧ e.que.op = none
        ∧ e.get CFG_STATUS.CODE o.room = 0x0161 ∧ e.get CFG_STATUS.FAIL o.room = 1
        ∧ ∀ i ∈ s.dev.roomSpindles o.room, ∀ k < planeBytes, e.rdByte (deskBase i + offActive + k) = 0)

/-- UNLOAD_DRAIN, UNLOAD_ABORT and UNLOAD_PROCEED (R110, R111). An accepted drain with a Lesson to finish waits in step 0; an
accepted abort asks every Spindle to stop and waits in step 1; both show BUSY. Once the Room's work has stopped, the Room is
EMPTY, holds nothing, the planes of the Spindles bound to it read 0, and DONE is set; it waits for a switch in progress and
for a plane switch that has begun (R121). -/
def Obligations.Unloading : Prop :=
  (∀ (s : State) (fn r : Nat), r < 16 → s.dev.windowServed fn CFG_LOAD.base = true → s.dev.unloadReqCode fn r = 0 →
    s.dev.roomState r ≠ stHeld → (s.dev.lesson r).isSome = true →
    Answers (.unloadDrain fn r) s fun e =>
      e.que.op = some ⟨.unload, r, 0, false, 0⟩ ∧ e.get CFG_STATUS.BUSY r = 1 ∧ e.get CFG_LOAD.OP r = 1
        ∧ (e.room r).preload = none ∧ (e.room r).unloadReq = (s.dev.room r).unloadReq ∧ e.mem = s.dev.mem
        ∧ RegsKept s.dev e [CFG_LOAD.addr r, CFG_STATUS.addr r]) ∧
  (∀ (s : State) (fn r : Nat), r < 16 → s.dev.windowServed fn CFG_LOAD.base = true → s.dev.unloadReqCode fn r = 0 →
    Answers (.unloadAbort fn r) s fun e =>
      e.que.op = some ⟨.unload, r, 1, false, 0⟩ ∧ e.get CFG_STATUS.BUSY r = 1 ∧ e.get CFG_LOAD.OP r = 2
        ∧ (e.room r).unloadReq = true ∧ (e.room r).switch = none ∧ (e.room r).preload = none ∧ e.mem = s.dev.mem
        ∧ (∀ i ∈ s.dev.roomSpindles r, (e.sp i).stopReq = .checkpoint)
        ∧ RegsKept s.dev e [CFG_LOAD.addr r, CFG_STATUS.addr r, ROOM_STATUS.addr r]) ∧
  (∀ (s : State) (fn r : Nat), r < 16 → fn ≤ 16 → s.dev.windowServed fn CFG_LOAD.base = true →
    s.dev.unloadReqCode fn r ≠ 0 → ∀ c ∈ [Instr.unloadDrain fn r, Instr.unloadAbort fn r],
    Answers c s fun e =>
      e.get CFG_STATUS.CODE (reportRoom fn r) = s.dev.unloadReqCode fn r ∧ e.get CFG_STATUS.FAIL (reportRoom fn r) = 1
        ∧ e.que = s.dev.que ∧ e.mem = s.dev.mem) ∧
  (∀ (s : State) (r : Nat), r < 16 → s.dev.que.op = some ⟨.unload, r, 1, false, 0⟩ → (s.dev.room r).switch = none →
    s.dev.planeGoing r = false → (s.dev.allStopped r = true ∨ s.dev.idle r = true) →
    Answers (.unloadProceed r) s fun e =>
      e.roomState r = stEmpty ∧ e.room r = RoomSt.init ∧ e.que.op = none ∧ e.get CFG_STATUS.CODE r = 0
        ∧ e.get CFG_STATUS.DONE r = 1 ∧ e.get CFG_STATUS.BUSY r = 0
        ∧ ∀ i ∈ s.dev.boundTo r, ∀ k < planeBytes,
            e.rdByte (deskBase i + offActive + k) = 0 ∧ e.rdByte (deskBase i + offStandby + k) = 0) ∧
  ∀ (s : State) (r : Nat), ((s.dev.room r).switch ≠ none ∨ s.dev.planeGoing r = true) → exec (.unloadProceed r) s = .next s

/-! ## Rooms: planes, holds, Lessons and switches -/

/-- PLANE_SWITCH (R113, R116). Once the Room's work has stopped, its Yarns are empty and the variant it waits for stands by,
every byte of the two planes of its Spindles changes places, the switch-box banks exchange with them, ACTIVE_VAR and
STANDBY_VAR exchange, the switch is counted, and nothing waits for it any more; a drain of more than 1 µs sets LATE and is
counted, once for a boundary. What a boundary that fell meanwhile asks for follows. While the Yarns are not empty nothing
switches. -/
def Obligations.PlaneSwitch : Prop :=
  (∀ (s : State) (r v : Nat) (slow : Bool), r < 16 → (s.dev.room r).switchTo = some v → (s.dev.room r).switch = none →
    s.dev.spindlesFree r = true → s.dev.yarnsEmpty r = true → s.dev.get CFG_STATUS.STANDBY_VALID r = 1 →
    s.dev.get CFG_STATUS.STANDBY_VAR r = v → s.dev.roomState r = stLoaded → s.dev.allStopped r = true →
    Memory.wf s.dev.mem = true → (s.dev.roomSpindles r).Nodup → (∀ i ∈ s.dev.roomSpindles r, i < 1024) →
    ∃ e : Dev, exec (.planeSwitch r slow) s = .next { s with dev := e.catchUp r }
      ∧ ((s.dev.room r).due = false → e.catchUp r = e)
      ∧ e.get CFG_STATUS.ACTIVE_VAR r = v ∧ e.get CFG_STATUS.STANDBY_VAR r = s.dev.get CFG_STATUS.ACTIVE_VAR r
      ∧ (e.room r).bankA = (s.dev.room r).bankS ∧ (e.room r).bankS = (s.dev.room r).bankA
      ∧ e.rd CFG_SWITCH_CNT r = min (s.dev.rd CFG_SWITCH_CNT r + 1) 0xFFFFFFFF ∧ (e.room r).switchTo = none
      ∧ (slow = true → (s.dev.room r).lateDone = false →
          e.get CFG_STATUS.LATE r = 1 ∧ e.rd CFG_LATE_CNT r = min (s.dev.rd CFG_LATE_CNT r + 1) 0xFFFFFFFF)
      ∧ (∀ i ∈ s.dev.roomSpindles r, ∀ k < planeBytes,
          e.rdByte (deskBase i + offActive + k) = s.dev.rdByte (deskBase i + offStandby + k)
            ∧ e.rdByte (deskBase i + offStandby + k) = s.dev.rdByte (deskBase i + offActive + k))
      ∧ ∀ a, a < deskBase 0 → e.rdByte a = s.dev.rdByte a) ∧
  ∀ (s : State) (r v : Nat) (slow : Bool), r < 16 → (s.dev.room r).switchTo = some v → s.dev.yarnsEmpty r = false →
    (s.dev.room r).switchFails = false → exec (.planeSwitch r slow) s = .next s

/-- PRELOAD_DONE and DRAIN_TIMEOUT (R115 to R117). A preload with reads still to issue goes on: as many issue as the balance
allows, each charged (R119, R322). One with all its reads issued whose checks pass stands by with STANDBY_VALID; one that fails is
remembered, and where a boundary waits for that variant the Room goes to HELD with cause 4 and its code, once a save in
progress has ended. A Yarn drain of 100 µs holds
the Room with cause 5 and 0x0150. -/
def Obligations.PreloadAndDrain : Prop :=
  (∀ (s : State) (r v n : Nat), r < 16 → (s.dev.room r).preload = some v →
    n = 64 * (((s.dev.bal (2 * r)).toNat + 639) / 640) → n < (s.dev.room r).reads →
    Answers (.preloadDone r) s fun e =>
      e.room r = { s.dev.room r with reads := (s.dev.room r).reads - n }
        ∧ e.bal (2 * r) = s.dev.bal (2 * r) - 10 * (n : Int) ∧ e.bal (2 * r) ≤ 0
        ∧ e.get MEM_REG_BUDGET.HELD (2 * r) = 1 ∧ e.mem = s.dev.mem
        ∧ RegsKept s.dev e [MEM_REG_BUDGET.addr (2 * r), MEM_REG_BAL.addr (2 * r)]) ∧
  (∀ (s : State) (r v : Nat), r < 16 → v < 8 → (s.dev.room r).preload = some v → s.dev.readsGoOn r = false →
    s.dev.preloadCode r v = 0 →
    (∀ i ∈ s.dev.roomSpindles r, i < 1024) →
    Answers (.preloadDone r) s fun e =>
      e.get CFG_STATUS.STANDBY_VAR r = v ∧ e.get CFG_STATUS.STANDBY_VALID r = 1 ∧ (e.room r).preload = none
        ∧ (e.room r).preloadFail = 0 ∧ e.roomState r = s.dev.roomState r) ∧
  (∀ (s : State) (r v : Nat), r < 16 → (s.dev.room r).preload = some v → s.dev.readsGoOn r = false →
    s.dev.preloadCode r v ≠ 0 →
    ((s.dev.room r).switchTo ≠ some v ∨ ∃ w, (s.dev.room r).switch = some w ∧ w.phase ≠ .restored) →
    exec (.preloadDone r) s = .next { s with
      dev := s.dev.setRoom r { s.dev.room r with preload := none, preloadFail := s.dev.preloadCode r v, failVar := v } }) ∧
  (∀ (s : State) (r v : Nat), r < 16 → (s.dev.room r).preload = some v → s.dev.readsGoOn r = false →
    s.dev.preloadCode r v ≠ 0 →
    (s.dev.room r).switchTo = some v → (∀ w, (s.dev.room r).switch = some w → w.phase = .restored) →
    Answers (.preloadDone r) s fun e =>
      e.roomState r = stHeld ∧ e.get ROOM_STATUS.HOLD_CAUSE r = 4 ∧ e.get CFG_STATUS.CODE r = s.dev.preloadCode r v
        ∧ e.get CFG_STATUS.FAIL r = 1 ∧ (e.room r).switchTo = none ∧ (e.room r).switch = none
        ∧ e.get ROOM_STATUS.SWITCHING r = 0 ∧ e.mem = s.dev.mem) ∧
  (∀ (s : State) (r : Nat), r < 16 → (s.dev.room r).switchTo.isSome = true → s.dev.yarnsEmpty r = false →
    Answers (.drainTimeout r) s fun e =>
      e.roomState r = stHeld ∧ e.get ROOM_STATUS.HOLD_CAUSE r = 5 ∧ e.get CFG_STATUS.CODE r = 0x0150
        ∧ e.get CFG_STATUS.FAIL r = 1 ∧ (e.room r).switchTo = none ∧ e.mem = s.dev.mem)

/-- ROOM_HOLD and ROOM_HOLD_RELEASE (R125). A hold of a LOADED Room in which nothing runs takes effect at once: HELD, cause
1, HELD_EV; in a Room that is not LOADED the bit alone is stored. A release of a Room held by cause 1 makes it LOADED, its
present Lesson due to be entered. -/
def Obligations.RoomHolds : Prop :=
  (∀ (s : State) (fn r : Nat), r < 16 → s.dev.windowServed fn ROOM_CTL.base = true → mayAct fn r = true →
    s.dev.roomState r = stLoaded → s.dev.spindlesFree r = true → (s.dev.room r).switch = none → (s.dev.room r).holdReq ≤ 1 →
    Answers (.roomHold fn r) s fun e =>
      e.roomState r = stHeld ∧ e.get ROOM_STATUS.HOLD_CAUSE r = 1 ∧ e.get ROOM_STATUS.HELD_EV r = 1
        ∧ e.get ROOM_CTL.HOLD r = 1 ∧ e.mem = s.dev.mem
        ∧ RegsKept s.dev e (ROOM_CTL.addr r :: ROOM_STATUS.addr r :: irqRegs (1 + r))) ∧
  (∀ (s : State) (fn r : Nat), r < 16 → s.dev.windowServed fn ROOM_CTL.base = true → mayAct fn r = true →
    s.dev.roomState r ≠ stLoaded →
    Answers (.roomHold fn r) s fun e =>
      e = s.dev.set ROOM_CTL.HOLD r 1 ∧ e.get ROOM_CTL.HOLD r = 1 ∧ RegsKept s.dev e [ROOM_CTL.addr r]) ∧
  (∀ (s : State) (fn r : Nat), r < 16 → s.dev.windowServed fn ROOM_CTL.base = true → mayAct fn r = true →
    s.dev.roomState r = stHeld → s.dev.get ROOM_STATUS.HOLD_CAUSE r = 1 →
    Answers (.roomHoldRelease fn r) s fun e =>
      e.roomState r = stLoaded ∧ e.get ROOM_STATUS.HOLD_CAUSE r = 0 ∧ e.get ROOM_CTL.HOLD r = 0 ∧ (e.room r).due = true
        ∧ e.mem = s.dev.mem ∧ RegsKept s.dev e [ROOM_CTL.addr r, ROOM_STATUS.addr r])

/-- LESSON_BOUNDARY (R137, R138). Afterwards the Room stands in the Lesson of its section that covers the present, and in
none outside them; an idle LOADED Room that enters a Lesson whose variant is active shows its kind and ceiling. -/
def Obligations.LessonBoundary : Prop :=
  (∀ (s : State) (r : Nat), r < 16 → Answers (.lessonBoundary r) s fun e => (e.room r).cur = s.dev.coverNow r) ∧
  (∀ (s : State) (r k : Nat) (l : Lesson), r < 16 → s.dev.coverNow r = some k → (s.dev.room r).cur = none →
    (s.dev.room r).lessons[k]? = some l → l.kind < 4 → l.ceiling < 4 → s.dev.roomState r = stLoaded →
    s.dev.idle r = true → (s.dev.room r).suspended = false → (s.dev.room r).switch = none → (s.dev.room r).unloadReq = false →
    (s.dev.room r).holdReq = 0 →
    (s.dev.room r).variantOf l = s.dev.get CFG_STATUS.ACTIVE_VAR r →
    Answers (.lessonBoundary r) s fun e =>
      e.get ROOM_STATUS.KIND r = l.kind ∧ e.get ROOM_STATUS.CEILING r = l.ceiling ∧ (e.room r).due = false
        ∧ e.mem = s.dev.mem ∧ RegsKept s.dev e [ROOM_STATUS.addr r])

/-- SWITCH_STOPPED, SAVE_DONE and RESTORE_DONE (R146, R148, R150). When every Spindle has stopped and the Yarns are empty, the
save begins; when it has ended, the outgoing command waits as saved in its slot and the Room runs none; when the restore has
ended, a command that had not started starts, with ROOM_SWITCH_NS at its value, and one whose record is poisoned ends with
0x0011. -/
def Obligations.SwitchSteps : Prop :=
  (∀ (s : State) (r : Nat) (w : Switch), r < 16 → (s.dev.room r).switch = some w → w.phase = .stopping →
    s.dev.allStopped r = true → s.dev.yarnsEmpty r = true → (s.dev.room r).trap = 0 →
    Answers (.switchStopped r) s fun e =>
      (∃ w', (e.room r).switch = some w' ∧ w'.phase = .saving ∧ w'.slot = (s.dev.freeSlot r).getD 3
        ∧ w'.byPhase = w.byPhase) ∧ e.mem = s.dev.mem ∧ e.que.cmds = s.dev.que.cmds) ∧
  (∀ (s : State) (r : Nat) (w : Switch) (c : Cmd), r < 16 → (s.dev.room r).switch = some w → w.phase = .saving →
    (∀ i ∈ s.dev.roomSpindles r, s.dev.get STR_STAT.QUIESCING i = 0) → w.outgoing = some c.id →
    s.dev.cmd? c.id = some c → (∀ i ∈ s.dev.roomSpindles r, i < 1024) →
    Answers (.saveDone r) s fun e =>
      (∃ x ∈ e.que.cmds, x.id = c.id ∧ x.phase = .saved ∧ x.slot = w.slot ∧ x.byPhase = w.byPhase)
        ∧ e.get ROOM_RUN.VALID r = 0) ∧
  (∀ (s : State) (r : Nat) (w : Switch) (c : Cmd), r < 16 → (s.dev.room r).switch = some w → w.phase = .restoring →
    w.incoming = some c.id → s.dev.cmd? c.id = some c → c.phase = .waiting → c.room = r →
    (s.dev.room r).switchTo = none → (s.dev.room r).unloadReq = false → (s.dev.room r).holdReq = 0 →
    (s.dev.room r).due = false → switchNs w.sSave w.sRestore < 2 ^ 32 → (∀ i ∈ s.dev.roomSpindles r, i < 1024) →
    Answers (.restoreDone r) s fun e =>
      (∃ x ∈ e.que.cmds, x.id = c.id ∧ x.phase = .started) ∧ e.rd ROOM_SWITCH_NS r = switchNs w.sSave w.sRestore
        ∧ e.get ROOM_RUN.VALID r = 1) ∧
  (∀ (s : State) (r : Nat) (w : Switch) (c : Cmd), r < 16 → (s.dev.room r).switch = some w → w.phase = .restoring →
    w.incoming = some c.id → s.dev.cmd? c.id = some c → c.phase = .saved → c.slot < 3 →
    s.dev.slotPoisoned r c.slot = true →
    Answers (.restoreDone r) s fun e => Completed s.dev e c 0x0011)

/-! ## Queues, commands and semaphores -/

/-- DOORBELL and the clearing of ERR (R127, R128). A lawful doorbell write to an enabled, bound queue moves its tail; a tail
outside the ring sets ERR with CODE 3 and moves nothing; a write to a queue that is not enabled or not bound sets DB_IGN.
ERR written as 1 clears it. -/
def Obligations.Doorbell : Prop :=
  (∀ (s : State) (fn q tail : Nat), q < 16384 → tail < 65536 → s.dev.windowServed fn QUE_TAIL.base = true →
    s.dev.get QUE_CTL.BOUND q = 1 → s.dev.reachesQueue fn q = true → s.dev.get QUE_CTL.ENABLE q = 1 →
    tail < 2 ^ s.dev.get QUE_SIZE.LOG2 q →
    Answers (.doorbell fn q 0 tail) s fun e =>
      e.get QUE_TAIL.TAIL q = tail ∧ RegsKept s.dev e [QUE_TAIL.addr q] ∧ e.mem = s.dev.mem ∧ e.que = s.dev.que) ∧
  (∀ (s : State) (fn q tail : Nat), q < 16384 → s.dev.windowServed fn QUE_TAIL.base = true →
    s.dev.get QUE_CTL.BOUND q = 1 → s.dev.reachesQueue fn q = true → s.dev.get QUE_CTL.ENABLE q = 1 →
    2 ^ s.dev.get QUE_SIZE.LOG2 q ≤ tail →
    Answers (.doorbell fn q 0 tail) s fun e =>
      e.get QUE_STAT.ERR q = 1 ∧ e.get QUE_STAT.CODE q = 3 ∧ RegsKept s.dev e [QUE_STAT.addr q] ∧ e.mem = s.dev.mem) ∧
  (∀ (s : State) (fn q tail : Nat), q < 16384 → s.dev.windowServed fn QUE_TAIL.base = true →
    (s.dev.get QUE_CTL.BOUND q = 0 ∨ (s.dev.reachesQueue fn q = true ∧ s.dev.get QUE_CTL.ENABLE q = 0)) →
    Answers (.doorbell fn q 0 tail) s fun e =>
      e.get QUE_STAT.DB_IGN q = 1 ∧ RegsKept s.dev e [QUE_STAT.addr q] ∧ e.mem = s.dev.mem) ∧
  (∀ (s : State) (fn q : Nat), q < 16384 → s.dev.windowServed fn QUE_STAT.base = true → s.dev.reachesQueue fn q = true →
    Answers (.queErrClear fn q) s fun e =>
      e.get QUE_STAT.ERR q = 0 ∧ RegsKept s.dev e [QUE_STAT.addr q] ∧ e.mem = s.dev.mem)

/-- PACKET_FETCH (R127, R129, R131). The packet at the head of the queue whose turn it is joins the fetched commands, waiting,
with the next number, and the head moves on within the ring; one that a check of R131 refuses completes at once with that
code, and so does one whose vector its function does not have (R578); a RUN command of level 0 may then pre-empt (R144). -/
def Obligations.PacketFetch : Prop :=
  ∀ (s : State) (q : Nat) (host : List (BitVec 8)), s.dev.nextFetch 4 0 = some q → q < 16384 →
    s.dev.get QUE_SIZE.LOG2 q ≤ 16 → (∀ c ∈ s.dev.que.cmds, c.phase ≠ .semWait) →
    ∃ c : Cmd, c.id = s.dev.que.nextId ∧ c.queue = q ∧ c.room = s.dev.get QUE_CTL.ROOM q
      ∧ c.level = s.dev.get QUE_CTL.LEVEL q ∧ c.index = s.dev.get QUE_HEAD.HEAD q ∧ c.words = s.dev.packetAt q host
      ∧ c.phase = .waiting
      ∧ (packetCode c.words = 0 → badVector c.words = false → (c.opcode ≠ 1 ∨ s.dev.effLevel q c.level ≠ 0) →
          Answers (.packetFetch host) s fun e =>
            e.que.cmds = s.dev.que.cmds ++ [c] ∧ e.que.nextId = s.dev.que.nextId + 1
              ∧ e.get QUE_HEAD.HEAD q = (s.dev.get QUE_HEAD.HEAD q + 1) % 2 ^ s.dev.get QUE_SIZE.LOG2 q % 65536
              ∧ e.mem = s.dev.mem ∧ RegsKept s.dev e [QUE_HEAD.addr q])
      ∧ (packetCode c.words = 0 → badVector c.words = false → c.opcode = 1 → s.dev.effLevel q c.level = 0 →
          ∃ d : Dev, exec (.packetFetch host) s = .next { s with dev := (d.admitLive c.room).raiseAll }
            ∧ d.que.cmds = s.dev.que.cmds ++ [c] ∧ d.que.nextId = s.dev.que.nextId + 1
            ∧ d.get QUE_HEAD.HEAD q = (s.dev.get QUE_HEAD.HEAD q + 1) % 2 ^ s.dev.get QUE_SIZE.LOG2 q % 65536
            ∧ d.mem = s.dev.mem ∧ RegsKept s.dev d [QUE_HEAD.addr q])
      ∧ (packetCode c.words ≠ 0 ∨ badVector c.words = true → Answers (.packetFetch host) s fun e =>
          Completed s.dev e c (if packetCode c.words ≠ 0 then packetCode c.words else 2)
            ∧ e.get QUE_HEAD.HEAD q = (s.dev.get QUE_HEAD.HEAD q + 1) % 2 ^ s.dev.get QUE_SIZE.LOG2 q % 65536)

/-- COMMAND_START and RUN (R135, R136, R249, R252). When a Room's Spindles are free, the RUN command whose turn it is is
chosen, and a saved one is restored first. A chosen one starts: it is the one that runs (ROOM_RUN), every Spindle of the
Room runs at slot 64, and its Bobbin's S0 holds ARGS word 1; nothing outside Spindle storage changes. -/
def Obligations.RunStarts : Prop :=
  (∀ (s : State) (r : Nat) (c : Cmd), r < 16 → (s.dev.room r).switch = none → (s.dev.room r).switchTo = none →
    (s.dev.room r).next = none → s.dev.spindlesFree r = true → s.dev.allStopped r = true → s.dev.pickRun r 4 0 = some c →
    c.phase ≠ .saved →
    Answers (.commandStart r) s fun e =>
      (e.room r).next = some c.id ∧ (e.room r).switch = none ∧ e.que.cmds = s.dev.que.cmds ∧ e.regs = s.dev.regs
        ∧ e.mem = s.dev.mem) ∧
  (∀ (s : State) (r : Nat) (c : Cmd), r < 16 → (s.dev.room r).switch = none → (s.dev.room r).switchTo = none →
    (s.dev.room r).next = none → s.dev.spindlesFree r = true → s.dev.allStopped r = true → s.dev.pickRun r 4 0 = some c →
    c.phase = .saved →
    Answers (.commandStart r) s fun e =>
      (∃ w, (e.room r).switch = some w ∧ w.phase = .restoring ∧ w.incoming = some c.id ∧ w.outgoing = none)
        ∧ e.get ROOM_STATUS.SWITCHING r = 1 ∧ RegsKept s.dev e [ROOM_STATUS.addr r] ∧ e.mem = s.dev.mem) ∧
  (∀ (s : State) (r : Nat) (c : Cmd), r < 16 → (s.dev.room r).next = some c.id → s.dev.cmd? c.id = some c → c.room = r →
    (s.dev.setRoom r { s.dev.room r with next := none }).ready c = true → s.dev.spindlesFree r = true →
    (s.dev.room r).switch = none → (s.dev.room r).switchTo = none → c.words.length = 32 →
    s.dev.memx.dead = [] → (∀ i ∈ s.dev.roomSpindles r, i < 1024) →
    Answers (.cmdRun r) s fun e =>
      (∃ x ∈ e.que.cmds, x.id = c.id ∧ x.phase = .started) ∧ (e.room r).next = none
        ∧ e.get ROOM_RUN.VALID r = 1 ∧ e.get ROOM_RUN.QUEUE r = c.queue % 2 ^ 14
        ∧ (∀ i ∈ s.dev.roomSpindles r, e.get SPX_VX_STAT.RUNNING i = 1 ∧ e.get SPX_VX_STAT.IP i = 64
            ∧ e.rdLe (deskBase i + offBobbin + 247 * 1024) 4 = c.arg 1 % 2 ^ 32)
        ∧ ∀ a, a < deskBase 0 → e.rdByte a = s.dev.rdByte a)

/-- NOP (R132, R133): a NOP that may start completes with status 0; its record of 16 bytes is written where CPL_ADDR says, in
the Room's fast-tier window of device memory or in host memory, the completion is counted for its queue, and the MSI-X
message follows where IRQ asks for it. A WAIT_TIME (R156) that may start waits for the instant in its ARGS, and completes with
status 0 once TIME_NOW has reached it, not before. -/
def Obligations.CommandsComplete : Prop :=
  (∀ (s : State) (id : Nat) (c : Cmd), s.dev.starts id 0 = some c → c.queue < 16384 → c.room < 16 →
    Answers (.cmdNop id) s fun e =>
      Completed s.dev e c 0
        ∧ e.rd QUE_DONE_CNT c.queue = min (s.dev.rd QUE_DONE_CNT c.queue + 1) 0xFFFFFFFF
        ∧ (c.cplHost = false → inside (s.dev.ftWin c.room) c.cplAddr 16 = true → s.dev.deadRange c.cplAddr 16 = false →
            MemKept s.dev e c.cplAddr 16
              ∧ ∃ detail, e.rdBytes c.cplAddr 16 = complRecord c 0 detail s.dev.now)
        ∧ (c.cplHost = true → e.mem = s.dev.mem ∧ RegsKept s.dev e [QUE_DONE_CNT.addr c.queue])
        ∧ (c.irq = true → s.dev.irq.openFns.contains (1 + c.room) = true →
            s.dev.irq.openVecs.contains (2048 * (1 + c.room) + c.vector) = true →
            OutEv.msix (1 + c.room) c.vector ∈ e.out)) ∧
  (∀ (s : State) (id : Nat) (c : Cmd), s.dev.starts id 4 = some c →
    Answers (.waitTime id) s fun e =>
      e.cmd? id = some { c with phase := .timeWait, deadline := c.arg64 0 } ∧ e.regs = s.dev.regs ∧ e.mem = s.dev.mem) ∧
  (∀ (s : State) (id : Nat) (c : Cmd), s.dev.cmd? id = some c → c.opcode = 4 → c.phase = .timeWait →
    c.deadline ≤ s.dev.now → Answers (.waitTimeDue id) s fun e => Completed s.dev e c 0) ∧
  (∀ (s : State) (id : Nat) (c : Cmd), s.dev.cmd? id = some c → s.dev.now < c.deadline → exec (.waitTimeDue id) s = .next s)

/-- SEM_ACQUIRE, SEM_RELEASE, SEM_WAIT_TIMEOUT, SEM_INHERIT_TIMEOUT and FORCE_REL (R152 to R155). A free semaphore is taken by a
Room that its SEM_ACL lets in, with its queue and number as owner; another Room ends with 0x0022; a held one is waited for, and
its holder raised where the waiter is more urgent than a command of the holder's queue that has not ended. Its holder's release
frees it, or gives it to the waiter whose turn it is; another Room's ends with 0x0023. A wait ends with 0x0021 at its deadline,
and with 0x0020 where its raise has lasted a Round. FORCE_REL frees a held semaphore and marks it broken. -/
def Obligations.Semaphores : Prop :=
  (∀ (s : State) (id : Nat) (c : Cmd), s.dev.starts id 2 = some c → c.arg 0 < 4096 → c.queue < 16384 → c.level < 4 →
    c.room < 16 → bitAt (s.dev.get SEM_ACL.ROOMS (c.arg 0)) c.room = true → s.dev.get SEM_STATE.HELD (c.arg 0) = 0 →
    Answers (.semAcquire id) s fun e =>
      Completed s.dev e c 0 ∧ e.get SEM_STATE.HELD (c.arg 0) = 1 ∧ e.get SEM_STATE.ROOM (c.arg 0) = c.room
        ∧ e.get SEM_STATE.LEVEL (c.arg 0) = c.level ∧ e.get SEM_OWNER.QUEUE (c.arg 0) = c.queue
        ∧ e.get SEM_OWNER.SEQ (c.arg 0) = c.seq % 2 ^ 16) ∧
  (∀ (s : State) (id : Nat) (c : Cmd), s.dev.starts id 2 = some c →
    bitAt (s.dev.get SEM_ACL.ROOMS (c.arg 0)) c.room = false →
    Answers (.semAcquire id) s fun e => Completed s.dev e c 0x0022) ∧
  (∀ (s : State) (id : Nat) (c : Cmd), s.dev.starts id 2 = some c → c.arg 0 < 4096 →
    bitAt (s.dev.get SEM_ACL.ROOMS (c.arg 0)) c.room = true → s.dev.get SEM_STATE.HELD (c.arg 0) = 1 →
    (∀ x ∈ s.dev.que.cmds, x.queue ≠ s.dev.get SEM_OWNER.QUEUE (c.arg 0)) →
    Answers (.semAcquire id) s fun e =>
      e.que.cmds = (s.dev.que.cmds.filter fun x => x.id != c.id)
          ++ [{ c with phase := .semWait, deadline := if c.arg 1 = 0 then 0 else s.dev.now + 1000 * c.arg 1 }]
        ∧ e.get SEM_STATE.HELD (c.arg 0) = 1 ∧ RegsKept s.dev e [SEM_STATE.addr (c.arg 0)] ∧ e.mem = s.dev.mem) ∧
  (∀ (s : State) (id : Nat) (c x : Cmd), s.dev.starts id 2 = some c → c.arg 0 < 4096 → c.raised = false →
    bitAt (s.dev.get SEM_ACL.ROOMS (c.arg 0)) c.room = true → s.dev.get SEM_STATE.HELD (c.arg 0) = 1 →
    x ∈ s.dev.que.cmds → x.id ≠ c.id → x.queue = s.dev.get SEM_OWNER.QUEUE (c.arg 0) → (x.phase = .saved ∨ x.phase = .waiting) →
    c.level < x.level →
    Answers (.semAcquire id) s fun e =>
      e.que.raises = s.dev.que.raises ++ [⟨c.arg 0, x.queue, c.level, c.id, s.dev.get SEM_STATE.ROOM (c.arg 0),
          s.dev.now + s.dev.rd TT_ROUND 0, false⟩]
        ∧ e.get SEM_STATE.RAISED (c.arg 0) = 1 ∧ e.get SEM_STATE.HELD (c.arg 0) = 1 ∧ e.mem = s.dev.mem) ∧
  (∀ (s : State) (id : Nat) (c : Cmd), s.dev.starts id 3 = some c → c.arg 0 < 4096 → c.queue < 16384 → c.room < 16 →
    s.dev.get SEM_STATE.HELD (c.arg 0) = 1 → s.dev.get SEM_STATE.ROOM (c.arg 0) = c.room →
    s.dev.waiters (c.arg 0) = [] →
    Answers (.semRelease id) s fun e =>
      Completed s.dev e c 0 ∧ e.get SEM_STATE.HELD (c.arg 0) = 0 ∧ e.rd SEM_OWNER (c.arg 0) = 0) ∧
  (∀ (s : State) (id : Nat) (c w : Cmd), s.dev.starts id 3 = some c → c.arg 0 < 4096 → c.queue < 16384 → c.room < 16 →
    s.dev.get SEM_STATE.HELD (c.arg 0) = 1 → s.dev.get SEM_STATE.ROOM (c.arg 0) = c.room →
    (∀ x ∈ s.dev.que.cmds, x.id = c.id → x = c) → s.dev.nextWaiter (c.arg 0) = some w → w.room < 16 →
    Answers (.semRelease id) s fun e =>
      Completed s.dev e c 0 ∧ Completed s.dev e w 0 ∧ e.get SEM_STATE.HELD (c.arg 0) = 1
        ∧ e.get SEM_STATE.ROOM (c.arg 0) = w.room) ∧
  (∀ (s : State) (id : Nat) (c : Cmd), s.dev.starts id 3 = some c →
    ¬(s.dev.get SEM_STATE.HELD (c.arg 0) = 1 ∧ s.dev.get SEM_STATE.ROOM (c.arg 0) = c.room) →
    Answers (.semRelease id) s fun e => Completed s.dev e c 0x0023) ∧
  (∀ (s : State) (id : Nat) (c : Cmd), s.dev.cmd? id = some c → c.phase = .semWait → c.deadline ≠ 0 →
    c.deadline ≤ s.dev.now →
    Answers (.semWaitTimeout id) s fun e => Completed s.dev e c 0x0021) ∧
  (∀ (s : State) (sem : Nat) (x : Raise) (c : Cmd), sem < 4096 → s.dev.que.raises = [x] → x.sem = sem →
    x.limit ≤ s.dev.now → s.dev.get SEM_STATE.HELD sem = 1 → s.dev.get SEM_OWNER.QUEUE sem = x.queue →
    s.dev.cmd? x.waiter = some c → c.phase = .semWait →
    Answers (.semInheritTimeout sem) s fun e => Completed s.dev e c 0x0020) ∧
  (∀ (s : State) (sem : Nat), sem < 4096 → s.dev.windowServed 0 SEM_STATE.base = true →
    s.dev.get SEM_STATE.HELD sem = 1 → s.dev.waiters sem = [] →
    Answers (.forceRel 0 sem) s fun e =>
      e.get SEM_STATE.HELD sem = 0 ∧ e.get SEM_STATE.BROKEN sem = 1 ∧ e.rd SEM_OWNER sem = 0 ∧ e.mem = s.dev.mem
        ∧ ((∀ c ∈ s.dev.que.cmds, c.phase ≠ .semWait) → RegsKept s.dev e [SEM_STATE.addr sem, SEM_OWNER.addr sem]))

/-! ## The Timetable and the Bell -/

/-- ROUND_BOUNDARY (R137, R139, R141): the boundary that is due starts a Round at its instant; where no Room is in a Lesson,
TT_ROUND_CNT advances by one. BELL_IN_EDGE and BELL_WINDOW_END (R140, R141, R143). A pulse of at least 20 ns on the selected
input within the window around the nominal boundary is captured and places it; one outside, or a second one, is counted in
TT_BELL_OUT. A window that ends without a Bell is counted and places the boundary at the window's end; the third in a row
starts free-run. In free-run a Bell within the window ends it: one up to N places that boundary, one after N the next, a
Round later; a window without one is counted. -/
def Obligations.TimetableEvents : Prop :=
  (∀ (s : State) (t : Nat), s.dev.roundDue = some t → t < 2 ^ 64 →
    (∀ c ∈ s.dev.que.cmds, c.room < 16 ∧ c.queue < 16384) →
    Answers .roundBoundary s fun e =>
      e.roundStart = t ∧ e.bell.started = true ∧ e.bell.place = none ∧ e.bell.late = none ∧ e.bell.leaving = []
        ∧ ((∀ r, r < 16 → (s.dev.room r).cur = none) →
          e.get64 TT_ROUND_CNT_LO TT_ROUND_CNT_HI 0 = (s.dev.get64 TT_ROUND_CNT_LO TT_ROUND_CNT_HI 0 + 1) % 2 ^ 64)) ∧
  (∀ (s : State) (w : Nat), s.dev.get TT_CTL.BELL_SRC 0 = 1 → 20 ≤ w → s.dev.awake = true → s.dev.rd TT_ROUND 0 ≠ 0 →
    s.dev.bell.due = none → s.dev.bell.started = true → s.dev.get TT_BELL_STAT.FREE_RUN 0 = 0 →
    s.dev.nominal ≤ s.dev.now + s.dev.bell.win → s.dev.now ≤ s.dev.nominal + s.dev.bell.win →
    Answers (.bellInEdge w) s fun e =>
      e.bell = { s.dev.bell with place := some s.dev.now } ∧ e.get TT_BELL_STAT.CAPTURED 0 = 1
        ∧ e.get TT_BELL_STAT.MISS_RUN 0 = 0 ∧ e.mem = s.dev.mem ∧ RegsKept s.dev e [TT_BELL_STAT.addr 0]) ∧
  (∀ (s : State) (w : Nat), s.dev.get TT_CTL.BELL_SRC 0 = 1 → 20 ≤ w → s.dev.awake = true → s.dev.rd TT_ROUND 0 ≠ 0 →
    s.dev.bell.started = true → s.dev.get TT_BELL_STAT.FREE_RUN 0 = 0 →
    (s.dev.bell.due ≠ none ∨ s.dev.now + s.dev.bell.win < s.dev.nominal ∨ s.dev.nominal + s.dev.bell.win < s.dev.now) →
    Answers (.bellInEdge w) s fun e =>
      e.rd TT_BELL_OUT 0 = min (s.dev.rd TT_BELL_OUT 0 + 1) 0xFFFFFFFF ∧ e.bell = s.dev.bell
        ∧ RegsKept s.dev e [TT_BELL_OUT.addr 0]) ∧
  (∀ (s : State) (w : Nat), w < 20 → exec (.bellInEdge w) s = .next s) ∧
  (∀ (s : State) (w : Nat), s.dev.get TT_CTL.BELL_SRC 0 = 1 → 20 ≤ w → s.dev.awake = true → s.dev.rd TT_ROUND 0 ≠ 0 →
    s.dev.bell.due = none → s.dev.bell.started = true → s.dev.get TT_BELL_STAT.FREE_RUN 0 = 1 →
    ((s.dev.bell.trail = true ∧ s.dev.now ≤ s.dev.roundStart + s.dev.bell.win) ∨
      (s.dev.nominal ≤ s.dev.now + s.dev.bell.win ∧ s.dev.now ≤ s.dev.nominal)) →
    Answers (.bellInEdge w) s fun e =>
      e.bell = (if s.dev.bell.trail = true ∧ s.dev.now ≤ s.dev.roundStart + s.dev.bell.win
          then { s.dev.bell with late := some (s.dev.now + s.dev.rd TT_ROUND 0), trail := false }
          else { s.dev.bell with place := some s.dev.now })
        ∧ e.get TT_BELL_STAT.CAPTURED 0 = 1 ∧ e.get TT_BELL_STAT.FREE_RUN 0 = 0 ∧ e.get TT_BELL_STAT.MISS_RUN 0 = 0
        ∧ e.mem = s.dev.mem ∧ RegsKept s.dev e [TT_BELL_STAT.addr 0]) ∧
  (∀ s : State, s.dev.awake = true → s.dev.noBell = false → s.dev.bell.started = true →
    s.dev.get TT_BELL_STAT.FREE_RUN 0 = 1 → s.dev.bell.trail = true → s.dev.roundStart + s.dev.bell.win ≤ s.dev.now →
    Answers .bellWindowEnd s fun e =>
      e.bell = { s.dev.bell with trail := false } ∧ e.rd TT_BELL_MISS 0 = min (s.dev.rd TT_BELL_MISS 0 + 1) 0xFFFFFFFF
        ∧ e.mem = s.dev.mem ∧ RegsKept s.dev e [TT_BELL_MISS.addr 0]) ∧
  (∀ s : State, s.dev.awake = true → s.dev.noBell = false → s.dev.bell.started = true →
    s.dev.get TT_BELL_STAT.FREE_RUN 0 = 0 → s.dev.bell.due = none → s.dev.nominal + s.dev.bell.win ≤ s.dev.now →
    Answers .bellWindowEnd s fun e =>
      e.bell = { s.dev.bell with place := some (s.dev.nominal + s.dev.bell.win) }
        ∧ e.rd TT_BELL_MISS 0 = min (s.dev.rd TT_BELL_MISS 0 + 1) 0xFFFFFFFF
        ∧ e.get TT_BELL_STAT.MISS_RUN 0 = min (s.dev.get TT_BELL_STAT.MISS_RUN 0 + 1) 3
        ∧ (2 ≤ s.dev.get TT_BELL_STAT.MISS_RUN 0 → e.get TT_BELL_STAT.FREE_RUN 0 = 1 ∧ e.get TT_BELL_STAT.FREE_RUN_EV 0 = 1)
        ∧ (s.dev.get TT_BELL_STAT.MISS_RUN 0 < 2 → e.get TT_BELL_STAT.FREE_RUN 0 = 0))

/-! ## The sequencer and the vector engine -/

/-- MICRO_NOP, END, LOOP, ENDLOOP and CKPT (R252, R254, R257). A NOP and a checkpoint without a stop request pass to the next
slot; END stops the Spindle with no loop open; LOOP opens a loop with its count at index 0; ENDLOOP goes back to the loop's
first slot while iterations remain, else it closes the loop and passes on; a checkpoint with a stop request stops the
Spindle, with its POINT. A WAIT (R256) whose condition holds issues (shown for the Note drain, COND 4); one whose condition
does not hold blocks, with WAITING and COND; a blocked one passes on once it holds, and the cycles that it was blocked are
counted. None of them changes memory. -/
def Obligations.SequencerFlow : Prop :=
  (∀ (s : State) (i : Nat), s.dev.canIssue i 0 = true →
    Answers (.microNop i) s fun e => Issued s.dev e i ∧ RegsKept s.dev e (seqRegs i) ∧ e.mem = s.dev.mem) ∧
  (∀ (s : State) (i r : Nat), s.dev.canIssue i 1 = true → s.dev.spindleRoom i = some r → (s.dev.room r).trap = 0 →
    (s.dev.room r).holdReq = 0 →
    Answers (.endSeq i) s fun e => e.get SPX_VX_STAT.RUNNING i = 0 ∧ (e.sp i).loops = [] ∧ e.mem = s.dev.mem) ∧
  (∀ (s : State) (i : Nat), s.dev.canIssue i 2 = true → (s.dev.sp i).loops.length < 6 →
    Answers (.loopOpen i) s fun e =>
      (e.sp i).loops = (s.dev.sp i).loops ++ [⟨s.dev.get SPX_VX_STAT.IP i + 1, vAux (s.dev.insAt i) + 1, 0⟩]
        ∧ e.get SPX_VX_STAT.DEPTH i = (s.dev.sp i).loops.length + 1 ∧ Issued s.dev e i
        ∧ RegsKept s.dev e (seqRegs i) ∧ e.mem = s.dev.mem) ∧
  (∀ (s : State) (i : Nat) (l : LoopSt), s.dev.canIssue i 3 = true → (s.dev.sp i).loops.getLast? = some l →
    l.index + 1 < l.count →
    Answers (.endloop i) s fun e =>
      (e.sp i).loops = (s.dev.sp i).loops.dropLast ++ [{ l with index := l.index + 1 }]
        ∧ e.get SPX_VX_STAT.IP i = l.start % 4096 ∧ RegsKept s.dev e (seqRegs i) ∧ e.mem = s.dev.mem) ∧
  (∀ (s : State) (i : Nat) (l : LoopSt), s.dev.canIssue i 3 = true → (s.dev.sp i).loops.getLast? = some l →
    l.count ≤ l.index + 1 →
    Answers (.endloop i) s fun e =>
      (e.sp i).loops = (s.dev.sp i).loops.dropLast ∧ Issued s.dev e i ∧ RegsKept s.dev e (seqRegs i)
        ∧ e.mem = s.dev.mem) ∧
  (∀ (s : State) (i : Nat), s.dev.canIssue i 5 = true → (s.dev.sp i).stopReq = .none →
    Answers (.ckpt i) s fun e => Issued s.dev e i ∧ RegsKept s.dev e (seqRegs i) ∧ e.mem = s.dev.mem) ∧
  (∀ (s : State) (i r : Nat), s.dev.canIssue i 5 = true → (s.dev.sp i).stopReq ≠ .none → s.dev.spindleRoom i = some r →
    (s.dev.room r).trap = 0 → (s.dev.room r).holdReq = 0 →
    Answers (.ckpt i) s fun e =>
      e.get SPX_VX_STAT.STOPPED i = 1 ∧ (e.sp i).point = vAux (s.dev.insAt i) ∧ (e.sp i).stopReq = .none
        ∧ Issued s.dev e i ∧ RegsKept s.dev e (seqRegs i) ∧ e.mem = s.dev.mem) ∧
  (∀ (s : State) (i : Nat), s.dev.canIssue i 4 = true → vCond (s.dev.insAt i) % 16 = 4 → s.dev.notesOf i = [] →
    Answers (.vwait i) s fun e => Issued s.dev e i ∧ RegsKept s.dev e (seqRegs i) ∧ e.mem = s.dev.mem) ∧
  (∀ (s : State) (i : Nat), s.dev.canIssue i 4 = true → s.dev.waitHolds i (s.dev.insAt i) = none →
    Answers (.vwait i) s fun e =>
      e.get SPX_VX_STAT.WAITING i = 1 ∧ e.get SPX_VX_STAT.COND i = vCond (s.dev.insAt i) % 16
        ∧ e.get SPX_VX_STAT.IP i = s.dev.get SPX_VX_STAT.IP i ∧ RegsKept s.dev e [SPX_VX_STAT.addr i]
        ∧ e.mem = s.dev.mem) ∧
  (∀ (s : State) (i : Nat), s.dev.canIssue i 4 = true → vCond (s.dev.insAt i) % 16 = 4 → s.dev.notesOf i ≠ [] →
    s.dev.waitHolds i (s.dev.insAt i) = none) ∧
  (∀ (s : State) (i cycles : Nat), i < 1024 → s.dev.get SPX_VX_STAT.WAITING i = 1 → s.dev.get SPX_VX_STAT.STOPPED i = 0 →
    s.dev.get SPX_VX_STAT.RUNNING i = 1 → vCond (s.dev.insAt i) % 16 = 4 → s.dev.notesOf i = [] →
    Answers (.waitSatisfied i cycles) s fun e =>
      e.get SPX_VX_STAT.WAITING i = 0 ∧ Issued s.dev e i
        ∧ e.rd SPX_VX_WAIT_CNT i = min (s.dev.rd SPX_VX_WAIT_CNT i + cycles) 0xFFFFFFFF
        ∧ RegsKept s.dev e (SPX_VX_WAIT_CNT.addr i :: seqRegs i) ∧ e.mem = s.dev.mem)

/-- NSIG and YSEND (R70, R253, R53). An NSIG with a free tag sends its words as a SIGNAL to the endpoint that it names and
passes on; a YSEND whose words every destination can take sends them in order, 64 bytes each, the last with its marker, takes
one credit for each, and passes on. Neither changes memory. -/
def Obligations.SpindleSends : Prop :=
  (∀ (s : State) (i : Nat) (w : Nat), s.dev.canIssue i 7 = true → w = s.dev.insAt i → s.dev.mayInject i false = true →
    s.dev.firstPoison ((scalarAt i (vSa w), 4)
      :: (List.range (vAux w % 16 + 1)).map fun k => (scalarAt i (vSb w + k), 4)) = none →
    0x401 < vCond w % 2 ^ 12 →
    Answers (.nsig i none) s fun e =>
      (∃ q, e.net.flight = s.dev.net.flight ++ [q] ∧ q.typ = ntSignal ∧ q.src = i ∧ q.dst = vCond w % 2 ^ 12
        ∧ q.addr = s.dev.rdLe (scalarAt i (vSa w)) 4 ∧ q.len = vAux w % 16
        ∧ q.payload = ((List.range (vAux w % 16 + 1)).map fun k => s.dev.rdBytes (scalarAt i (vSb w + k)) 4).flatten)
        ∧ Issued s.dev e i ∧ RegsKept s.dev e (seqRegs i) ∧ e.mem = s.dev.mem) ∧
  (∀ (s : State) (i lost w n a port : Nat), s.dev.canIssue i 8 = true → w = s.dev.insAt i → n = vAux w + 1 →
    a = s.dev.deskAt i (vSa w) → port = vCond w % 4 → s.dev.firstPoison [(a, 64 * n)] = none → (s.dev.sp i).yout = [] →
    (s.dev.sp i).stopReq ≠ .next → (s.dev.yarnTo i port).Nodup → s.dev.mayYarn i port n = true →
    Answers (.ysend i lost none) s fun e =>
      (∀ k ∈ s.dev.yarnTo i port,
        e.yWire k = s.dev.yWire k ++ (List.range n).map (fun j =>
          ⟨s.dev.rdLe (a + 64 * j) 64, if j + 1 = n then bitsOf (vCond w) 2 2 else 0, []⟩)
        ∧ e.yCredit k = s.dev.yCredit k - n)
        ∧ (∀ k, k ∉ s.dev.yarnTo i port → e.yWire k = s.dev.yWire k ∧ e.yCredit k = s.dev.yCredit k)
        ∧ (e.sp i).yout = [] ∧ Issued s.dev e i ∧ RegsKept s.dev e (SPX_VX_DESK_CNT.addr i :: seqRegs i)
        ∧ e.mem = s.dev.mem)

/-- The element-wise and integer instructions (R246, R247, R255): every enabled lane of the destination line takes the
operation of its operands' lanes as they stood before it, every other lane and everything else keeps its value, and the
Spindle passes on. On INT32 lanes (R247) the operations give sums, differences and products modulo 2^32, comparisons as 1 or 0,
the bit operations, and shifts by the low 5 bits of the second operand, to the right with zeros. -/
def Obligations.Elementwise : Prop :=
  (∀ (s : State) (i op w : Nat) (c : Instr),
    (c, op) ∈ [(Instr.vadd i none, 0x10), (Instr.vsub i none, 0x11), (Instr.vmul i none, 0x12), (Instr.vfma i none, 0x13),
      (Instr.vmin i none, 0x14),
      (Instr.vmax i none, 0x15), (Instr.vabs i none, 0x16), (Instr.vneg i none, 0x17), (Instr.vcmplt i none, 0x18),
        (Instr.vcmpeq i none, 0x19),
      (Instr.vsel i none, 0x1A), (Instr.vfnma i none, 0x1B), (Instr.vand i none, 0x28), (Instr.vor i none, 0x29),
        (Instr.vxor i none, 0x2A),
      (Instr.vshl i none, 0x2B), (Instr.vshr i none, 0x2C)] →
    s.dev.canIssue i op = true → w = s.dev.insAt i →
    s.dev.firstPoison ((operandsOf op w).flatMap fun v => s.dev.operandRange i v) = none →
    Answers c s fun e => LineWritten s.dev e i (vLanes w) (s.dev.lineOf i (vDst w)) fun l =>
      if s.dev.lane? i w l then
        let x := fun k => nth (0, 0) (nth [] ((operandsOf op w).map fun v => s.dev.source i (vLanes w) v) k) l
        some (laneOp op (vLanes w) (x 0) (x 1) (x 2)).code
      else none) ∧
  (∀ a b c : Nat, a < 2 ^ 32 → b < 2 ^ 32 → c < 2 ^ 32 →
    let r := fun op => (laneOp op 3 (a, 0) (b, 0) (c, 0)).code
    r 0x10 = (a + b) % 2 ^ 32 ∧ r 0x11 = (a + 2 ^ 32 - b) % 2 ^ 32 ∧ r 0x12 = a * b % 2 ^ 32
      ∧ r 0x13 = (a * b + c) % 2 ^ 32 ∧ r 0x1B = (c + 2 ^ 64 - a * b) % 2 ^ 32 ∧ r 0x17 = (2 ^ 32 - a) % 2 ^ 32
      ∧ r 0x18 = (if toSigned 32 a < toSigned 32 b then 1 else 0) ∧ r 0x19 = (if a = b then 1 else 0)
      ∧ r 0x14 = (if toSigned 32 b < toSigned 32 a then b else a) ∧ r 0x15 = (if toSigned 32 a < toSigned 32 b then b else a)
      ∧ r 0x1A = (if c = 0 then b else a) ∧ r 0x28 = Nat.land a b ∧ r 0x29 = Nat.lor a b ∧ r 0x2A = Nat.xor a b
      ∧ r 0x2B = a * 2 ^ (b % 32) % 2 ^ 32 ∧ r 0x2C = a / 2 ^ (b % 32))

/-- IDX, the transcendental functions, ACCRD, RSUM, RMAX and RMIN (R253, R258, R260, R262, Table 08-3): the enabled lanes take
their number plus the scalar, the function of the operand's lane, or a column of the two rows of the accumulator set, an FP16
set as FP32. Lane 0 of the destination line, or the scalar word, takes the reduction of the enabled lanes in the fixed tree,
and no other byte changes. An instruction that corrects a word of Spindle storage as it reads (R42, R519) counts it and then
does what it does without; one that meets a double-bit error issues, writes no value, leaves its result poisoned, and has
the effects of that error. -/
def Obligations.LaneInstructions : Prop :=
  (∀ (s : State) (i w : Nat), s.dev.canIssue i 0x2D = true → w = s.dev.insAt i →
    s.dev.firstPoison (s.dev.operandRange i (0x200 + vSa w % 256)) = none →
    Answers (.idx i none) s fun e => LineWritten s.dev e i 3 (s.dev.lineOf i (vDst w)) fun l =>
      if s.dev.lane? i w l then some ((l + s.dev.rdLe (scalarAt i (vSa w)) 4) % 2 ^ 32) else none) ∧
  (∀ (s : State) (i op w : Nat) (c : Instr),
    (c, op) ∈ [(Instr.rcp i none, 0x30), (Instr.vsqrt i none, 0x31), (Instr.rsqrt i none, 0x32), (Instr.vexp i none, 0x33),
      (Instr.exp2 i none, 0x34),
      (Instr.vlog i none, 0x35), (Instr.log2 i none, 0x36), (Instr.tanh i none, 0x37), (Instr.sigm i none, 0x38),
        (Instr.erf i none, 0x39),
      (Instr.vsin i none, 0x3A), (Instr.vcos i none, 0x3B)] →
    s.dev.canIssue i op = true → w = s.dev.insAt i → s.dev.firstPoison (s.dev.operandRange i (vSa w)) = none →
    Answers c s fun e => LineWritten s.dev e i 0 (s.dev.lineOf i (vDst w)) fun l =>
      if s.dev.lane? i w l then some (transc op (nth (0, 0) (s.dev.source i 0 (vSa w)) l).1).1 else none) ∧
  (∀ (s : State) (i w a : Nat), s.dev.canIssue i 0x4A = true → w = s.dev.insAt i →
    a = deskBase i + offAcc (bitsOf (vAux w) 6 1) + 1024 * (vAux w % 64) → s.dev.firstPoison [(a, 1024)] = none →
    vLanes w = 0 ∨ vLanes w = 3 →
    Answers (.accrd i none) s fun e => LineWritten s.dev e i (vLanes w) (s.dev.lineOf i (vDst w)) fun l =>
      if s.dev.lane? i w l then
        let c := s.dev.rdLe (a + 4 * l) 4
        some (if (s.dev.rdByte (deskBase i + offActive + 7)).toNat = 1 then (conv 0 (elemRaw 1 (c % 2 ^ 16))).1 else c)
      else none) ∧
  (∀ (s : State) (i op w a : Nat) (c : Instr), (c, op) ∈ [(Instr.rsum i none, 0x40), (Instr.rmax i none, 0x41),
    (Instr.rmin i none, 0x42)] →
    s.dev.canIssue i op = true → w = s.dev.insAt i →
    a = (if vDst w / 256 = 2 then scalarAt i (vDst w) else bobLine i (s.dev.lineOf i (vDst w))) →
    s.dev.firstPoison (s.dev.operandRange i (vSa w)) = none →
    Answers c s fun e => e.rdLe a 4 = (s.dev.reduceLanes i op w).1 % 2 ^ 32 ∧ MemKept s.dev e a 4
      ∧ RegsKept s.dev e (seqRegs i ++ s.dev.numRegs i) ∧ Issued s.dev e i) ∧
  (∀ (s : State) (i lost off op : Nat) (c : Option (Nat × Bool) → Instr), (c, op) ∈ operandReaders i lost →
    s.dev.canIssue i op = true → exec (c (some (off, false))) s = exec (c none) { s with dev := s.dev.correctedWord i }) ∧
  (∀ (s : State) (i lost off op : Nat) (c : Option (Nat × Bool) → Instr), (c, op) ∈ operandReaders i lost →
    s.dev.canIssue i op = true →
    ∃ d : Dev, exec (c (some (off, true))) s = .next { s with dev := d.storageError i off true }
      ∧ (∀ r ∈ s.dev.resultOf i (s.dev.insAt i), ∀ k, k < r.2 / 4 → r.1 + 4 * k ∈ d.poisonW)
      ∧ d.rd SPX_VX_ISSUE_CNT i = min (s.dev.rd SPX_VX_ISSUE_CNT i + 1) 0xFFFFFFFF
      ∧ RegsKept s.dev d [SPX_VX_ISSUE_CNT.addr i] ∧ d.mem = s.dev.mem)

/-- CVT (R172, R173, R617). Between lane types of one width every enabled lane takes its operand's lane converted; to a
block-scaled format with BLOCK_MAX, every lane enabled, each block of 32 lanes leaves its codes and its scale byte, and the
rest of the line reads 0. -/
def Obligations.Conversions : Prop :=
  (∀ (s : State) (i w g : Nat), s.dev.canIssue i 0x20 = true → w = s.dev.insAt i → lanesOfFmt (vFmt w) = some g →
    lineLanes (vLanes w) = lineLanes g → s.dev.firstPoison (s.dev.operandRange i (vSa w)) = none →
    Answers (.vcvt i none) s fun e => LineWritten s.dev e i g (s.dev.lineOf i (vDst w)) fun l =>
      if s.dev.lane? i w l then
        let x := nth (0, 0) (s.dev.source i (vLanes w) (vSa w)) l
        some (convLane (laneFmt (vLanes w)) (laneFmt g) x.1 x.2).code
      else none) ∧
  (∀ (s : State) (i w f n p : Nat), s.dev.canIssue i 0x20 = true → w = s.dev.insAt i → f = vFmt w → blockScaled f = true →
    vRunning w = false → vMaskEn w = false → n = lineLanes (vLanes w) → p = bobLine i (s.dev.lineOf i (vDst w)) →
    s.dev.firstPoison (s.dev.operandRange i (vSa w)) = none →
    Answers (.vcvt i none) s fun e =>
      (∀ b, b < n / 32 →
        let x := convBlockMax f ((List.range 32).map fun l =>
          (elem (laneFmt (vLanes w)) (nth (0, 0) (s.dev.source i (vLanes w) (vSa w)) (32 * b + l)).1).1)
        (∀ l, l < 32 → bitsOf (e.rdLe p (n * fmtWidth f / 8)) (fmtWidth f * (32 * b + l)) (fmtWidth f) = nth 0 x.codes l)
          ∧ e.rdByte (p + n * fmtWidth f / 8 + b) = BitVec.ofNat 8 x.scale)
        ∧ (∀ k, n * fmtWidth f / 8 + n / 32 ≤ k → k < 1024 → e.rdByte (p + k) = 0)
        ∧ MemKept s.dev e p 1024 ∧ RegsKept s.dev e (seqRegs i ++ s.dev.numRegs i) ∧ Issued s.dev e i)

/-- LD and ST (R617). Every enabled lane of every line loaded takes the element that stands in the Desk, times its block's
scale where the format is block-scaled, converted to the lane type; every enabled lane of a line stored leaves its element
there, and the elements of the others stay. A store with BLOCK_MAX in a block-scaled format, every lane enabled, leaves each
block's codes and its scale byte. Whatever the format, an LD completes that reads nothing poisoned, and an ST that does and
whose scale is its own or has been read (R185, R187): the Spindle passes on, the cycles lost are counted, and of memory an LD
changes the Bobbin alone, an ST with no scale group the Desk words that it names alone. A reserved format ends the command
with 0x0201 (R161). -/
def Obligations.LoadStore : Prop :=
  (∀ (s : State) (i lost w n f a : Nat), s.dev.canIssue i 0x48 = true → w = s.dev.insAt i → vFmt w ≤ 8 →
    blockScaled (vFmt w) = false → vAux w < 256 → n = lineLanes (vLanes w) → f = vFmt w → a = s.dev.deskAt i (vSa w) →
    a + 1024 * vAux w + n * fmtWidth f / 8 ≤ deskBase i + offBobbin →
    s.dev.firstPoison (s.dev.deskRanges i w (vSa w)) = none →
    Answers (.vld i lost none) s fun e =>
      (∀ j l, j ≤ vAux w → l < n →
        nth 0 (e.lineCodes i (vLanes w) ((s.dev.lineOf i (vDst w) + j) % 256)) l =
          if s.dev.lane? i w l then
            (convLane f (laneFmt (vLanes w)) (unpack (fmtWidth f) (s.dev.rdLe (a + 1024 * j) (n * fmtWidth f / 8)) l) 0).code
          else nth 0 (s.dev.lineCodes i (vLanes w) ((s.dev.lineOf i (vDst w) + j) % 256)) l)
        ∧ MemKept s.dev e (bobLine i 0) 262144
        ∧ RegsKept s.dev e (SPX_VX_DESK_CNT.addr i :: seqRegs i ++ s.dev.numRegs i) ∧ Issued s.dev e i) ∧
  (∀ (s : State) (i lost w n f a : Nat), s.dev.canIssue i 0x49 = true → w = s.dev.insAt i → vFmt w ≤ 8 →
    blockScaled (vFmt w) = false → vAux w < 256 → n = lineLanes (vLanes w) → f = vFmt w → a = s.dev.deskAt i (vDst w) →
    a + 1024 * vAux w + n * fmtWidth f / 8 ≤ deskBase i + offBobbin →
    s.dev.firstPoison ((List.range (vAux w + 1)).map fun j => (bobLine i ((s.dev.lineOf i (vSa w) + j) % 256), 1024)) = none →
    Answers (.vst i lost none) s fun e =>
      (∀ j l, j ≤ vAux w → l < n →
        unpack (fmtWidth f) (e.rdLe (a + 1024 * j) (n * fmtWidth f / 8)) l =
          if s.dev.lane? i w l then
            (convLane (laneFmt (vLanes w)) f (nth 0 (s.dev.lineCodes i (vLanes w) ((s.dev.lineOf i (vSa w) + j) % 256)) l)
              0).code
          else unpack (fmtWidth f) (s.dev.rdLe (a + 1024 * j) (n * fmtWidth f / 8)) l)
        ∧ MemKept s.dev e a (1024 * vAux w + n * fmtWidth f / 8)
        ∧ RegsKept s.dev e (SPX_VX_DESK_CNT.addr i :: seqRegs i ++ s.dev.numRegs i) ∧ Issued s.dev e i) ∧
  (∀ (s : State) (i lost w n f a b : Nat), s.dev.canIssue i 0x48 = true → w = s.dev.insAt i → vFmt w ≤ 8 →
    blockScaled (vFmt w) = true → vAux w < 256 → n = lineLanes (vLanes w) → f = vFmt w → a = s.dev.deskAt i (vSa w) →
    b = s.dev.deskAt i (vSb w) → a + 1024 * vAux w + n * fmtWidth f / 8 ≤ deskBase i + offBobbin →
    b + vAux w * n / 32 + n / 32 ≤ deskBase i + offBobbin → s.dev.firstPoison (s.dev.deskRanges i w (vSa w)) = none →
    Answers (.vld i lost none) s fun e =>
      (∀ j l, j ≤ vAux w → l < n →
        nth 0 (e.lineCodes i (vLanes w) ((s.dev.lineOf i (vDst w) + j) % 256)) l =
          if s.dev.lane? i w l then
            (conv (laneFmt (vLanes w)) (scaled (s.dev.rdByte (b + j * n / 32 + l / 32)).toNat
              (elem f (unpack (fmtWidth f) (s.dev.rdLe (a + 1024 * j) (n * fmtWidth f / 8)) l)).1)).1
          else nth 0 (s.dev.lineCodes i (vLanes w) ((s.dev.lineOf i (vDst w) + j) % 256)) l)) ∧
  (∀ (s : State) (i lost w : Nat), s.dev.canIssue i 0x48 = true → w = s.dev.insAt i → vFmt w ≤ 8 →
    s.dev.firstPoison (s.dev.deskRanges i w (vSa w)) = none →
    Answers (.vld i lost none) s fun e =>
      MemKept s.dev e (bobLine i 0) 262144 ∧ Issued s.dev e i
        ∧ e.rd SPX_VX_DESK_CNT i = min (s.dev.rd SPX_VX_DESK_CNT i + lost) 0xFFFFFFFF
        ∧ RegsKept s.dev e (SPX_VX_DESK_CNT.addr i :: seqRegs i ++ s.dev.numRegs i)) ∧
  (∀ (s : State) (i lost w n f a b : Nat), s.dev.canIssue i 0x49 = true → w = s.dev.insAt i → vFmt w ≤ 8 →
    blockScaled (vFmt w) = true → vRunning w = false → vMaskEn w = false → vAux w < 256 → n = lineLanes (vLanes w) →
    f = vFmt w → a = s.dev.deskAt i (vDst w) → b = s.dev.deskAt i (vSb w) →
    a + 1024 * vAux w + n * fmtWidth f / 8 ≤ deskBase i + offBobbin → b + vAux w * n / 32 + n / 32 ≤ deskBase i + offBobbin →
    (b + vAux w * n / 32 + n / 32 ≤ a ∨ a + 1024 * vAux w + n * fmtWidth f / 8 ≤ b) →
    s.dev.firstPoison ((List.range (vAux w + 1)).map fun j => (bobLine i ((s.dev.lineOf i (vSa w) + j) % 256), 1024)) = none →
    Answers (.vst i lost none) s fun e =>
      ∀ j k, j ≤ vAux w → k < n / 32 →
        let x := convBlockMax f ((List.range 32).map fun l =>
          (elem (laneFmt (vLanes w))
            (nth 0 (s.dev.lineCodes i (vLanes w) ((s.dev.lineOf i (vSa w) + j) % 256)) (32 * k + l))).1)
        (∀ l, l < 32 → unpack (fmtWidth f) (e.rdLe (a + 1024 * j) (n * fmtWidth f / 8)) (32 * k + l) = nth 0 x.codes l)
          ∧ e.rdByte (b + j * n / 32 + k) = BitVec.ofNat 8 x.scale) ∧
  (∀ (s : State) (i lost w : Nat), s.dev.canIssue i 0x49 = true → w = s.dev.insAt i → vFmt w ≤ 8 →
    (blockScaled (vFmt w) = true → vRunning w = false) →
    s.dev.firstPoison ((List.range (vAux w + 1)).map fun j => (bobLine i ((s.dev.lineOf i (vSa w) + j) % 256), 1024)) = none →
    Answers (.vst i lost none) s fun e =>
      (∀ k, (∀ r ∈ s.dev.deskRanges i w (vDst w), k < r.1 ∨ r.1 + r.2 ≤ k) → e.rdByte k = s.dev.rdByte k) ∧ Issued s.dev e i
        ∧ e.rd SPX_VX_DESK_CNT i = min (s.dev.rd SPX_VX_DESK_CNT i + lost) 0xFFFFFFFF
        ∧ RegsKept s.dev e (SPX_VX_DESK_CNT.addr i :: seqRegs i ++ s.dev.numRegs i)) ∧
  (∀ (s : State) (i lost w r c : Nat) (d : Dev), s.dev.canIssue i 0x49 = true → w = s.dev.insAt i → vFmt w ≤ 8 →
    blockScaled (vFmt w) = true → vRunning w = true → s.dev.spindleRoom i = some r →
    s.dev.firstPoison ((List.range (vAux w + 1)).map fun j => (bobLine i ((s.dev.lineOf i (vSa w) + j) % 256), 1024)) = none →
    s.dev.scaleRead r i (vGroup w) = .scale d c →
    Answers (.vst i lost none) s fun e =>
      Issued s.dev e i ∧ e.rd SPX_VX_DESK_CNT i = min (s.dev.rd SPX_VX_DESK_CNT i + lost) 0xFFFFFFFF) ∧
  ∀ (s : State) (i lost op : Nat) (c : Instr), (c, op) ∈ [(Instr.vld i lost none, 0x48), (Instr.vst i lost none, 0x49)] →
    s.dev.canIssue i op = true → 8 < vFmt (s.dev.insAt i) →
    exec c s = .next { s with dev := (s.dev.counted i).endAt i 0x0201 }

/-! ## Number formats -/

/-- Conversion to a floating-point format. A finite element converts to its own format unchanged and counts nothing (R162,
R169). Every conversion rounds to nearest (R169): a result that is not limited is no further from the value than any other
finite element of the format; one that is limited is MAXF with the value's sign, and counts one saturation (R171, R174). -/
def Obligations.ConversionRoundsToNearest : Prop :=
  (∀ f c : Nat, f ≤ 6 → finiteCode f c = true → conv f (elemRaw f c) = (c, Tally.none)) ∧
  (∀ (f m : Nat) (neg : Bool) (e : Int), f ≤ 6 →
    let r := conv f (.num neg m e)
    (r.2.sat = 0 → finiteCode f r.1 = true ∧ ∀ c, finiteCode f c = true →
      magLe (distance f (.num neg m e) r.1).1 (distance f (.num neg m e) r.1).2
        (distance f (.num neg m e) c).1 (distance f (.num neg m e) c).2 = true)
      ∧ (r.2.sat ≠ 0 → r.2.sat = 1 ∧ elemRaw f r.1 = .num neg (maxfOf f).1 (maxfOf f).2))

/-- The transcendental functions at a finite nonzero argument of their domain (R262, Table 08-5): whatever the open bits are,
a result that FP32 can hold lies within the bound of the table of the exact value (judged on the safe side, the exact value
being known to 2^-16 ulp, log 74). -/
def Obligations.TranscendentalBound : Prop :=
  ∀ (op c m : Nat) (neg : Bool) (e : Int), op ∈ [0x30, 0x32, 0x33, 0x34, 0x35, 0x36, 0x37, 0x38, 0x39, 0x3A, 0x3B] →
    c < 2 ^ 32 → elemRaw 0 c = .num neg m e → m ≠ 0 → (op ∈ [0x32, 0x35, 0x36] → neg = false) →
    (op ∈ [0x3A, 0x3B] → magLe m e 65536 0 = true) → (conv 0 (exactOf op neg m e)).2.sat = 0 →
    withinUlp (ulpBound op) (exactOf op neg m e) (transc op c).1 = true

/-! ## The matrix engine -/

/-- TILE, TILE_COMPLETE, INT_SCALE_MISMATCH and SCALE_WAIT_EXPIRE (R187, R201, R205 to R209, R226). The array accepts the tile
at which the Spindle stands when it is free, or behind the tile in it, when the set is free and the panel is expanded, and the
Spindle goes on behind the tile instruction. When a product tile is done, every cell of its set holds its initial value with the
addends of its reduction added one by one, each sum rounded, of the operands as each step read them (R256); the cells of a POOL
tile hold their pooled taps (R238); a tile that drains hands its set over and the other one becomes active. A tile that met a
poisoned operand ends the command (R42). A tile whose INT8 scales differ ends the command with 0x0204; a wait for a group's
values that have not come ends it with 0x0203. -/
def Obligations.MatrixTiles : Prop :=
  (∀ (s : State) (i ip r : Nat), s.dev.canIssue i 6 = true → ip = s.dev.get SPX_VX_STAT.IP i → s.dev.spindleRoom i = some r →
    (s.dev.room r).unloadReq = false → (s.dev.sp i).arr2 = none →
    (∀ q, (s.dev.sp i).drn = some q → (s.dev.tileAt i ip).init = 2 ∨ q.set ≠ (s.dev.tileAt i ip).set) →
    ((s.dev.tileAt i ip).expands = true → (s.dev.sp i).expanded = some ip) →
    Answers (.tile i) s fun e =>
      (if (s.dev.sp i).arr = none then (e.sp i).arr = some (s.dev.tileAt i ip)
        else (e.sp i).arr = (s.dev.sp i).arr ∧ (e.sp i).arr2 = some (s.dev.tileAt i ip)) ∧ (e.sp i).issued = (s.dev.sp i).issued + 1
        ∧ e.get SPX_MX_STAT.BUSY i = 1
        ∧ e.get SPX_VX_STAT.IP i = (ip + if (s.dev.tileAt i ip).words.length = 16 then 5 else 3) % 4096
        ∧ RegsKept s.dev e (SPX_MX_STAT.addr i :: seqRegs i) ∧ e.mem = s.dev.mem) ∧
  (∀ (s : State) (i stall r : Nat) (t : Tile), i < 1024 → (s.dev.sp i).arr = some t → t.set < 2 →
    (t.drain = true → (s.dev.sp i).drn = none) → s.dev.mismatch i t = false →
    s.dev.tilePoison i t = none → s.dev.spindleRoom i = some r → s.dev.rd NUM_TRAP_CTL r = 0 →
    (s.dev.room r).trap = 0 → (s.dev.room r).holdReq = 0 → (s.dev.ftWin r).1 + (s.dev.ftWin r).2 ≤ spareEnd →
    Answers (.tileComplete i stall false none) s fun e =>
      (∀ x y, x < 128 → y < 128 →
        e.rdLe (deskBase i + offAcc t.set + 512 * x + 4 * y) 4 =
          let o := s.dev.operands i t
          cellCode (s.dev.accMode i t) (if t.method = 2 then
              (if y < t.cols then (s.dev.poolCell i t x y).v else s.dev.cell i t.set 0 x y)
            else ((addends (s.dev.accMode i t) (products o.1 o.2 x y)).foldl (addStep (s.dev.accMode i t))
              (((s.dev.viewAt i 0).cellInit i (s.dev.accMode i t) t x y).1, 0)).1))
        ∧ (e.sp i).arr = (s.dev.sp i).arr2 ∧ (e.sp i).arr2 = none ∧ (e.sp i).tileSeq = ((s.dev.sp i).tileSeq + 1) % 2 ^ 32
        ∧ e.get SPX_MX_STAT.BUSY i = bit (s.dev.sp i).arr2.isSome
        ∧ e.rd SPX_MX_TILE_CNT i = min (s.dev.rd SPX_MX_TILE_CNT i + 1) 0xFFFFFFFF
        ∧ (t.drain = true → (e.sp i).drn = some t ∧ e.get SPX_MX_STAT.DRAINING i = 1
            ∧ e.get SPX_MX_STAT.ACTIVE i = 1 - t.set)
        ∧ (t.drain = false → (e.sp i).drn = (s.dev.sp i).drn ∧ MemKept s.dev e (deskBase i + offAcc t.set) 65536)) ∧
  (∀ (s : State) (i stall : Nat) (fault : Bool) (t : Tile) (p : Nat × Nat), i < 1024 → (s.dev.sp i).arr = some t →
    (t.drain = true → (s.dev.sp i).drn = none) → s.dev.mismatch i t = false → s.dev.tilePoison i t = some p →
    exec (.tileComplete i stall fault none) s = .next { s with dev := s.dev.poisonRead i (p.1 - deskBase i) }) ∧
  (∀ (s : State) (i r : Nat) (t : Tile) (c : Cmd), i < 1024 → (s.dev.sp i).arr = some t → s.dev.mismatch i t = true →
    s.dev.spindleRoom i = some r → s.dev.running r = some c → s.dev.roomInRange r →
    Answers (.intScaleMismatch i) s fun e => Completed s.dev e c 0x0204 ∧ e.get ROOM_RUN.VALID r = 0) ∧
  (∀ (s : State) (i r g dl : Nat) (c : Cmd), i < 1024 → (s.dev.sp i).scaleWait = some (g, dl) → s.dev.spindleRoom i = some r →
    dl ≤ s.dev.now → s.dev.groupAgreed (s.dev.groupAddr r g) = false → s.dev.running r = some c →
    s.dev.roomInRange r →
    Answers (.scaleWaitExpire i) s fun e =>
      Completed s.dev e c 0x0203 ∧ e.get ROOM_RUN.VALID r = 0 ∧ e.get NUM_STATUS.AGREE_EV r = 1)

/-- DRAIN_COMPLETE and EXPAND_COMPLETE (R211, R212, R231). The drain of a set to the Desk leaves, at row r and column c of the
output, the cell as it stands (RAW) or converted to the output format, and the set is free again; the expander leaves in the
A panel of an EXPAND tile the slab element of each pixel and step, and +0 at a pad. -/
def Obligations.DrainAndExpand : Prop :=
  (∀ (s : State) (i r w : Nat) (t : Tile), i < 1024 → (s.dev.sp i).drn = some t → (s.dev.sp i).drainq = none →
    t.set < 2 → (t.method = 4 ∨ bitAt (t.w 15) 19 = false) → t.toYarn = false → s.dev.poisonW = [] → (s.dev.sp i).mergeDue = false →
    (t.raw = false → t.outFmt ≤ 7 ∧ blockScaled t.outFmt = false) →
    w = t.outWidth → s.dev.spindleRoom i = some r → s.dev.rd NUM_TRAP_CTL r = 0 → (s.dev.room r).trap = 0 →
    (s.dev.room r).holdReq = 0 →
    Answers (.drainComplete i none) s fun e =>
      (∀ x y, x < t.rows → y < t.cols →
        unpack w (e.rdLe (t.at i 4 + 16 * w * x) (16 * w)) y =
          if t.raw then s.dev.rdLe (deskBase i + offAcc t.set + 512 * x + 4 * y) 4
          else (conv t.outFmt (s.dev.drainVal i t x y)).1)
        ∧ (e.sp i).drn = none ∧ e.get SPX_MX_STAT.DRAINING i = 0 ∧ MemKept s.dev e (t.at i 4) (16 * w * t.rows)) ∧
  (∀ (s : State) (i ip f : Nat) (t : Tile), s.dev.canIssue i 6 = true → ip = s.dev.get SPX_VX_STAT.IP i →
    t = s.dev.tileAt i ip → t.method = 1 → t.reuse = false → (s.dev.sp i).expanded ≠ some ip → s.dev.poisonW = [] →
    f = s.dev.frameByte i 5 → blockScaled f = false →
    Answers (.expandComplete i none) s fun e =>
      (∀ p k, p < 128 → k < t.kt →
        unpack (fmtWidth f) (e.rdLe (t.at i 0 + 16 * fmtWidth f * k) (16 * fmtWidth f)) p =
          match t.pixel p (k / t.ct) with
          | some yx => (s.dev.slabCode i f t (k % t.ct) yx.1 yx.2).1
          | none => 0)
        ∧ (e.sp i).expanded = some ip ∧ e.regs = s.dev.regs ∧ MemKept s.dev e (t.at i 0) (16 * fmtWidth f * t.kt))

/-! ## Faults, retirements and substitutions -/

/-- PLANE_FAULT, IN_PLACE_TEST and STRIKE_LAPSE (R42, R518 to R520). A double-bit error of a plane ends the Room's command with
0x0B02 and strikes the Spindle; a single-bit one is corrected and counted, and strikes it only where CE_THRESH are reached.
A word that passes its in-place test holds the poison pattern and strikes its Spindle, once for the words of one abort (log
194); one that fails retires the Spindle in the fuse array. Strikes that are older than their window lapse, and no others. -/
def Obligations.SpindleFaults : Prop :=
  (∀ (s : State) (i r : Nat) (b : Bool) (c : Cmd), i < 1024 → s.dev.spindleRoom i = some r → s.dev.running r = some c →
    s.dev.roomInRange r →
    Answers (.planeFault i true b) s fun e => Completed s.dev e c 0x0B02 ∧ ∃ t, (Part.spindle i, t) ∈ e.flt.strikes) ∧
  (∀ (s : State) (i : Nat) (b : Bool), i < 1024 → exec (.planeFault i false b) s = .next { s with dev := s.dev.correctedWord i }) ∧
  (∀ (s : State) (i : Nat) (b : Bool), i < 1024 →
    ((tget (fun _ => []) s.dev.flt.ceNow i).filter fun t => decide (s.dev.now < t + 1000000000)).length + 1
      < s.dev.get FLT_CTL.CE_THRESH 0 →
    Answers (.planeFault i false b) s fun e =>
      e.rd FLT_LOG_CE i = min (s.dev.rd FLT_LOG_CE i + 1) 0xFFFFFFFF ∧ RegsKept s.dev e [FLT_LOG_CE.addr i]
        ∧ e.flt.strikes = s.dev.flt.strikes ∧ e.mem = s.dev.mem) ∧
  (∀ (s : State) (a : Nat) (d : Dev), a ∈ s.dev.flt.suspects →
    d = { s.dev with flt := { s.dev.flt with suspects := srem a s.dev.flt.suspects } } →
    s.dev.strikesOf (.spindle (spindleAt a)) + 1 < s.dev.get FLT_CTL.STRIKES 0 →
    Answers (.inPlaceTest a false) s fun e =>
      a ∉ e.flt.suspects ∧ (a % 2 ^ 24 < 0x8A0000 → a ∈ e.poisonW)
        ∧ e.flt.strikes = s.dev.flt.strikes
          ++ (if d.moreTests (spindleAt a) then [] else [(Part.spindle (spindleAt a), s.dev.now)])) ∧
  (∀ (s : State) (a : Nat), a ∈ s.dev.flt.suspects → s.dev.flt.wdogBusy = false →
    s.dev.get FLT_SPX_STAT.RETIRED (spindleAt a) = 0 →
    Answers (.inPlaceTest a true) s fun e => a ∉ e.flt.suspects ∧ Part.spindle (spindleAt a) ∈ e.flt.otp) ∧
  (∀ (s : State) (p : Part), p.exists? = true →
    Answers (.strikeLapse p) s fun e =>
      (∀ x, x ∈ e.flt.strikes ↔ x ∈ s.dev.flt.strikes ∧ (x.1 = p → s.dev.now ≤ x.2 + s.dev.strikeWindow p))
        ∧ e.mem = s.dev.mem)

/-- FLT_SPX_RETIRE, PREVENTIVE_HOLD, SPARE_SUBSTITUTION and STATE_COPY_DONE (R49, R50, R521, R523). A Spindle that the host
retires, a spare being free, is burned, shown as retired and waits for its substitution; once its turn comes the Room stops
for it. A substitution brings the lowest free spare of the die into the logical position, or leaves the Room held with
cause 3 where a Yarn has no legal route, the Spindle then waiting for the Room's unload; a Room held for another reason stays
so meanwhile; the next one waits its turn. -/
def Obligations.Substitutions : Prop :=
  (∀ (s : State) (i sp : Nat), i < 1024 → s.dev.windowServed 0 FLT_SPX_CTL.base = true → s.dev.flt.wdogBusy = false →
    s.dev.get FLT_SPX_STAT.RETIRED i = 0 → s.dev.get SPX_STATE.STATE i ≠ 1 → s.dev.freeSpare (i / 64) = some sp →
    Answers (.fltSpxRetire 0 i) s fun e =>
      e.get FLT_SPX_STAT.RETIRED i = 1 ∧ Part.spindle i ∈ e.flt.otp
        ∧ e.flt.queue = s.dev.flt.queue ++ [⟨i, true, false⟩] ∧ e.get FLT_STAT.REC_EV 0 = 1 ∧ e.mem = s.dev.mem) ∧
  (∀ (s : State) (i r sp : Nat) (q : Retirement) (t : List Retirement), i < 1024 → s.dev.flt.queue = q :: t →
    q.spindle = i → q.preventive = true → s.dev.que.op = none → s.dev.flt.wdogBusy = false →
    s.dev.freeSpare (i / 64) = some sp → s.dev.spindleRoom i = some r → s.dev.substitutable r = true →
    Answers (.preventiveHold i) s fun e =>
      e.que.op = some ⟨.substitution, r, 0, false, i⟩ ∧ e.flt.queue = { q with copied := true } :: t) ∧
  (∀ (s : State) (l sp : Nat) (q : Retirement) (t : List Retirement), s.dev.flt.queue = q :: t → q.preventive = false →
    q.spindle < 1024 → s.dev.que.op = none → s.dev.flt.wdogBusy = false → s.dev.freeSpare (q.spindle / 64) = some sp →
    s.dev.spindleRoom q.spindle = none → s.dev.get SPX_STATE.STATE q.spindle ≠ 1 → l = s.dev.logicalOf q.spindle → l < 960 →
    Answers .spareSubstitution s fun e =>
      e.flt.queue = t ∧ e.get SPX_STATE.STATE sp = 0 ∧ e.get SPX_STATE.STATE q.spindle = 2
        ∧ e.get SPX_REMAP.PHYS l = sp % 64 ∧ e.get SPX_REMAP.MAPPED l = 1 ∧ e.mem = s.dev.mem) ∧
  (∀ (s : State) (l r sp : Nat) (q : Retirement) (t : List Retirement), s.dev.flt.queue = q :: t → q.preventive = false →
    q.spindle < 1024 → s.dev.que.op = none → s.dev.flt.wdogBusy = false → s.dev.freeSpare (q.spindle / 64) = some sp →
    s.dev.spindleRoom q.spindle = some r → s.dev.substitutable r = true →
    (s.dev.spindlesFree r = true ∨ s.dev.allStopped r = true) → s.dev.get SPX_STATE.STATE q.spindle ≠ 1 →
      l = s.dev.logicalOf q.spindle → l < 960 →
    Answers .spareSubstitution s fun e =>
      e.flt.queue = t ∧ e.que.op = none
        ∧ ((e.roomState r = stHeld ∧ e.get ROOM_STATUS.HOLD_CAUSE r = 3 ∧ q.spindle ∈ e.flt.failed)
          ∨ (e.get SPX_STATE.STATE sp = 0 ∧ e.get SPX_STATE.STATE q.spindle = 2 ∧ e.get SPX_REMAP.PHYS l = sp % 64))) ∧
  (∀ (s : State) (l r sp : Nat) (q : Retirement) (t : List Retirement), s.dev.flt.queue = q :: t → q.preventive = false →
    q.spindle < 1024 → s.dev.que.op = none → s.dev.flt.wdogBusy = false → s.dev.freeSpare (q.spindle / 64) = some sp →
    s.dev.spindleRoom q.spindle = some r → s.dev.substitutable r = false →
    s.dev.get SPX_STATE.STATE q.spindle ≠ 1 → l = s.dev.logicalOf q.spindle → l < 960 →
    Answers .spareSubstitution s fun e =>
      e.flt.queue = t ∧ e.que.op = none ∧ e.roomState r = s.dev.roomState r
        ∧ e.get ROOM_STATUS.HOLD_CAUSE r = s.dev.get ROOM_STATUS.HOLD_CAUSE r
        ∧ (q.spindle ∈ e.flt.failed
          ∨ (e.get SPX_STATE.STATE sp = 0 ∧ e.get SPX_STATE.STATE q.spindle = 2 ∧ e.get SPX_REMAP.PHYS l = sp % 64))) ∧
  (∀ (s : State) (l r sp : Nat) (q : Retirement) (t : List Retirement) (o : LoadOp), s.dev.flt.queue = q :: t →
    q.copied = true → q.spindle < 1024 → s.dev.que.op = some o → o.kind = .substitution → o.room = r → r < 16 →
    s.dev.freeSpare (q.spindle / 64) = some sp → s.dev.roomState r = stHeld → s.dev.get ROOM_STATUS.HOLD_CAUSE r = 2 →
    (∀ j ∈ s.dev.roomSpindles r, j < 1024 ∧ s.dev.reelDrained j = true) → s.dev.get SPX_STATE.STATE q.spindle ≠ 1 →
    l = s.dev.logicalOf q.spindle → l < 960 →
    Answers .stateCopyDone s fun e =>
      e.flt.queue = t ∧ e.que.op = none
        ∧ ((e.roomState r = stHeld ∧ e.get ROOM_STATUS.HOLD_CAUSE r = 3 ∧ q.spindle ∈ e.flt.failed)
          ∨ (e.get SPX_STATE.STATE sp = 0 ∧ e.get SPX_STATE.STATE q.spindle = 2 ∧ e.get SPX_REMAP.PHYS l = sp % 64)))

/-- ENGINE_FAULT, MESH_CRC_ERROR, WATCHDOG_EXPIRE and WATCHDOG_RESTART_DONE (R518, R520, R527, R528). A fault of an engine at
work strikes it. Mesh replays are counted; more than 1,000, or a lost lock, enter FATAL, in which every LOADED Room is held
with cause 6. The watchdog's restart shows WDOG_EV and its alert cause, a second one within 1 h enters FATAL, and what falls
due meanwhile waits for its end. -/
def Obligations.EngineMeshWatchdog : Prop :=
  (∀ (s : State) (k at' r : Nat), k < 122 → s.dev.engineFor k = some r →
    Answers (.engineFault k at') s fun e => ∃ t, (Part.engine k, t) ∈ e.flt.strikes) ∧
  (∀ (s : State) (tile link n : Nat), tile < 4 → n ≤ 1000 →
    Answers (.meshCrcError tile link n false) s fun e =>
      e.rd FLT_MESH_CNT 0 = min (s.dev.rd FLT_MESH_CNT 0 + n) 0xFFFFFFFF ∧ RegsKept s.dev e [FLT_MESH_CNT.addr 0]
        ∧ e.mem = s.dev.mem) ∧
  (∀ (s : State) (tile link n : Nat) (b : Bool), tile < 4 → (b = true ∨ 1000 < n) → s.dev.get FLT_STAT.FATAL 0 = 0 →
    (∀ r, r < 16 → s.dev.roomInRange r) →
    Answers (.meshCrcError tile link n b) s fun e =>
      e.get FLT_STAT.FATAL 0 = 1 ∧ bitAt e.mgmt.causes 1 = true
        ∧ ∀ r, r < 16 → s.dev.roomState r = stLoaded → e.roomState r = stHeld ∧ e.get ROOM_STATUS.HOLD_CAUSE r = 6) ∧
  (∀ s : State, s.dev.flt.wdogBusy = false → (∀ r, r < 16 → s.dev.roomInRange r) →
    (∀ c ∈ s.dev.que.cmds, c.queue < 16384) →
    Answers .watchdogExpire s fun e =>
      e.flt.wdogBusy = true ∧ e.flt.wdogLast = some s.dev.now ∧ e.get FLT_STAT.WDOG_EV 0 = 1
        ∧ bitAt e.mgmt.causes 5 = true
        ∧ (∀ t, s.dev.flt.wdogLast = some t → s.dev.now ≤ t + 3600000000000 → e.get FLT_STAT.FATAL 0 = 1)) ∧
  (∀ s : State, s.dev.flt.wdogBusy = true →
    Answers .watchdogRestartDone s fun e => e.flt.wdogBusy = false ∧ e.flt.deferred = [])

/-! ## Skein tables and blocks -/

/-- TABLE_LOAD, TABLE_LOAD_END and SLOT_CLOSE (R300, R301): a load of a slot that no block references begins and latches its
address; one of a referenced slot ends at once with 0x0510, and one that a foreign function asks for with 0x0514, in that
function's own Room, whose own slot's load goes on. A load of a valid table makes the slot valid with the table and its
identifier, once its read has issued (R322); a misaligned address ends it with 0x0512. CLOSE stores the bit. SKEIN_BLOCK_DECODE
(R306): a block whose header passes its checks takes its stored size from it; one whose header fails one is corrupt, and its
address is latched (R308); one whose stored bytes have come and decode puts its raw bytes into its buffer, counts them and
leaves the Reel. -/
def Obligations.SkeinTables : Prop :=
  (∀ (s : State) (r k : Nat), r < 16 → k < 4 → s.dev.windowServed 0 SKN_TABLE_SLOT.base = true →
    s.dev.get SKN_TABLE_SLOT.LOADING (4 * r + k) = 0 → s.dev.get SKN_TABLE_SLOT.REFS (4 * r + k) = 0 →
    Answers (.tableLoad 0 r k) s fun e =>
      e.get SKN_TABLE_SLOT.GO (4 * r + k) = 1 ∧ e.get SKN_TABLE_SLOT.LOADING (4 * r + k) = 1
        ∧ (e.slot r k).addr = s.dev.get64 SKN_TABLE_ADDR_LO SKN_TABLE_ADDR_HI (4 * r + k)
        ∧ RegsKept s.dev e [SKN_TABLE_SLOT.addr (4 * r + k)] ∧ e.mem = s.dev.mem) ∧
  (∀ (s : State) (r k : Nat), r < 16 → k < 4 → s.dev.windowServed 0 SKN_TABLE_SLOT.base = true →
    s.dev.get SKN_TABLE_SLOT.LOADING (4 * r + k) = 0 → s.dev.get SKN_TABLE_SLOT.REFS (4 * r + k) ≠ 0 →
    Answers (.tableLoad 0 r k) s fun e =>
      e.get SKN_TABLE_SLOT.CODE (4 * r + k) = 0x0510 ∧ e.get SKN_TABLE_SLOT.LOADING (4 * r + k) = 0
        ∧ bitAt (e.get SKN_STAT.LOAD_FAIL r) k = true
        ∧ RegsKept s.dev e (SKN_TABLE_SLOT.addr (4 * r + k) :: SKN_STAT.addr r :: irqRegs (1 + r)) ∧ e.mem = s.dev.mem) ∧
  (∀ (s : State) (fn r k : Nat), r < 16 → k < 4 → fn ≠ 0 → fn ≤ 16 → fn ≠ r + 1 →
    s.dev.windowServed fn SKN_TABLE_SLOT.base = true →
    Answers (.tableLoad fn r k) s fun e =>
      e.get SKN_TABLE_SLOT.CODE (4 * (fn - 1) + k) = 0x0514 ∧ bitAt (e.get SKN_STAT.LOAD_FAIL (fn - 1)) k = true
        ∧ e.get SKN_TABLE_SLOT.LOADING (4 * (fn - 1) + k) = s.dev.get SKN_TABLE_SLOT.LOADING (4 * (fn - 1) + k)
        ∧ e.rd SKN_TABLE_SLOT (4 * r + k) = s.dev.rd SKN_TABLE_SLOT (4 * r + k) ∧ e.mem = s.dev.mem) ∧
  (∀ (s : State) (r k a : Nat), r < 16 → k < 4 → s.dev.get SKN_TABLE_SLOT.LOADING (4 * r + k) = 1 → a = (s.dev.slot r k).addr →
    a % 128 = 0 → inside (s.dev.ftWin r) a 128 = true → s.dev.poisoned a 128 = false →
    s.dev.requestWaits (some r) a 128 = false →
    skValid (s.dev.rdBytes a 128) = true →
    Answers (.tableLoadEnd r k) s fun e =>
      (e.slot r k).table = s.dev.rdBytes a 128 ∧ e.get SKN_TABLE_SLOT.VALID (4 * r + k) = 1
        ∧ e.get SKN_TABLE_SLOT.LOADING (4 * r + k) = 0 ∧ e.get SKN_TABLE_SLOT.CODE (4 * r + k) = 0
        ∧ e.rd SKN_TABLE_ID (4 * r + k) = crc32 (s.dev.rdBytes a 128) ∧ bitAt (e.get SKN_STAT.LOAD_DONE r) k = true
        ∧ e.bal (2 * r + tierOf a) = s.dev.bal (2 * r + tierOf a) - 10 * (chargeOf false a 128 : Int) ∧ e.mem = s.dev.mem) ∧
  (∀ (s : State) (r k : Nat), r < 16 → k < 4 → s.dev.get SKN_TABLE_SLOT.LOADING (4 * r + k) = 1 →
    (s.dev.slot r k).addr % 128 = 0 → inside (s.dev.ftWin r) (s.dev.slot r k).addr 128 = true →
    s.dev.requestWaits (some r) (s.dev.slot r k).addr 128 = true →
    Answers (.tableLoadEnd r k) s fun e =>
      e.skn = s.dev.skn ∧ RegsKept s.dev e [MEM_REG_BUDGET.addr (2 * r + tierOf (s.dev.slot r k).addr)] ∧ e.mem = s.dev.mem) ∧
  (∀ (s : State) (r k : Nat), r < 16 → k < 4 → s.dev.get SKN_TABLE_SLOT.LOADING (4 * r + k) = 1 →
    (s.dev.slot r k).addr % 128 ≠ 0 →
    Answers (.tableLoadEnd r k) s fun e =>
      e.get SKN_TABLE_SLOT.CODE (4 * r + k) = 0x0512 ∧ bitAt (e.get SKN_STAT.LOAD_FAIL r) k = true
        ∧ e.get SKN_TABLE_SLOT.VALID (4 * r + k) = s.dev.get SKN_TABLE_SLOT.VALID (4 * r + k)
        ∧ (e.slot r k).table = (s.dev.slot r k).table ∧ e.mem = s.dev.mem) ∧
  (∀ (s : State) (fn r k : Nat) (b : Bool), r < 16 → k < 4 → mayAct fn r = true →
    s.dev.windowServed fn SKN_TABLE_SLOT.base = true →
    Answers (.slotClose fn r k b) s fun e =>
      e.get SKN_TABLE_SLOT.CLOSE (4 * r + k) = (if b then 1 else 0) ∧ RegsKept s.dev e [SKN_TABLE_SLOT.addr (4 * r + k)]
        ∧ e.mem = s.dev.mem) ∧
  (∀ (s : State) (i k r w0 : Nat) (b : SkBlock) (first : List (BitVec 8)), s.dev.spindleRoom i = some r →
    (s.dev.reel i).blocks.find? (fun x => !x.write && x.stream == k) = some b → b.size = 0 →
    b.pieces.find? (fun p => p.1 == 0) = some (0, first) → w0 = ofLe (first.take 4) →
    skHeadCode (s.dev.skTable r (bitsOf w0 25 2)) (first.take 16) ((List.range 16).any (badByte b.bad))
      (s.dev.stf i k 0x50 4 - 4096 * b.row) (s.dev.rowLen i k b.row) = 0 →
    b.slot = (if bitAt w0 24 then some (bitsOf w0 25 2) else none) →
    Answers (.skeinBlockDecode i k) s fun e =>
      (e.reel i).blocks = (s.dev.reel i).blocks.map (fun x => if x == b then { b with size := 16 + bitsOf w0 12 12 + 1 } else x)
        ∧ e.regs = s.dev.regs ∧ e.mem = s.dev.mem) ∧
  (∀ (s : State) (i k r u a : Nat) (b : SkBlock) (first bs : List (BitVec 8)), s.dev.spindleRoom i = some r →
    (s.dev.reel i).blocks.find? (fun x => !x.write && x.stream == k) = some b →
    k < (s.dev.reel i).streams.length → b.pieces.find? (fun p => p.1 == 0) = some (0, first) →
    skHeadCode (s.dev.skTable r (bitsOf (ofLe (first.take 4)) 25 2)) (first.take 16) ((List.range 16).any (badByte b.bad))
      (s.dev.stf i k 0x50 4 - 4096 * b.row) (s.dev.rowLen i k b.row) = 0 →
    b.size ≠ 0 → b.size ≤ (b.pieces.map fun p => p.2.length).foldl (· + ·) 0 →
    skDecode (s.dev.skTable r (bitsOf (ofLe (first.take 4)) 25 2)) (joinPieces b.pieces b.size) b.bad
      (s.dev.stf i k 0x50 4 - 4096 * b.row) (s.dev.rowLen i k b.row) = .raw bs →
    u = b.row / max 1 (s.dev.stUnitRows i k) → a = s.dev.bufAddr i k u + 4096 * (b.row % max 1 (s.dev.stUnitRows i k)) →
    Answers (.skeinBlockDecode i k) s fun e =>
      e.rdBytes a bs.length = bs ∧ MemKept s.dev e a bs.length ∧ (e.reel i).blocks = (s.dev.reel i).blocks.filter (· != b)
        ∧ (e.strm i k).have u = (s.dev.strm i k).have u + s.dev.rowLen i k b.row
        ∧ e.get64 SKN_RAW_BYTES_LO SKN_RAW_BYTES_HI r = (s.dev.get64 SKN_RAW_BYTES_LO SKN_RAW_BYTES_HI r + bs.length) % 2 ^ 64
        ∧ e.get64 SKN_STORED_BYTES_LO SKN_STORED_BYTES_HI r
          = (s.dev.get64 SKN_STORED_BYTES_LO SKN_STORED_BYTES_HI r + b.size) % 2 ^ 64
        ∧ RegsKept s.dev e [SKN_TABLE_SLOT.addr (4 * r + b.slot.getD 0), SKN_RAW_BYTES_LO.addr r, SKN_RAW_BYTES_HI.addr r,
          SKN_STORED_BYTES_LO.addr r, SKN_STORED_BYTES_HI.addr r]) ∧
  (∀ (s : State) (i k r : Nat) (b : SkBlock) (first : List (BitVec 8)), s.dev.spindleRoom i = some r → r < 16 →
    (s.dev.reel i).blocks.find? (fun x => !x.write && x.stream == k) = some b →
    b.pieces.find? (fun p => p.1 == 0) = some (0, first) →
    skHeadCode (s.dev.skTable r (bitsOf (ofLe (first.take 4)) 25 2)) (first.take 16) ((List.range 16).any (badByte b.bad))
      (s.dev.stf i k 0x50 4 - 4096 * b.row) (s.dev.rowLen i k b.row) ≠ 0 →
    Answers (.skeinBlockDecode i k) s fun e =>
      e.get SKN_STAT.CORRUPT_EV r = 1
        ∧ (s.dev.get SKN_STAT.CORRUPT_EV r = 0 → e.get64 SKN_ERR_ADDR_LO SKN_ERR_ADDR_HI r = b.addr % 2 ^ 64)
        ∧ e.rd SKN_ERR_CNT r = min (s.dev.rd SKN_ERR_CNT r + 1) 0xFFFFFFFF)
/-! ## Memory tiers -/

/-- REFILL (R321), MEM_REQUEST_ISSUE (R317, R322), MEM_READ_RETURN (R326, R327), HOLD_RETRY (R332) and SCRUB_READ (R330). Every
refill adds a regulator's rate to its balance, up to four refills. A request within its Room's windows issues when its
balance is positive, in order, and is charged its sectors, and a write that nothing of its Room goes before is performed; one
whose balance is not positive waits and shows HELD; one outside ends with its code and WIN_EV. A read returns in its turn the bytes
that memory holds, its corrections counted and its uncorrectable sectors counted and marked; one whose transfer failed the link
check four times waits for a retraining, or is repeated where another channel of its tier retrains. A request that a full hold queue
returned is issued again as a new one. The scrub counts corrections and shows its progress, and reads no retired channel. -/
def Obligations.MemoryRequests : Prop :=
  (∀ s : State, (∀ q ∈ s.dev.memx.reqs, q.phase ≠ .tokens) →
    Answers .refill s fun e =>
      (∀ k, k < 32 → e.bal k =
        min (s.dev.bal k + ((s.dev.share (k / 2) (k % 2)).1 * perShare (k % 2) : Nat))
          (4 * ((s.dev.share (k / 2) (k % 2)).1 * perShare (k % 2) : Nat)))
        ∧ e.memx.reqs = s.dev.memx.reqs ∧ e.mem = s.dev.mem) ∧
  (∀ (s : State) (id r k ch : Nat) (q : MemReq), s.dev.req? id = some q → q.phase = .tokens → q.room = some r → r < 16 →
    s.dev.inWindows r q.addr q.len = true → k = 2 * r + tierOf q.addr → 0 < s.dev.bal k →
    (∀ x ∈ s.dev.memx.reqs, x.phase = .tokens → q.id ≤ x.id) → q.write = false → s.dev.homeOf q.addr = some ch →
    s.dev.get MEM_CHAN_STATE.STATE ch ≠ 1 →
    Answers (.memRequestIssue id) s fun e =>
      e.req? id = some { q with phase := .flight, arr := if q.arr = 0 then s.dev.memx.arrivals + 1 else q.arr }
        ∧ e.bal k = s.dev.bal k - 10 * (chargeOf false q.addr q.len : Int)
        ∧ e.out = .memReq false q.addr q.len :: s.dev.out ∧ RegsKept s.dev e [MEM_REG_BAL.addr k, MEM_REG_BUDGET.addr k]
        ∧ e.mem = s.dev.mem) ∧
  (∀ (s : State) (id r k ch : Nat) (q : MemReq), s.dev.req? id = some q → q.phase = .tokens → q.room = some r → r < 16 →
    s.dev.inWindows r q.addr q.len = true → k = 2 * r + tierOf q.addr → 0 < s.dev.bal k →
    (∀ x ∈ s.dev.memx.reqs, x.phase = .tokens → q.id ≤ x.id) → q.write = true → s.dev.homeOf q.addr = some ch →
    s.dev.get MEM_CHAN_STATE.STATE ch ≠ 1 → (∀ x ∈ s.dev.memx.reqs, x.phase ≠ .held ∧ x.phase ≠ .queued ∧ x.phase ≠ .flight) →
    s.dev.memx.dead = [] → q.bad = [] → q.len = q.data.length →
    Answers (.memRequestIssue id) s fun e =>
      e.endCode id = some 0 ∧ e.rdBytes q.addr q.len = q.data ∧ MemKept s.dev e q.addr q.len
        ∧ e.bal k = s.dev.bal k - 10 * (chargeOf true q.addr q.len : Int)
        ∧ RegsKept s.dev e [MEM_REG_BAL.addr k, MEM_REG_BUDGET.addr k]) ∧
  (∀ (s : State) (id r k : Nat) (q : MemReq), s.dev.req? id = some q → q.phase = .tokens → q.room = some r → r < 16 →
    s.dev.inWindows r q.addr q.len = true → k = 2 * r + tierOf q.addr → s.dev.bal k ≤ 0 → s.dev.holdFull q = false →
    Answers (.memRequestIssue id) s fun e =>
      e.req? id = some q ∧ e.get MEM_REG_BUDGET.HELD k = 1 ∧ RegsKept s.dev e [MEM_REG_BUDGET.addr k] ∧ e.mem = s.dev.mem) ∧
  (∀ (s : State) (id r : Nat) (q : MemReq), s.dev.req? id = some q → q.phase = .tokens → q.room = some r → r < 16 →
    s.dev.inWindows r q.addr q.len = false →
    Answers (.memRequestIssue id) s fun e =>
      e.req? id = some { q with phase := .ended 0x0401 } ∧ e.get MEM_ROOM_STAT.WIN_EV r = 1
        ∧ RegsKept s.dev e (MEM_ROOM_STAT.addr r :: irqRegs (1 + r)) ∧ e.mem = s.dev.mem) ∧
  (∀ (s : State) (id ce ch : Nat) (link : List Nat) (q : MemReq), s.dev.req? id = some q → q.phase = .flight → q.write = false →
    s.dev.before q = [] → (∀ x ∈ s.dev.memx.reqs, x.phase ≠ .queued) → s.dev.homeOf q.addr = some ch → ch < 448 → ch ∉ link →
    ch ∉ s.dev.memx.dead →
    Answers (.memReadReturn (some id) link [(ch, ce)] []) s fun e =>
      (∃ x, e.req? id = some x ∧ x.phase = .ended 0 ∧ x.data = s.dev.rdBytes q.addr q.len
        ∧ x.bad = s.dev.badRanges q.addr q.len)
        ∧ e.rd MEM_CE_CNT ch = min (s.dev.rd MEM_CE_CNT ch + ce) 0xFFFFFFFF ∧ RegsKept s.dev e [MEM_CE_CNT.addr ch]
        ∧ e.mem = s.dev.mem) ∧
  (∀ (s : State) (id ch sector kind : Nat) (q : MemReq), s.dev.req? id = some q → q.phase = .flight → q.write = false →
    s.dev.before q = [] → (∀ x ∈ s.dev.memx.reqs, x.phase ≠ .queued) → sector ∈ sectorsOf q.addr q.len →
    s.dev.homeOf sector = some ch → s.dev.badSector sector = false →
    Answers (.memReadReturn (some id) [] [] [(sector, kind)]) s fun e =>
      (∃ x, e.req? id = some x ∧ x.phase = .ended 0 ∧ x.bad ≠ []) ∧ e.badSector sector = true
        ∧ e.rd MEM_UE_CNT ch = min (s.dev.rd MEM_UE_CNT ch + 1) 0xFFFFFFFF ∧ e.get MEM_STATUS.POISON_EV 0 = 1
        ∧ e.mem = s.dev.mem) ∧
  (∀ (s : State) (id ch : Nat) (link : List Nat) (ce ue : List (Nat × Nat)) (q : MemReq), s.dev.req? id = some q →
    q.phase = .flight → q.write = false → s.dev.before q = [] → s.dev.homeOf q.addr = some ch → ch ∈ link →
    Answers (.memReadReturn (some id) link ce ue) s fun e =>
      e.req? id = some (if s.dev.tierTraining ch then q else { q with phase := .held }) ∧ ch ∈ e.memx.trainWait
        ∧ e.regs = s.dev.regs ∧ e.mem = s.dev.mem) ∧
  (∀ (s : State) (ce ch : Nat), ch < 448 → ch ∉ s.dev.memx.dead →
    Answers (.memReadReturn none [ch] [(ch, ce)] []) s fun e =>
      ch ∈ e.memx.trainWait ∧ e.rd MEM_CE_CNT ch = min (s.dev.rd MEM_CE_CNT ch + ce) 0xFFFFFFFF
        ∧ RegsKept s.dev e [MEM_CE_CNT.addr ch] ∧ e.mem = s.dev.mem) ∧
  (∀ (s : State) (id r k ch : Nat) (q : MemReq), s.dev.req? id = some q → q.phase = .retry → q.room = some r → r < 16 →
    s.dev.inWindows r q.addr q.len = true → k = 2 * r + tierOf q.addr → 0 < s.dev.bal k →
    (∀ x ∈ s.dev.memx.reqs, x.phase = .tokens → q.id ≤ x.id) → q.write = false → s.dev.homeOf q.addr = some ch →
    s.dev.get MEM_CHAN_STATE.STATE ch ≠ 1 →
    Answers (.holdRetry id) s fun e =>
      e.req? id = some { q with phase := .flight, arr := if q.arr = 0 then s.dev.memx.arrivals + 1 else q.arr }
        ∧ e.bal k = s.dev.bal k - 10 * (chargeOf false q.addr q.len : Int)
        ∧ e.out = .memReq false q.addr q.len :: s.dev.out ∧ RegsKept s.dev e [MEM_REG_BAL.addr k, MEM_REG_BUDGET.addr k]
        ∧ e.mem = s.dev.mem) ∧
  (∀ (s : State) (sector ce progress ch : Nat), s.dev.homeOf sector = some ch → ch < 448 → s.dev.get MEM_SCRUB_CTL.EN 0 = 1 →
    ch ∉ s.dev.memx.dead → s.dev.get MEM_CHAN_STATE.STATE ch ≠ 3 → s.dev.get MEM_CHAN_STATE.STATE ch ≠ 4 → progress ≤ 100 →
    Answers (.scrubRead sector ce none progress) s fun e =>
      e.get MEM_SCRUB_STAT.PROGRESS 0 = progress ∧ e.rd MEM_CE_CNT ch = min (s.dev.rd MEM_CE_CNT ch + ce) 0xFFFFFFFF
        ∧ RegsKept s.dev e [MEM_SCRUB_STAT.addr 0, MEM_CE_CNT.addr ch] ∧ e.mem = s.dev.mem) ∧
  (∀ (s : State) (sector ce progress ch : Nat) (ue : Option Nat), s.dev.homeOf sector = some ch →
    s.dev.get MEM_CHAN_STATE.STATE ch = 3 → Sys2Proof.Machine.exec (.scrubRead sector ce ue progress) s = .next s)

/-- RETRAIN_START and RETRAIN_END (R331 to R334), CHAN_RETRAIN, CHAN_RETIRE (R334, R338) and EXTENT_COPY_DONE (R338). A channel
that is due retrains when no channel of its tier does; a retraining that passes returns it to its state, and a failed one makes
a capacity-tier channel DEAD, and a fast-tier channel RETIRED at once, or DEAD where too few spare extents are free. A request
of the host queues a retraining, or begins the migration of a fast-tier channel for which spare extents are free. A copied
extent is redirected and advances EXT_DONE, and the last one retires the channel; nothing is copied in Recess or while the
channel retrains. -/
def Obligations.ChannelService : Prop :=
  (∀ (s : State) (ch : Nat), ch < 448 → ch ∈ s.dev.memx.trainWait → s.dev.tierTraining ch = false →
    s.dev.get MEM_CHAN_STATE.STATE ch ≠ 1 → s.dev.get MEM_CHAN_STATE.STATE ch ≠ 3 → s.dev.get MEM_CHAN_STATE.STATE ch ≠ 4 →
    s.dev.get PWR_RECESS.STATE 0 = 0 →
    Answers (.retrainStart ch) s fun e =>
      e.get MEM_CHAN_STATE.STATE ch = 1 ∧ (ch, s.dev.get MEM_CHAN_STATE.STATE ch) ∈ e.memx.prior ∧ ch ∉ e.memx.trainWait
        ∧ e.get MEM_STATUS.RETRAIN_EV 0 = 1 ∧ e.rd MEM_RETRAIN_CNT ch = min (s.dev.rd MEM_RETRAIN_CNT ch + 1) 0xFFFFFFFF
        ∧ e.mem = s.dev.mem) ∧
  (∀ (s : State) (ch st : Nat), ch < 448 → s.dev.memx.prior.find? (fun p => p.1 == ch) = some (ch, st) → st < 8 →
    (∀ q ∈ s.dev.memx.reqs, q.phase ≠ .held) → s.dev.trainCount ch < s.dev.get MEM_RT_CTL.RETIRE_N 0 →
    s.dev.memx.retireQ = [] →
    Answers (.retrainEnd ch 0) s fun e =>
      e.get MEM_CHAN_STATE.STATE ch = st ∧ e.get MEM_CHAN_STATE.MARGINAL ch = 0 ∧ (∀ p ∈ e.memx.prior, p.1 ≠ ch)
        ∧ RegsKept s.dev e [MEM_CHAN_STATE.addr ch] ∧ e.mem = s.dev.mem) ∧
  (∀ (s : State) (ch st : Nat), 384 ≤ ch → ch < 448 → s.dev.memx.prior.find? (fun p => p.1 == ch) = some (ch, st) →
    (∀ q ∈ s.dev.memx.reqs, q.phase ≠ .held) → s.dev.memx.retireQ = [] →
    Answers (.retrainEnd ch 2) s fun e =>
      e.get MEM_CHAN_STATE.STATE ch = 4 ∧ ch ∈ e.memx.dead ∧ e.get MEM_STATUS.DEAD_EV 0 = 1 ∧ Part.ctChannel ch ∈ e.flt.otp
        ∧ e.mem = s.dev.mem) ∧
  (∀ (s : State) (ch st : Nat), ch < 384 → s.dev.memx.prior.find? (fun p => p.1 == ch) = some (ch, st) →
    (∀ q ∈ s.dev.memx.reqs, q.phase ≠ .held) → s.dev.memx.retireQ = [] → s.dev.memx.mig = none →
    st = 5 ∨ s.dev.get MEM_SPARE_STAT.FREE 0 < s.dev.needed ch →
    Answers (.retrainEnd ch 2) s fun e =>
      e.get MEM_CHAN_STATE.STATE ch = 4 ∧ ch ∈ e.memx.dead ∧ e.get MEM_STATUS.DEAD_EV 0 = 1 ∧ e.get MEM_STATUS.SPARE_EV 0 = 1
        ∧ e.mem = s.dev.mem) ∧
  (∀ (s : State) (ch st : Nat), ch < 384 → s.dev.memx.prior.find? (fun p => p.1 == ch) = some (ch, st) → st ≠ 5 →
    (∀ q ∈ s.dev.memx.reqs, q.phase ≠ .held) → s.dev.memx.retireQ = [] → s.dev.memx.mig = none →
    s.dev.needed ch ≤ s.dev.get MEM_SPARE_STAT.FREE 0 →
    Answers (.retrainEnd ch 2) s fun e =>
      e.get MEM_CHAN_STATE.STATE ch = 3 ∧ e.get MEM_STATUS.RETIRE_EV 0 = 1 ∧ Part.ftChannel ch ∈ e.flt.otp
        ∧ e.get MEM_CHAN_STATE.HOSTED ch = 0 ∧ e.mem = s.dev.mem) ∧
  (∀ (s : State) (ch : Nat), ch < 448 → s.dev.windowServed 0 MEM_CHAN_CTL.base = true → ch ∉ s.dev.memx.trainWait →
    Answers (.chanRetrain 0 ch) s fun e =>
      e.memx.trainWait = s.dev.memx.trainWait ++ [ch] ∧ e.regs = s.dev.regs ∧ e.mem = s.dev.mem) ∧
  (∀ (s : State) (ch : Nat), ch < 384 → s.dev.windowServed 0 MEM_CHAN_CTL.base = true →
    s.dev.get MEM_CHAN_STATE.STATE ch = 0 → ch ∉ s.dev.memx.retireQ → s.dev.flt.wdogBusy = false →
    s.dev.needed ch ≤ s.dev.get MEM_SPARE_STAT.FREE 0 → s.dev.memx.mig = none →
    Answers (.chanRetire 0 ch) s fun e =>
      e.get MEM_CHAN_STATE.STATE ch = 2 ∧ e.get MEM_MIG_STAT.CHAN 0 = ch ∧ e.get MEM_MIG_STAT.ACTIVE 0 = 1
        ∧ e.get MEM_MIG_STAT.EXT_DONE 0 = 0 ∧ e.memx.mig = some ⟨ch, (s.dev.assign ch).2.length, (s.dev.assign ch).2⟩
        ∧ Part.ftChannel ch ∈ e.flt.otp
        ∧ e.mem = s.dev.mem) ∧
  (∀ (s : State) (ch : Nat), ch < 384 → s.dev.windowServed 0 MEM_CHAN_CTL.base = true →
    s.dev.get MEM_CHAN_STATE.STATE ch = 0 → ch ∉ s.dev.memx.retireQ → s.dev.flt.wdogBusy = false →
    (∀ m, s.dev.memx.mig = some m → m.chan ≠ ch) → s.dev.get MEM_SPARE_STAT.FREE 0 < s.dev.needed ch →
    Answers (.chanRetire 0 ch) s fun e =>
      e.get MEM_CHAN_STATE.STATE ch = 5 ∧ e.get MEM_STATUS.SPARE_EV 0 = 1 ∧ e.mem = s.dev.mem) ∧
  (∀ (s : State) (m : Migration) (p q : Nat × Nat) (l : List (Nat × Nat)), s.dev.memx.mig = some m → m.todo = p :: q :: l →
    m.need < 4096 → s.dev.get PWR_RECESS.STATE 0 = 0 → s.dev.get MEM_CHAN_STATE.STATE m.chan ≠ 1 →
    Answers (.extentCopyDone []) s fun e =>
      e.get MEM_MIG_STAT.EXT_DONE 0 = m.need - (l.length + 1) ∧ e.extentHome p.1 = p.2
        ∧ e.memx.mig = some { m with todo := q :: l } ∧ RegsKept s.dev e [MEM_MIG_STAT.addr 0] ∧ e.mem = s.dev.mem) ∧
  (∀ (s : State) (m : Migration) (p : Nat × Nat), s.dev.memx.mig = some m → m.chan < 384 → m.todo = [p] →
    s.dev.get PWR_RECESS.STATE 0 = 0 → s.dev.get MEM_CHAN_STATE.STATE m.chan ≠ 1 → s.dev.memx.retireQ = [] →
    Answers (.extentCopyDone []) s fun e =>
      e.get MEM_MIG_STAT.ACTIVE 0 = 0 ∧ e.get MEM_STATUS.MIG_DONE_EV 0 = 1 ∧ e.get MEM_CHAN_STATE.STATE m.chan = 3
        ∧ e.get MEM_STATUS.RETIRE_EV 0 = 1 ∧ e.extentHome p.1 = p.2 ∧ e.memx.mig = none ∧ e.mem = s.dev.mem) ∧
  (∀ (s : State) (m : Migration) (bad : List Nat), s.dev.memx.mig = some m →
    s.dev.get PWR_RECESS.STATE 0 ≠ 0 ∨ s.dev.get MEM_CHAN_STATE.STATE m.chan = 1 →
    Sys2Proof.Machine.exec (.extentCopyDone bad) s = .next s)

/-! ## Reels and DMA channels -/

/-- REEL_REQUEST_ISSUE, REEL_READ_RETURN, REEL_WRITE_ACK, QUIESCE_DONE and SUB_DELAY_EXPIRE (R347, R348, R350, R359, R368 to
R370, R423). A Reel with a READ stream whose next unit may be worked on asks memory for its next bytes, at most 512 and within
one granule, under the lowest free tag. A read that returns good lies in its unit's buffer, and its tag is free; a stale one
changes no memory. An acknowledged write frees its tag and counts for its unit. A Reel that has issued its writes has quiesced,
and where its command leaves, a block held for a closed slot does not keep it (R310) and its state block holds the units to
resume at. A Substitute probes once its delay has passed. -/
def Obligations.ReelTraffic : Prop :=
  (∀ (s : State) (i r t pick a n : Nat) (x : StreamSt), i < 1024 → s.dev.spindleRoom i = some r →
    s.dev.get STR_STAT.RUNNING i = 1 → s.dev.get STR_STAT.QUIESCING i = 0 → (s.dev.room r).suspended = false →
    (s.dev.running r).isSome = true → (s.dev.reel i).streams = [x] → s.dev.streamKind i 0 = 1 → s.dev.stFlag i 0 0 = false →
    s.dev.unitOpen i 0 x.unit = true → s.dev.viaNote i 0 (s.dev.rowAddr i 0 (x.unit * s.dev.stUnitRows i 0 + x.row)) = false →
    s.dev.freeTag i false = some t → nth 0 (s.dev.reel i).turns 0 ≠ 0 → (∀ q ∈ s.dev.memx.reqs, q.id < s.dev.memx.nextReq) →
    a = s.dev.rowAddr i 0 (x.unit * s.dev.stUnitRows i 0 + x.row) + x.off →
    n = min (s.dev.stRow i 0 - x.off) (min 512 (granuleLeft a)) →
    Answers (.reelRequestIssue i pick) s fun e =>
      (∃ g, e.tag? i t false = some g ∧ g.stream = 0 ∧ g.unit = x.unit ∧ g.off = x.row * s.dev.stRow i 0 + x.off ∧ g.len = n
        ∧ g.addr = a ∧ g.gen = s.dev.get STR_STAT.GEN i ∧ g.via = .mem s.dev.memx.nextReq)
        ∧ (∃ q, e.req? s.dev.memx.nextReq = some q ∧ q.addr = a ∧ q.len = n ∧ q.room = some r ∧ q.write = false)
        ∧ e.mem = s.dev.mem) ∧
  (∀ (s : State) (i tag id a : Nat) (t : ReelTag) (q : MemReq), i < 1024 → s.dev.tag? i tag false = some t → t.via = .mem id →
    s.dev.req? id = some q → q.phase = .ended 0 → t.gen = s.dev.get STR_STAT.GEN i → q.poisoned = false → t.index = false →
    s.dev.stFlag i t.stream 0 = false → s.dev.stFlag i t.stream 1 = false →
    t.stream < (s.dev.reel i).streams.length → a = s.dev.bufAddr i t.stream t.unit + t.off →
    Answers (.reelReadReturn i tag) s fun e =>
      e.rdBytes a q.data.length = q.data ∧ MemKept s.dev e a q.data.length ∧ t ∉ (e.reel i).tags
        ∧ (e.strm i t.stream).have t.unit = (s.dev.strm i t.stream).have t.unit + q.data.length ∧ e.req? id = none
        ∧ RegsKept s.dev e [STR_STAT.addr i]) ∧
  (∀ (s : State) (i tag id c : Nat) (t : ReelTag) (q : MemReq), s.dev.tag? i tag false = some t → t.via = .mem id →
    s.dev.req? id = some q → q.phase = .ended c → t.gen ≠ s.dev.get STR_STAT.GEN i →
    Answers (.reelReadReturn i tag) s fun e => t ∉ (e.reel i).tags ∧ e.mem = s.dev.mem) ∧
  (∀ (s : State) (i tag id : Nat) (t : ReelTag), i < 1024 → s.dev.tag? i tag true = some t → t.via = .mem id →
    s.dev.endCode id = some 0 → t.gen ≠ staleGen → t.gen ≠ pastGen →
    (s.dev.reel i).blocks.any (fun b => b.write && b.addr + t.off == t.addr && b.row == t.row) = false →
    t.stream < (s.dev.reel i).streams.length → (∀ r, s.dev.spindleRoom i = some r → (s.dev.room r).ending = none) →
    Answers (.reelWriteAck i tag) s fun e =>
      t ∉ (e.reel i).tags ∧ e.req? id = none
        ∧ (e.strm i t.stream).have t.unit = (s.dev.strm i t.stream).have t.unit + t.len
        ∧ RegsKept s.dev e [STR_STAT.addr i] ∧ e.mem = s.dev.mem) ∧
  (∀ (s : State) (i : Nat), i < 1024 → s.dev.get STR_STAT.QUIESCING i = 1 → (s.dev.reel i).pend = [] →
    (∀ x ∈ (s.dev.reel i).streams, x.read = true ∨ x.passed ≤ x.unit) →
    (∀ b ∈ (s.dev.reel i).blocks, b.write = true → b.size ≤ b.asked) →
    (∀ r w, s.dev.spindleRoom i = some r → (s.dev.room r).switch = some w → w.outgoing = none) →
    Answers (.quiesceDone i) s fun e =>
      e.get STR_STAT.QUIESCING i = 0 ∧ RegsKept s.dev e [STR_STAT.addr i] ∧ e.mem = s.dev.mem) ∧
  (∀ (s : State) (i r id k : Nat) (w : Switch), i < 1024 → s.dev.get STR_STAT.QUIESCING i = 1 → (s.dev.reel i).pend = [] →
    s.dev.spindleRoom i = some r → (s.dev.room r).switch = some w → w.outgoing = some id →
    (∀ x ∈ (s.dev.reel i).streams.zipIdx, x.1.read = true ∨ x.1.passed ≤ x.1.unit ∨ s.dev.blockHeld i x.2 = true) →
    (∀ b ∈ (s.dev.reel i).blocks, b.write = true → b.size ≤ b.asked) → k < (s.dev.reel i).streams.length →
    Answers (.quiesceDone i) s fun e =>
      e.get STR_STAT.QUIESCING i = 0 ∧ RegsKept s.dev e [STR_STAT.addr i]
        ∧ MemKept s.dev e (s.dev.stateBlock i) (8 * (s.dev.reel i).streams.length)
        ∧ e.rdLe (s.dev.stateBlock i + 8 * k) 8 = (s.dev.strm i k).waited % 2 ^ 64) ∧
  (∀ (s : State) (i k : Nat), i < 1024 → s.dev.streamKind i k = 6 → s.dev.accf i k 0x0A 1 = 1 → (s.dev.strm i k).probe = 0 →
    k < (s.dev.reel i).streams.length →
    s.dev.get64 TT_ROUND_START_LO TT_ROUND_START_HI 0 + s.dev.accf i k 0x10 4 ≤ s.dev.now →
    Answers (.subDelayExpire i k) s fun e => (e.strm i k).probe = 3 ∧ e.regs = s.dev.regs ∧ e.mem = s.dev.mem)

/-- DMA_GO, DMA_STOP, DMA_ABANDON and DMA_ASSIGN (R372, R375, R377, R378), DESCRIPTOR_FETCH, DMA_READ_COMPLETE (R616) and
DMA_START (R380). GO takes a resting channel to ACTIVE and STOP one between descriptors to STOPPED; ABANDON takes a halted one
to IDLE. The physical function assigns an IDLE channel to a Room. A valid descriptor of the host is taken and its first request
begins; one with OWN = 0 leaves the channel IDLE with DONE_EV, and an invalid one halts it with 0x0303, one that asks for a
vector outside the table with 0x0002, the lower code. Data read from host memory is written at the descriptor's destination and
counted once a mover serves the channel, and is staged until then (R373). DMA_START of a Room's resting channel starts it at the
command's level, and of a channel of another Room ends with 0x0301. -/
def Obligations.DmaChannels : Prop :=
  (∀ (s : State) (fn ch : Nat), s.dev.windowServed fn DMA_CH_CTL.base = true → s.dev.dmaReach fn ch = true →
    s.dev.get DMA_CH_STAT.STATE ch ∈ [0, 3, 4] →
    Answers (.dmaGo fn ch) s fun e =>
      e.get DMA_CH_STAT.STATE ch = 1 ∧ (e.dmaSt ch).desc = none
        ∧ RegsKept s.dev e [DMA_CH_STAT.addr ch, DMA_CH_CTL.addr ch] ∧ e.mem = s.dev.mem
        ∧ (s.dev.get DMA_CH_CTL.DESC_LOC ch = 1 → e.out = .hostRead (s.dev.dmaFn ch) (s.dev.dmaNext ch) 64 :: s.dev.out)) ∧
  (∀ (s : State) (fn ch : Nat), s.dev.windowServed fn DMA_CH_CTL.base = true → s.dev.dmaReach fn ch = true →
    s.dev.get DMA_CH_STAT.STATE ch = 1 → (s.dev.dmaSt ch).desc = none → (s.dev.dmaSt ch).cmd = none →
    Answers (.dmaStop fn ch) s fun e =>
      e.get DMA_CH_STAT.STATE ch = 3 ∧ RegsKept s.dev e [DMA_CH_STAT.addr ch, DMA_CH_CTL.addr ch] ∧ e.mem = s.dev.mem) ∧
  (∀ (s : State) (fn ch : Nat), s.dev.windowServed fn DMA_CH_CTL.base = true → s.dev.dmaReach fn ch = true →
    s.dev.get DMA_CH_STAT.STATE ch = 1 → (s.dev.dmaSt ch).desc ≠ none →
    Answers (.dmaStop fn ch) s fun e =>
      e.get DMA_CH_STAT.STATE ch = 2 ∧ e.get DMA_CH_CTL.STOP ch = 1 ∧ e.dma = s.dev.dma ∧ e.mem = s.dev.mem) ∧
  (∀ (s : State) (fn ch : Nat), s.dev.windowServed fn DMA_CH_CTL.base = true → s.dev.dmaReach fn ch = true →
    s.dev.get DMA_CH_STAT.STATE ch = 4 → (s.dev.dmaSt ch).cmd = none →
    Answers (.dmaAbandon fn ch) s fun e =>
      e.get DMA_CH_STAT.STATE ch = 0 ∧ (e.dmaSt ch).desc = none ∧ e.mem = s.dev.mem
        ∧ RegsKept s.dev e [DMA_CH_STAT.addr ch, DMA_CH_CTL.addr ch]) ∧
  (∀ (s : State) (ch val : Nat), ch < 128 → s.dev.windowServed 0 DMA_CH_CTL.base = true →
    Answers (.dmaAssign 0 ch val) s fun e =>
      e.get DMA_CH_CTL.LEVEL ch = bitsOf val 3 2 ∧ e.get DMA_CH_CTL.DESC_LOC ch = bitsOf val 5 1
        ∧ (if s.dev.get DMA_CH_STAT.STATE ch ∈ [0, 4] then
            e.get DMA_CH_CTL.ROOM_EN ch = bitsOf val 6 1 ∧ e.get DMA_CH_CTL.ROOM ch = bitsOf val 7 4
          else e.dmaRoom ch = s.dev.dmaRoom ch)
        ∧ RegsKept s.dev e [DMA_CH_CTL.addr ch] ∧ e.mem = s.dev.mem) ∧
  (∀ (s : State) (ch : Nat) (bs : List (BitVec 8)), ch < 128 → s.dev.get DMA_CH_STAT.STATE ch = 1 →
    (s.dev.dmaSt ch).desc = none → s.dev.get DMA_CH_CTL.DESC_LOC ch = 1 → bs.length = 64 → bitAt (dw bs 0 4) 31 = true →
    descOk true bs = true → bitAt (dw bs 0 4) 4 = false → descSrcHost bs = true →
    Answers (.descriptorFetch ch bs .ok) s fun e =>
      (e.dmaSt ch).desc = some bs ∧ (e.dmaSt ch).hostWait = true ∧ e.rd DMA_CH_BYTES ch = 0
        ∧ (∃ n, e.out = .hostRead (s.dev.dmaFn ch) (dw bs 8 8) n :: s.dev.out ∧ 0 < n ∧ n ≤ 512)
        ∧ RegsKept s.dev e [DMA_CH_BYTES.addr ch] ∧ e.mem = s.dev.mem) ∧
  (∀ (s : State) (ch : Nat) (bs : List (BitVec 8)), ch < 128 → s.dev.get DMA_CH_STAT.STATE ch = 1 → s.dev.dmaSt ch = DmaSt.init →
    s.dev.get DMA_CH_CTL.DESC_LOC ch = 1 → bs.length = 64 → bitAt (dw bs 0 4) 31 = false →
    Answers (.descriptorFetch ch bs .ok) s fun e =>
      e.get DMA_CH_STAT.STATE ch = 0 ∧ e.get DMA_CH_STAT.DONE_EV ch = 1 ∧ e.mem = s.dev.mem) ∧
  (∀ (s : State) (ch : Nat) (bs : List (BitVec 8)), ch < 128 → s.dev.get DMA_CH_STAT.STATE ch = 1 → s.dev.dmaSt ch = DmaSt.init →
    s.dev.get DMA_CH_CTL.DESC_LOC ch = 1 → bs.length = 64 → bitAt (dw bs 0 4) 31 = true →
    (bitAt (dw bs 0 4) 4 = true ∧ msixSize (s.dev.dmaFn ch) ≤ s.dev.get DMA_CH_VECTOR.VECTOR ch) ∨ descOk true bs = false →
    Answers (.descriptorFetch ch bs .ok) s fun e =>
      e.get DMA_CH_STAT.STATE ch = 4 ∧ e.rd DMA_CH_BYTES ch = 0
        ∧ e.get DMA_CH_STAT.CODE ch =
          (if bitAt (dw bs 0 4) 4 = true ∧ msixSize (s.dev.dmaFn ch) ≤ s.dev.get DMA_CH_VECTOR.VECTOR ch then 0x0002 else 0x0303)
        ∧ e.get DMA_CH_STAT.HALT_EV ch = 1
        ∧ e.get64 DMA_CH_ERR_ADDR_LO DMA_CH_ERR_ADDR_HI ch = s.dev.dmaNext ch ∧ e.mem = s.dev.mem) ∧
  (∀ (s : State) (ch n a c : Nat) (x : DmaSt) (b bs : List (BitVec 8)), ch < 128 → s.dev.get DMA_CH_STAT.STATE ch = 1 →
    s.dev.dmaSt ch = x → x.desc = some b → x.write = none → x.hostWait = true → descOp b = 0 → descSrcHost b = true →
    descDstHost b = false → n = x.size b → a = x.dst b → bs.length = n → x.off + n < dw b 4 4 → x.row = 0 →
    s.dev.accessCode (s.dev.dmaRoom ch) a n = 0 → s.dev.tokensFor (s.dev.dmaRoom ch) a = true →
    (∀ q ∈ s.dev.memx.reqs, q.phase ≠ .tokens ∧ q.phase ≠ .held ∧ q.phase ≠ .queued ∧ q.phase ≠ .flight
      ∧ q.id < s.dev.memx.nextReq) →
    s.dev.homeOf a = some c → s.dev.get MEM_CHAN_STATE.STATE c ≠ 1 → s.dev.deadRange a n = false → s.dev.dmaServed ch = true →
    Answers (.dmaReadComplete ch bs .ok) s fun e =>
      e.rdBytes a n = bs ∧ MemKept s.dev e a n ∧ (e.dmaSt ch).off = x.off + n
        ∧ e.rd DMA_CH_BYTES ch = min (s.dev.rd DMA_CH_BYTES ch + n) 0xFFFFFFFF) ∧
  (∀ (s : State) (ch : Nat) (b bs : List (BitVec 8)), ch < 128 → s.dev.get DMA_CH_STAT.STATE ch = 1 →
    (s.dev.dmaSt ch).desc = some b → (s.dev.dmaSt ch).write = none → (s.dev.dmaSt ch).hostWait = true →
    (s.dev.dmaSt ch).row < descRows b → bs.length = (s.dev.dmaSt ch).size b → s.dev.dmaServed ch = false →
    Answers (.dmaReadComplete ch bs .ok) s fun e =>
      e.dmaSt ch = { s.dev.dmaSt ch with stage := some bs, hostWait := false } ∧ e.regs = s.dev.regs ∧ e.mem = s.dev.mem) ∧
  (∀ (s : State) (id ch : Nat) (c : Cmd), s.dev.starts id 0x10 = some c → ch = bitsOf (c.arg 0) 0 7 →
    s.dev.dmaRoom ch = some c.room → s.dev.get DMA_CH_STAT.STATE ch ∈ [0, 3] → c.level < 4 → bitAt (c.arg 0) 8 = true →
    c.arg 2 < 2 ^ 32 → c.arg 3 < 2 ^ 32 →
    Answers (.dmaStart id) s fun e =>
      e.get DMA_CH_STAT.STATE ch = 1 ∧ e.get DMA_CH_CTL.LEVEL ch = c.level ∧ (e.dmaSt ch).cmd = some c.id
        ∧ e.dmaNext ch = c.arg64 2 / 64 * 64 ∧ e.mem = s.dev.mem) ∧
  (∀ (s : State) (id : Nat) (c : Cmd), s.dev.starts id 0x10 = some c → s.dev.dmaRoom (bitsOf (c.arg 0) 0 7) ≠ some c.room →
    Answers (.dmaStart id) s fun e => Completed s.dev e c 0x0301)

/-! ## The Kaluf Link -/

/-- IDLE_FLIT, FLIT_RECEIVE and LINK_CTL_NAK (R387 to R390, R392). A port in service sends an IDLE flit of 256 bytes whose CRC
holds; one that arrives acknowledges and returns credits. A flit with a bad CRC, and one ahead of the expected SEQ, is
answered with a NAK of that SEQ, a LINK_CTL flit of 256 bytes whose CRC holds; the expected one is accepted. A NAK is counted and
starts the replay, which sends every unacknowledged flit again as it was kept; the eighth of one SEQ in
a row starts a retraining. -/
def Obligations.KalufFlits : Prop :=
  (∀ (s : State) (p : Nat), p < 12 → s.dev.get KL_PORT_STAT.STATE p = 2 →
    Answers (.idleFlit p none) s fun e =>
      (∃ bs, e.out = .flit p bs :: s.dev.out ∧ bs.length = 256 ∧ flitCrcOk bs = true ∧ (parseFlit bs).1.typ = 0)
        ∧ e.regs = s.dev.regs ∧ e.mem = s.dev.mem) ∧
  (∀ (s : State) (p : Nat) (bs : List (BitVec 8)), p < 12 → s.dev.get KL_PORT_STAT.STATE p = 2 → flitCrcOk bs = true →
    (parseFlit bs).1.typ = 0 → (s.dev.port p).waitq = [] →
    Answers (.idleFlit p (some bs)) s fun e =>
      e.port p = ((s.dev.port p).acked (parseFlit bs).2.1 s.dev.now).credited (parseFlit bs).2.2 ∧ e.regs = s.dev.regs
        ∧ e.mem = s.dev.mem) ∧
  (∀ (s : State) (p : Nat) (bs : List (BitVec 8)), p < 12 → s.dev.get KL_PORT_STAT.STATE p = 2 → flitCrcOk bs = false →
    Answers (.flitReceive p bs) s fun e =>
      (∃ b, e.out = .flit p b :: .linkCtl p lcNak (s.dev.port p).rxSeq :: s.dev.out ∧ b.length = 256 ∧ flitCrcOk b = true
        ∧ (parseFlit b).1.typ = 1) ∧ e.port p = { (s.dev.port p).paid with nakSent := true }
        ∧ e.regs = s.dev.regs ∧ e.mem = s.dev.mem) ∧
  (∀ (s : State) (p : Nat) (bs : List (BitVec 8)) (f : Flit), p < 12 → s.dev.get KL_PORT_STAT.STATE p = 2 →
    s.dev.get KL_PORT_CTL.EN p = 1 → flitCrcOk bs = true → f = (parseFlit bs).1 → 2 ≤ f.typ → reservedFlit f.typ = false →
    (f.control = true ∨ f.dst = s.dev.devId) → f.seq = (s.dev.port p).rxSeq →
    Answers (.flitReceive p bs) s fun e =>
      (e.port p).rxSeq = ((s.dev.port p).rxSeq + 1) % 4096 ∧ (e.port p).nakSent = false ∧ e.regs = s.dev.regs
        ∧ e.mem = s.dev.mem) ∧
  (∀ (s : State) (p : Nat) (bs : List (BitVec 8)) (f : Flit), p < 12 → s.dev.get KL_PORT_STAT.STATE p = 2 →
    s.dev.get KL_PORT_CTL.EN p = 1 → flitCrcOk bs = true → f = (parseFlit bs).1 → 2 ≤ f.typ →
    2048 < ((s.dev.port p).rxSeq + 4096 - f.seq) % 4096 → (s.dev.port p).nakSent = false →
    Answers (.flitReceive p bs) s fun e =>
      .linkCtl p lcNak (s.dev.port p).rxSeq ∈ e.out ∧ (e.port p).rxSeq = (s.dev.port p).rxSeq ∧ (e.port p).nakSent = true
        ∧ e.regs = s.dev.regs ∧ e.mem = s.dev.mem) ∧
  (∀ (s : State) (p seq : Nat), p < 12 → s.dev.get KL_PORT_STAT.STATE p = 2 →
    ((s.dev.port p).nakSeq = some seq → (s.dev.port p).nakRun < 7) →
    Answers (.linkCtlNak p seq) s fun e =>
      (e.port p).nakSeq = some seq ∧ e.rd KL_REPLAY_CNT p = min (s.dev.rd KL_REPLAY_CNT p + 1) 0xFFFFFFFF
        ∧ (s.dev.mayFly p = true → ∀ f ∈ ((s.dev.port p).acked ((seq + 4095) % 4096) s.dev.now).replay, .flit p f.bytes ∈ e.out)
        ∧ RegsKept s.dev e [KL_REPLAY_CNT.addr p] ∧ e.mem = s.dev.mem) ∧
  (∀ (s : State) (p seq : Nat), p < 12 → s.dev.get KL_PORT_STAT.STATE p = 2 → (s.dev.port p).nakSeq = some seq →
    7 ≤ (s.dev.port p).nakRun →
    Answers (.linkCtlNak p seq) s fun e => e.get KL_PORT_STAT.STATE p = 3 ∧ e.get KL_PORT_STAT.RETRAIN_EV p = 1)

/-- PORT_RETRAIN, LINK_CTL_RETRAIN, ACK_TIMEOUT and PORT_RETRAIN_DONE (R390), LANE_RETIRE, LINK_CTL_LANE_RETIRE,
LANE_RATE_CHECK, LANE_LOSS_OF_LOCK and LANE_RESTRIPE_DONE (R393), PORT_ENABLE and DEV_ID_WRITE (R395). A retraining takes the
port to state 3, and back to 2 once it has ended well; one that ends badly takes it DOWN. A lane of four is retired by
re-striping, after which it is out of service and in the fuse array; one that falls due while the controller restarts waits
(R528). An enabled port trains; a disabled one forgets its neighbour and its buffers. The device's ID takes a write while every
port is disabled. -/
def Obligations.KalufPorts : Prop :=
  (∀ (s : State) (p : Nat) (c : Instr), p < 12 → s.dev.get KL_PORT_STAT.STATE p = 2 →
    (c = .linkCtlRetrain p ∨ (c = .portRetrain 0 p ∧ s.dev.windowServed 0 KL_PORT_CTL.base = true)
      ∨ (c = .ackTimeout p ∧ (s.dev.port p).replay ≠ [] ∧ (s.dev.port p).ackTime + 20000 ≤ s.dev.now)) →
    Answers c s fun e =>
      e.get KL_PORT_STAT.STATE p = 3 ∧ e.get KL_PORT_STAT.RETRAIN_EV p = 1
        ∧ e.rd KL_RETRAIN_CNT p = min (s.dev.rd KL_RETRAIN_CNT p + 1) 0xFFFFFFFF ∧ .linkCtl p lcRetrain 0 ∈ e.out
        ∧ RegsKept s.dev e (KL_PORT_STAT.addr p :: KL_RETRAIN_CNT.addr p :: irqRegs 0) ∧ e.mem = s.dev.mem) ∧
  (∀ (s : State) (p dev port : Nat), p < 12 → s.dev.get KL_PORT_STAT.STATE p = 3 → (s.dev.port p).failing = [] →
    3 ≤ s.dev.laneCount p → s.dev.get KL_PORT_CTL.EN p = 1 → dev < 2 ^ 15 → port < 16 →
    Answers (.portRetrainDone p true [] dev port) s fun e =>
      e.get KL_PORT_STAT.STATE p = 2 ∧ e.get KL_PORT_STAT.NBR_DEV p = dev ∧ e.get KL_PORT_STAT.NBR_PORT p = port
        ∧ e.get KL_PORT_STAT.NBR_VALID p = 1 ∧ RegsKept s.dev e [KL_PORT_STAT.addr p] ∧ e.mem = s.dev.mem) ∧
  (∀ (s : State) (p dev port : Nat), p < 12 → s.dev.get KL_PORT_STAT.STATE p = 3 →
    Answers (.portRetrainDone p false [] dev port) s fun e =>
      e.get KL_PORT_STAT.STATE p = 4 ∧ e.get KL_PORT_STAT.DOWN_EV p = 1 ∧ e.port p = PortSt.init ∧ e.mem = s.dev.mem) ∧
  (∀ (s : State) (p l : Nat) (c : Instr), p < 12 → l < 4 → s.dev.get KL_PORT_STAT.STATE p = 2 →
    bitAt (s.dev.get KL_PORT_STAT.LANES p) l = true → s.dev.laneCount p = 4 → (s.dev.port p).retiring = none →
    (s.dev.port p).failing = [] → s.dev.flt.wdogBusy = false →
    (c = .linkCtlLaneRetire p l
      ∨ (c = .laneRetire 0 p ∧ s.dev.get KL_PORT_CTL.LANE p = l ∧ s.dev.windowServed 0 KL_PORT_CTL.base = true)) →
    Answers c s fun e =>
      (e.port p).retiring = some l ∧ (∃ b, e.out = .flit p b :: .linkCtl p lcRetire l :: s.dev.out ∧ (parseFlit b).1.typ = 1)
        ∧ e.regs = s.dev.regs ∧ e.mem = s.dev.mem) ∧
  (∀ (s : State) (p l : Nat), p < 12 → l < 4 → s.dev.get KL_PORT_STAT.STATE p = 2 ∨ s.dev.get KL_PORT_STAT.STATE p = 3 →
    bitAt (s.dev.get KL_PORT_STAT.LANES p) l = true → (s.dev.port p).retiring ≠ some l → l ∉ (s.dev.port p).failing →
    s.dev.flt.wdogBusy = true →
    Answers (.linkCtlLaneRetire p l) s fun e =>
      Deferred.lane p l ∈ e.flt.deferred ∧ e.kl = s.dev.kl ∧ e.regs = s.dev.regs ∧ e.mem = s.dev.mem) ∧
  (∀ (s : State) (p l ce ue : Nat), p < 12 → l < 4 → ce ≤ 2 ^ s.dev.get KL_LANE_CTL.SER_EXP 0 →
    Answers (.laneRateCheck p l ce ue) s fun e =>
      e.rd KL_FEC_CE_CNT (4 * p + l) = min (s.dev.rd KL_FEC_CE_CNT (4 * p + l) + ce) 0xFFFFFFFF
        ∧ e.rd KL_FEC_UE_CNT p = min (s.dev.rd KL_FEC_UE_CNT p + ue) 0xFFFFFFFF ∧ e.kl = s.dev.kl
        ∧ RegsKept s.dev e [KL_FEC_CE_CNT.addr (4 * p + l), KL_FEC_UE_CNT.addr p] ∧ e.mem = s.dev.mem) ∧
  (∀ (s : State) (p l ce ue : Nat), p < 12 → l < 4 → 2 ^ s.dev.get KL_LANE_CTL.SER_EXP 0 < ce →
    s.dev.get KL_PORT_STAT.STATE p = 2 → bitAt (s.dev.get KL_PORT_STAT.LANES p) l = true → s.dev.laneCount p = 4 →
    (s.dev.port p).retiring = none → (s.dev.port p).failing = [] → s.dev.flt.wdogBusy = false →
    Answers (.laneRateCheck p l ce ue) s fun e => (e.port p).retiring = some l) ∧
  (∀ (s : State) (p l : Nat), p < 12 → l < 4 →
    (((s.dev.port p).losses.filter fun q => q.1 == l && decide (s.dev.now < q.2 + 1000000000)).length + 1
      < s.dev.get KL_LANE_CTL.LOL_N 0) →
    Answers (.laneLossOfLock p l) s fun e =>
      (l, s.dev.now) ∈ (e.port p).losses ∧ (e.port p).retiring = (s.dev.port p).retiring ∧ e.regs = s.dev.regs
        ∧ e.mem = s.dev.mem) ∧
  (∀ (s : State) (p l : Nat), p < 12 → l < 4 → (s.dev.port p).retiring = some l →
    Answers (.laneRestripeDone p) s fun e =>
      bitAt (e.get KL_PORT_STAT.LANES p) l = false ∧ (e.port p).retiring = none ∧ e.get KL_PORT_STAT.LANE_EV p = 1
        ∧ Part.lane p l ∈ e.flt.otp ∧ e.mem = s.dev.mem) ∧
  (∀ (s : State) (p : Nat), p < 12 → s.dev.windowServed 0 KL_PORT_CTL.base = true → s.dev.get KL_PORT_CTL.EN p = 0 →
    s.dev.get KL_PORT_STAT.STATE p ∈ [0, 2] →
    Answers (.portEnable 0 p true) s fun e =>
      e.get KL_PORT_CTL.EN p = 1 ∧ e.get KL_PORT_STAT.STATE p = 1 ∧ e.port p = PortSt.init
        ∧ RegsKept s.dev e [KL_PORT_CTL.addr p, KL_PORT_STAT.addr p] ∧ e.mem = s.dev.mem) ∧
  (∀ (s : State) (p : Nat), p < 12 → s.dev.windowServed 0 KL_PORT_CTL.base = true → s.dev.get KL_PORT_CTL.EN p = 1 →
    Answers (.portEnable 0 p false) s fun e =>
      e.get KL_PORT_CTL.EN p = 0 ∧ e.get KL_PORT_STAT.STATE p = 0 ∧ e.get KL_PORT_STAT.NBR_VALID p = 0
        ∧ e.port p = PortSt.init ∧ RegsKept s.dev e [KL_PORT_CTL.addr p, KL_PORT_STAT.addr p] ∧ e.mem = s.dev.mem) ∧
  (∀ (s : State) (val : Nat), s.dev.windowServed 0 KL_DEV_ID.base = true →
    Answers (.devIdWrite 0 val) s fun e =>
      e.devId = (if ∀ p, p < 12 → s.dev.get KL_PORT_CTL.EN p = 0 then val % 2 ^ 15 else s.dev.devId)
        ∧ RegsKept s.dev e [KL_DEV_ID.addr 0] ∧ e.mem = s.dev.mem)

/-- REMOTE_WRITE and REMOTE_READ (R399): a message whose job tag a Room holds and whose range lies in the Room's windows is
performed and answered with code 0, the read with its bytes, or with 0x0604 where they are poisoned; it waits, unanswered, while
the Room's regulator or a channel holds it (R322, R332, log 100). Outside the windows it is answered with 0x0603 and WIN_EV, and
without a Room with 0x0602. KL READ_RESP and COMPLETION: an answer frees the Reel's tag and its bytes count, the read's data
lying in its buffer. REMOTE_TIMEOUT: a message not answered within 1,000 µs of its last flit ends the command with 0x0321. -/
def Obligations.RemoteMessages : Prop :=
  (∀ (s : State) (src cls job id a r : Nat) (data : List (BitVec 8)), s.dev.jobRoom job = some r →
    s.dev.inWindows r a data.length = true → s.dev.requestWaits (some r) a data.length = false →
    s.dev.deadRange a data.length = false → (src = s.dev.devId ∨ (s.dev.route src).isSome = true) →
    Answers (.remoteWrite src cls job id a data false) s fun e =>
      e.rdBytes a data.length = data ∧ MemKept s.dev e a data.length
        ∧ .msg src mtCompletion cls [id, 0, 0] [] ∈ e.out
        ∧ RegsKept s.dev e (regulatorRegs r)) ∧
  (∀ (s : State) (src cls job id a r : Nat) (data : List (BitVec 8)) (b : Bool), s.dev.jobRoom job = some r →
    s.dev.inWindows r a data.length = false → (src = s.dev.devId ∨ (s.dev.route src).isSome = true) →
    Answers (.remoteWrite src cls job id a data b) s fun e =>
      .msg src mtCompletion cls [id, 0x0603, 0] [] ∈ e.out ∧ e.get MEM_ROOM_STAT.WIN_EV r = 1 ∧ e.mem = s.dev.mem
        ∧ RegsKept s.dev e (MEM_ROOM_STAT.addr r :: irqRegs (1 + r))) ∧
  (∀ (s : State) (src cls job id a len r : Nat), s.dev.jobRoom job = some r → s.dev.inWindows r a len = true →
    s.dev.requestWaits (some r) a len = false → s.dev.poisoned a len = false →
      (src = s.dev.devId ∨ (s.dev.route src).isSome = true) →
    Answers (.remoteRead src cls job id a len) s fun e =>
      .msg src mtReadResp cls [id, 0] (s.dev.rdBytes a len) ∈ e.out ∧ e.mem = s.dev.mem
        ∧ RegsKept s.dev e (regulatorRegs r)) ∧
  (∀ (s : State) (src cls job id a len r : Nat), s.dev.jobRoom job = some r → s.dev.inWindows r a len = true →
    s.dev.requestWaits (some r) a len = false → s.dev.poisoned a len = true →
      (src = s.dev.devId ∨ (s.dev.route src).isSome = true) →
    Answers (.remoteRead src cls job id a len) s fun e =>
      .msg src mtReadResp cls [id, 0x0604] [] ∈ e.out ∧ e.mem = s.dev.mem ∧ RegsKept s.dev e (regulatorRegs r)) ∧
  (∀ (s : State) (src cls job id a r : Nat) (data : List (BitVec 8)) (b : Bool) (c : Instr), s.dev.jobRoom job = some r →
    s.dev.inWindows r a data.length = true → s.dev.requestWaits (some r) a data.length = true →
    (c = .remoteWrite src cls job id a data b ∨ c = .remoteRead src cls job id a data.length) →
    Answers c s fun e => e.out = s.dev.out ∧ e.mem = s.dev.mem ∧ RegsKept s.dev e (regulatorRegs r)) ∧
  (∀ (s : State) (src cls job id a len : Nat), s.dev.jobRoom job = none →
    (src = s.dev.devId ∨ (s.dev.route src).isSome = true) →
    Answers (.remoteRead src cls job id a len) s fun e =>
      .msg src mtReadResp cls [id, 0x0602] [] ∈ e.out ∧ e.mem = s.dev.mem ∧ e.regs = s.dev.regs) ∧
  (∀ (s : State) (id i g a : Nat) (data : List (BitVec 8)) (q : Remote) (t : ReelTag), i < 1024 → s.dev.remote? id = some q →
    q.owner = .reel i g → s.dev.remoteTag i q.id = some t → t.gen = s.dev.get STR_STAT.GEN i → t.len = data.length →
    s.dev.stFlag i t.stream 1 = false → t.stream < (s.dev.reel i).streams.length →
    a = s.dev.bufAddr i t.stream t.unit + t.off →
    Answers (.klReadResp id 0 data) s fun e =>
      e.rdBytes a data.length = data ∧ MemKept s.dev e a data.length ∧ t ∉ (e.reel i).tags ∧ e.remote? id = none
        ∧ (e.strm i t.stream).have t.unit = (s.dev.strm i t.stream).have t.unit + data.length
        ∧ RegsKept s.dev e [STR_STAT.addr i]) ∧
  (∀ (s : State) (id i g : Nat) (q : Remote) (t : ReelTag), i < 1024 → s.dev.remote? id = some q → q.owner = .reel i g →
    s.dev.remoteTag i q.id = some t → t.gen ≠ staleGen → t.gen ≠ pastGen → t.write = true →
    t.stream < (s.dev.reel i).streams.length → s.dev.streamKind i t.stream ≠ 6 →
    (s.dev.reel i).blocks.any (fun b => b.write && b.addr + t.off == t.addr && b.row == t.row) = false →
    (∀ r, s.dev.spindleRoom i = some r → (s.dev.room r).ending = none) →
    Answers (.completion id 0 0) s fun e =>
      t ∉ (e.reel i).tags ∧ e.remote? id = none
        ∧ (e.strm i t.stream).have t.unit = (s.dev.strm i t.stream).have t.unit + t.len
        ∧ RegsKept s.dev e [STR_STAT.addr i] ∧ e.mem = s.dev.mem) ∧
  (∀ (s : State) (id i g r sent : Nat) (q : Remote) (t : ReelTag) (c : Cmd), i < 1024 → s.dev.remote? id = some q →
    q.owner = .reel i g → q.time = some sent → sent + 1000000 ≤ s.dev.now → s.dev.remoteTag i q.id = some t → t.gen < staleGen →
    t.write = true → s.dev.spindleRoom i = some r → s.dev.running r = some c → s.dev.unloads r = false → s.dev.roomInRange r →
    Answers (.remoteTimeout id) s fun e => Completed s.dev e c 0x0321 ∧ e.remote? id = none) ∧
  (∀ (s : State) (id : Nat) (q : Remote), s.dev.remote? id = some q →
    (∀ sent, q.time = some sent → s.dev.now < sent + 1000000) →
    exec (.remoteTimeout id) s = .next s)

/-! ## Time and Bells -/

/-- PPS_EDGE and PPS_MISS (R401), TIME_EXCHANGE and TIME (R402), BELL_SEND (R405) and BELL (R406). An edge within 100 µs of
its target gives the offset, ends a holdover and sets the next target a second on; one further off is ignored with
PPS_MISS_EV. A missed edge sets PPS_MISS_EV, and the third in a row begins a holdover. An exchange sends the parent this
device's time; a request is answered, and an answer gives half the difference of the two paths as the offset. The master
names its next boundary once; a Bell with a later number is accepted and forwarded, a late one counted, any other ignored. -/
def Obligations.TimeAndBells : Prop :=
  (∀ (s : State) (w t : Nat), s.dev.get TIME_CTL.SRC 0 = 1 → 100 ≤ w → s.dev.kl.time.target = some t →
    s.dev.kl.time.slew = 0 → ((t : Int) - s.dev.now).natAbs ≤ 100000 →
    Answers (.ppsEdge w) s fun e =>
      e.rd TIME_OFFSET 0 = ofSigned 32 ((t : Int) - s.dev.now) ∧ e.kl.time.target = some (t + 1000000000)
        ∧ e.kl.time.missed = 0 ∧ e.get TIME_STAT.HOLDOVER 0 = 0 ∧ e.mem = s.dev.mem) ∧
  (∀ (s : State) (w t : Nat), s.dev.get TIME_CTL.SRC 0 = 1 → 100 ≤ w → s.dev.kl.time.target = some t →
    s.dev.kl.time.slew = 0 → 100000 < ((t : Int) - s.dev.now).natAbs →
    Answers (.ppsEdge w) s fun e =>
      e.get TIME_STAT.PPS_MISS_EV 0 = 1 ∧ e.kl = s.dev.kl ∧ RegsKept s.dev e (TIME_STAT.addr 0 :: irqRegs 0)
        ∧ e.mem = s.dev.mem) ∧
  (∀ (s : State) (w : Nat), w < 100 → exec (.ppsEdge w) s = .next s) ∧
  (∀ (s : State) (t : Nat), s.dev.get TIME_CTL.SRC 0 = 1 → s.dev.kl.time.target = some t → t + 100000 ≤ s.dev.now →
    Answers .ppsMiss s fun e =>
      e.kl.time = { s.dev.kl.time with target := some (t + 1000000000), missed := s.dev.kl.time.missed + 1 }
        ∧ e.get TIME_STAT.PPS_MISS_EV 0 = 1 ∧ (2 ≤ s.dev.kl.time.missed → e.get TIME_STAT.HOLDOVER 0 = 1)
        ∧ RegsKept s.dev e (TIME_STAT.addr 0 :: irqRegs 0) ∧ e.mem = s.dev.mem) ∧
  (∀ (s : State) (p : Nat), s.dev.get TIME_CTL.SRC 0 = 2 → s.dev.get TIME_CTL.PARENT 0 = p → p < 12 → s.dev.mayFly p = true →
    Answers .timeExchange s fun e =>
      .msg (s.dev.get KL_PORT_STAT.NBR_DEV p) 3 0 [0, 4 * s.dev.now] [] ∈ e.out ∧ e.kl.time.asked = true
        ∧ RegsKept s.dev e [TIME_STAT.addr 0] ∧ e.mem = s.dev.mem) ∧
  (∀ (s : State) (p t1 t2 t3 t4 : Nat), p < 12 → s.dev.linked p = true →
    Answers (.timeFlit p t1 t2 t3 t4 false) s fun e =>
      .msg (s.dev.get KL_PORT_STAT.NBR_DEV p) 3 0 [1, t1, t2, t3] [] ∈ e.out ∧ e.regs = s.dev.regs ∧ e.mem = s.dev.mem) ∧
  (∀ (s : State) (p t1 t2 t3 t4 : Nat) (k : Int), p < 12 → s.dev.get TIME_CTL.SRC 0 = 2 → s.dev.get TIME_CTL.PARENT 0 = p →
    s.dev.kl.time.asked = true → ((t2 : Int) - t1) - ((t4 : Int) - t3) = 8 * k → -2147483648 ≤ k → k < 2147483648 →
    Answers (.timeFlit p t1 t2 t3 t4 true) s fun e =>
      e.rd TIME_OFFSET 0 = ofSigned 32 k ∧ e.kl.time.asked = false ∧ e.kl.time.lost = 0 ∧ e.get TIME_STAT.HOLDOVER 0 = 0
        ∧ e.mem = s.dev.mem) ∧
  (∀ s : State, s.dev.get KL_BELL_CTL.MASTER 0 = 1 → s.dev.rd TT_ROUND 0 ≠ 0 → s.dev.awake = true → s.dev.bell.started = true →
    s.dev.kl.bellSent ≠ some s.dev.nextPlace → s.dev.nextPlace ≤ s.dev.now + 1000 * s.dev.get KL_BELL_CTL.LEAD_US 0 →
    Answers .bellSend s fun e =>
      e.kl.bellTx = (s.dev.kl.bellTx + 1) % 65536 ∧ e.kl.bellSent = some s.dev.nextPlace
        ∧ (∀ p, p < 12 → bitAt (s.dev.get KL_BELL_CTL.FWD_MASK 0) p = true → s.dev.linked p = true →
            .msg (s.dev.get KL_PORT_STAT.NBR_DEV p) 2 0 [(s.dev.kl.bellTx + 1) % 65536, s.dev.nextPlace] [] ∈ e.out)
        ∧ e.mem = s.dev.mem) ∧
  (∀ (s : State) (p seq t : Nat), p < 12 → seq < 65536 →
    (∀ x, s.dev.kl.bellRx = some x → 1 ≤ (seq + 65536 - x) % 65536 ∧ (seq + 65536 - x) % 65536 ≤ 32767) → s.dev.now ≤ t →
    Answers (.bellFlit p seq t) s fun e =>
      e.kl.bellRx = some seq
        ∧ (∀ q, q < 12 → q ≠ p → bitAt (s.dev.get KL_BELL_CTL.FWD_MASK 0) q = true → s.dev.linked q = true →
            .msg (s.dev.get KL_PORT_STAT.NBR_DEV q) 2 0 [seq, t] [] ∈ e.out) ∧ e.mem = s.dev.mem) ∧
  (∀ (s : State) (p seq t : Nat), p < 12 → seq < 65536 →
    (∀ x, s.dev.kl.bellRx = some x → 1 ≤ (seq + 65536 - x) % 65536 ∧ (seq + 65536 - x) % 65536 ≤ 32767) → t < s.dev.now →
    Answers (.bellFlit p seq t) s fun e =>
      e.rd KL_BELL_LATE 0 = min (s.dev.rd KL_BELL_LATE 0 + 1) 0xFFFFFFFF ∧ e.out = s.dev.out
        ∧ RegsKept s.dev e [KL_BELL_LATE.addr 0] ∧ e.mem = s.dev.mem) ∧
  (∀ (s : State) (p seq t x : Nat), s.dev.kl.bellRx = some x →
    ((seq + 65536 - x) % 65536 = 0 ∨ 32767 < (seq + 65536 - x) % 65536) →
    exec (.bellFlit p seq t) s = .next s)

/-! ## Roll call -/

/-- RC_ENABLE (R407), ROLL_CALL (R409, R410), ROLL_CALL_DEADLINE (R409, R411) and ROLL_VERDICT (R411, R412). Enabling begins
with no bases; disabling clears FENCED. A child's record for the step in collection is merged, and one of an earlier step
discarded. Where a child's record is missing at the deadline the root's verdict is FENCE. A verdict of the parent is recorded,
fences the Room or ends its fence, and goes on to every child; where it is FENCE, a PARAM_WAIT of its step ends with 0x0712 and
zeroes its counter (R443). -/
def Obligations.RollCallEvents : Prop :=
  (∀ (s : State) (r : Nat), r < 16 → s.dev.windowServed 0 KL_RC_CTL.base = true → s.dev.get KL_RC_CTL.EN r = 0 →
    Answers (.rcEnable 0 r true) s fun e =>
      e.get KL_RC_CTL.EN r = 1 ∧ e.rc r = RcSt.init ∧ RegsKept s.dev e [KL_RC_CTL.addr r] ∧ e.mem = s.dev.mem) ∧
  (∀ (s : State) (r : Nat), r < 16 → s.dev.windowServed 0 KL_RC_CTL.base = true →
    Answers (.rcEnable 0 r false) s fun e =>
      e.get KL_RC_CTL.EN r = 0 ∧ e.get KL_RC_STAT.FENCED r = 0 ∧ e.rc r = RcSt.init
        ∧ RegsKept s.dev e [KL_RC_CTL.addr r, KL_RC_STAT.addr r] ∧ e.mem = s.dev.mem) ∧
  (∀ (s : State) (p q job r : Nat) (c : RcRecord), p < 12 → s.dev.jobRoom job = some r → s.dev.get KL_RC_CTL.EN r = 1 →
    p ∈ s.dev.rcChildren r → (s.dev.rc r).bases.isSome = true → s.dev.now ≤ s.dev.rcDeadline r → (s.dev.rc r).sent = false →
    p ∉ (s.dev.rc r).reported → q ∈ s.dev.rcChildren r → q ≠ p → q ∉ (s.dev.rc r).reported → s.dev.upd r = none →
    (∀ x ∈ s.dev.que.cmds, x.opcode = 0x51 → x.phase ≠ .timeWait) →
    Answers (.rollCall p job (s.dev.rc r).step c) s fun e =>
      (e.rc r).record = (s.dev.rc r).record.merge c ∧ (e.rc r).reported = (s.dev.rc r).reported ++ [p]
        ∧ (e.rc r).sent = false ∧ e.regs = s.dev.regs ∧ e.mem = s.dev.mem) ∧
  (∀ (s : State) (p job r step : Nat) (c : RcRecord), p < 12 → s.dev.jobRoom job = some r → s.dev.upd r = none →
    (s.dev.rc r).bases.isSome = true → step < (s.dev.rc r).step →
    (∀ x ∈ s.dev.que.cmds, x.opcode = 0x51 → x.phase ≠ .timeWait) →
    exec (.rollCall p job step c) s = .next s) ∧
  (∀ (s : State) (r p : Nat), r < 16 → (s.dev.rc r).sent = false → (s.dev.rc r).bases.isSome = true →
    s.dev.rcDeadline r ≤ s.dev.now → s.dev.get KL_RC_CTL.ROOT r = 1 → p ∈ s.dev.rcChildren r → p ∉ (s.dev.rc r).reported →
    (s.dev.rc r).verdictOf (s.dev.rc r).step = 0 → (s.dev.rc r).step < 2 ^ 64 → s.dev.upd r = none →
    (∀ x ∈ s.dev.que.cmds, x.opcode = 0x51 → x.phase ≠ .timeWait) →
    Answers (.rollCallDeadline r) s fun e =>
      e.get KL_RC_STAT.VERDICT r = 2 ∧ e.get KL_RC_STAT.FENCED r = 1 ∧ e.get KL_RC_STAT.NO_VERDICT r = 0
        ∧ e.get KL_RC_STAT.RC_EV r = 1 ∧ (e.rc r).sent = true
        ∧ e.get64 KL_RC_STEP_LO KL_RC_STEP_HI r = (s.dev.rc r).step
        ∧ e.rd KL_RC_FENCE_CNT r = min (s.dev.rd KL_RC_FENCE_CNT r + 1) 0xFFFFFFFF ∧ e.mem = s.dev.mem) ∧
  (∀ (s : State) (p job r step : Nat) (v : Verdict), p < 12 → s.dev.jobRoom job = some r → s.dev.get KL_RC_CTL.EN r = 1 →
    s.dev.get KL_RC_CTL.ROOT r = 0 → s.dev.get KL_RC_CTL.PARENT r = p → (s.dev.rc r).verdictOf step = 0 →
    (v.verdict = 1 ∨ v.verdict = 2) → step < 2 ^ 64 → s.dev.upd r = none →
    (∀ x ∈ s.dev.que.cmds, x.opcode = 0x51 → x.phase ≠ .timeWait) →
    Answers (.rollVerdict p job step v) s fun e =>
      (e.rc r).verdictOf step = v.verdict ∧ e.get KL_RC_STAT.VERDICT r = v.verdict
        ∧ e.get KL_RC_STAT.FENCED r = v.verdict - 1 ∧ e.get KL_RC_STAT.RC_EV r = 1
        ∧ e.get64 KL_RC_STEP_LO KL_RC_STEP_HI r = step
        ∧ (∀ q ∈ s.dev.rcChildren r, s.dev.linked q = true →
            .msg (s.dev.get KL_PORT_STAT.NBR_DEV q) 5 0 ([job, step] ++ v.fields) [] ∈ e.out)
        ∧ e.mem = s.dev.mem) ∧
  (∀ (s : State) (p job r step k : Nat) (v : Verdict) (c : Cmd), p < 12 → s.dev.jobRoom job = some r →
    s.dev.get KL_RC_CTL.EN r = 1 → s.dev.get KL_RC_CTL.ROOT r = 0 → s.dev.get KL_RC_CTL.PARENT r = p →
    (s.dev.rc r).verdictOf step = 0 → v.verdict = 2 → s.dev.upd r = none → c ∈ s.dev.que.cmds → c.room = r →
    c.queue < 16384 → c.opcode = 0x51 → c.phase = .timeWait →
    (∀ x ∈ s.dev.que.cmds, x.opcode = 0x51 → x.phase = .timeWait → x = c) → step % 2 ^ 32 = c.arg 2 →
    k = 2 * r + c.arg 2 % 2 → s.dev.get64 UPD_PARAM_RX_LO UPD_PARAM_RX_HI k < c.arg64 0 →
    (∀ q ∈ (s.dev.red? r).outcomes, q.1 % 2 ^ 32 ≠ c.arg 2) →
    Answers (.rollVerdict p job step v) s fun e =>
      Completed s.dev e c 0x0712 ∧ e.get64 UPD_PARAM_RX_LO UPD_PARAM_RX_HI k = 0)

/-! ## Gradient reduction and the parameter update -/

/-- RED_ENABLE (R425), CONTRIBUTION (R426 to R429) and PROBE (R428). Enabling opens the banks of the present and the next step.
A contribution that passes every check is added exactly to its accumulators, once its traffic has issued (R322, log 165), its
slot is COUNTED and it is answered with 0; one that fails a check is counted, shown and answered with the lowest code, and adds
nothing. A probe of a slot that is not counted is answered NEEDED, and of a counted one DUPLICATE. -/
def Obligations.ReductionArrivals : Prop :=
  (∀ (s : State) (fn r : Nat), roomReach fn r = true → s.dev.windowServed fn RED_CTL.base = true →
    s.dev.get RED_CTL.EN r = 0 →
    Answers (.redEnable fn r true) s fun e =>
      e.get RED_CTL.EN r = 1 ∧ e.bankOpen r (s.dev.rcStep r) = true ∧ e.bankOpen r (s.dev.rcStep r + 1) = true
        ∧ e.get RED_STAT.OPEN r = 3 ∧ RegsKept s.dev e [RED_CTL.addr r, RED_STAT.addr r] ∧ e.mem = s.dev.mem) ∧
  (∀ (s : State) (fn r : Nat), roomReach fn r = true → s.dev.windowServed fn RED_CTL.base = true →
    Answers (.redEnable fn r false) s fun e =>
      e.get RED_CTL.EN r = 0 ∧ e.red = s.dev.red ∧ RegsKept s.dev e [RED_CTL.addr r] ∧ e.mem = s.dev.mem) ∧
  (∀ (s : State) (src cls job id r w acc ba : Nat) (waited : Bool) (bs : List (BitVec 8)) (m : AccMsg) (b : Bucket),
    m = accMsg bs → m.kind = 0 → s.dev.jobRoom job = some r → b = s.dev.bucket r m.bucket → s.dev.accCode r src m = 0 →
    s.dev.bankClosed r m.step = false → s.dev.bankOpen r m.step = true → m.fmt = b.width →
    s.dev.stepScale r (s.dev.sgroup r b.group) m.step = some (s.dev, m.scale) →
    s.dev.slotBits r b (m.step % 2) m.chunk m.slot = 0 → m.poison % 2 ^ m.n = 0 → s.dev.get RED_CHECK_CTL.RATE_LOG2 0 = 0 →
    s.dev.upd r = none → s.dev.memx.dead = [] → (src = s.dev.devId ∨ (s.dev.route src).isSome = true) →
    (s.dev.gate (.add src id) r (b.addTraffic m)).2 = true → w = (if m.fmt = 0 then 16 else 32) →
      acc = b.accAt (m.step % 2) (64 * m.chunk) →
    ba = b.mapAt (s.dev.nSlots r) (m.step % 2) m.chunk + m.slot / 4 →
    (ba < acc ∨ acc + 256 * m.n ≤ ba) → (s.dev.redBase r + 8 ≤ acc ∨ acc + 256 * m.n ≤ s.dev.redBase r) →
    (ba < s.dev.redBase r ∨ s.dev.redBase r + 8 ≤ ba) →
    Answers (.contribution src cls job id bs waited []) s fun e =>
      (∀ k l, k < m.n → l < 32 →
        e.rdLe (acc + 256 * k + 8 * l) 8
          = ofSigned 64 (toSigned 64 (s.dev.rdLe (acc + 256 * k + 8 * l) 8)
              + toSigned w (unpack w (ofLe ((m.body.drop (4 * w * k)).take (4 * w))) l)))
        ∧ e.slotBits r b (m.step % 2) m.chunk m.slot = 1 ∧ .msg src mtCompletion cls [id, 0, 0] [] ∈ e.out
        ∧ (∀ a, (a < acc ∨ acc + 256 * m.n ≤ a) → a ≠ ba → e.rdByte a = s.dev.rdByte a)) ∧
  (∀ (s : State) (src cls job id r : Nat) (waited : Bool) (wrong : List (Nat × Option Nat)) (bs : List (BitVec 8)) (m : AccMsg)
      (b : Bucket),
    m = accMsg bs → m.kind = 0 → s.dev.jobRoom job = some r → b = s.dev.bucket r m.bucket → s.dev.accCode r src m = 0 →
    s.dev.bankClosed r m.step = false → s.dev.bankOpen r m.step = true → m.fmt = b.width →
    s.dev.stepScale r (s.dev.sgroup r b.group) m.step = some (s.dev, m.scale) →
    s.dev.slotBits r b (m.step % 2) m.chunk m.slot % 2 = 0 → m.poison % 2 ^ m.n = 0 → s.dev.upd r = none →
    (s.dev.gate (.add src id) r (b.addTraffic m)).2 = false →
    Answers (.contribution src cls job id bs waited wrong) s fun e =>
      e.out = s.dev.out ∧ e.red = s.dev.red ∧ RegsKept s.dev e (regulatorRegs r) ∧ e.mem = s.dev.mem) ∧
  (∀ (s : State) (src cls job id r : Nat) (waited : Bool) (wrong : List (Nat × Option Nat)) (bs : List (BitVec 8)),
    (accMsg bs).kind = 0 → s.dev.jobRoom job = some r → s.dev.accCode r src (accMsg bs) ≠ 0 → s.dev.upd r = none →
    (src = s.dev.devId ∨ (s.dev.route src).isSome = true) →
    Answers (.contribution src cls job id bs waited wrong) s fun e =>
      .msg src mtCompletion cls [id, s.dev.accCode r src (accMsg bs), 0] [] ∈ e.out ∧ e.get RED_STAT.REFUSE_EV r = 1
        ∧ e.rd RED_REFUSE_CNT r = min (s.dev.rd RED_REFUSE_CNT r + 1) 0xFFFFFFFF
        ∧ RegsKept s.dev e (RED_STAT.addr r :: RED_REFUSE_CNT.addr r :: irqRegs (1 + r) ++ s.dev.payerRegs (.add src id))
          ∧ e.mem = s.dev.mem) ∧
  (∀ (s : State) (src cls job id r : Nat) (bs : List (BitVec 8)) (m : AccMsg), m = accMsg bs → m.kind = 1 →
    s.dev.jobRoom job = some r → s.dev.accCode r src m = 0 → s.dev.bankClosed r m.step = false →
    s.dev.bankOpen r m.step = true → (src = s.dev.devId ∨ (s.dev.route src).isSome = true) →
    Answers (.probe src cls job id bs) s fun e =>
      .msg src mtCompletion cls
          [id, 0, if s.dev.slotBits r (s.dev.bucket r m.bucket) (m.step % 2) m.chunk m.slot % 2 = 1 then 1 else 2] [] ∈ e.out
        ∧ RegsKept s.dev e (s.dev.payerRegs (.add src id)) ∧ e.mem = s.dev.mem)

/-- UPDATE, REDUCTION_DEADLINE, UPDATE_PASS1_DONE, TALLY_RECORD, TALLY_DEADLINE, TALLY_RESULT and UPDATE_PASS2_DONE (R430, R433
to R437, Table 14-12), PARAM (R442), PARAM_WAIT and PARAM_WAIT_TIMEOUT (R443). An UPDATE with valid tables waits for its step's
verdict; the bank closes at the deadline and pass 1 begins; its end forms this device's record, which a child's record joins and
the tally deadline marks ABSENT and sends. A result with POISON skips the step with 0x0710, one without any flag begins pass 2,
whose end opens the bank for the second step after. A pass, and a PARAM chunk, waits until its traffic has issued (R322, log
165). A PARAM chunk is stored, counted and answered; a PARAM_WAIT ends with its bytes, or waits, until its timeout ends it with
0x0714. -/
def Obligations.UpdateSteps : Prop :=
  (∀ (s : State) (id step : Nat) (c : Cmd), s.dev.starts id 0x50 = some c → c.room < 16 → s.dev.tablesOk c.room = true →
    s.dev.upd c.room = none → s.dev.updStep c.room (c.arg 0) = some step → (s.dev.rc c.room).verdictOf step = 0 →
    Answers (.cmdUpdate id) s fun e =>
      e.upd c.room = some ⟨c.id, step, .verdict, 0, 0, [], [], 0⟩ ∧ e.get UPD_STAT.RUNNING c.room = 1
        ∧ e.cmd? id = some { c with phase := .started, deadline := 0 } ∧ RegsKept s.dev e [UPD_STAT.addr c.room]
        ∧ e.mem = s.dev.mem) ∧
  (∀ (s : State) (id : Nat) (c : Cmd), s.dev.starts id 0x50 = some c → s.dev.tablesOk c.room = false →
    Answers (.cmdUpdate id) s fun e => Completed s.dev e c 0x0717) ∧
  (∀ (s : State) (r : Nat) (u : UpdSt), r < 16 → s.dev.upd r = some u → u.stage = .collect →
    s.dev.redDeadline r u.step ≤ s.dev.now →
    Answers (.reductionDeadline r) s fun e =>
      (∃ v, e.upd r = some v ∧ v.stage = .pass1 ∧ v.step = u.step ∧ v.cmd = u.cmd) ∧ e.bankClosed r u.step = true
        ∧ e.mem = s.dev.mem) ∧
  (∀ (s : State) (r q : Nat) (u : UpdSt), r < 16 → s.dev.upd r = some u → u.stage = .pass1 →
    (s.dev.red? r).tallyStep = none → q ∈ s.dev.rcChildren r →
    (s.dev.gate (.pass r) r (s.dev.pass1Traffic r (u.step % 2))).2 = true →
    Answers (.updatePass1Done r) s fun e =>
      (∃ v, e.upd r = some v ∧ v.stage = .tally ∧ v.step = u.step) ∧ (e.red? r).own = true
        ∧ (e.red? r).tallyStep = some u.step ∧ (e.red? r).tally.nDev = 1
        ∧ (∀ g, g < s.dev.nGroups r → (nth ⟨0, 0, 0, 0⟩ (e.red? r).tally.entries g).nsq =
            (((s.dev.buckets r).filter fun b => b.group == g).map fun b => s.dev.bucketNsq b (u.step % 2)).foldl (· + ·) 0)
        ∧ e.mem = s.dev.mem) ∧
  (∀ (s : State) (r : Nat) (u : UpdSt) (c : Instr), r < 16 → s.dev.upd r = some u →
    ((c = .updatePass1Done r ∧ u.stage = .pass1 ∧ (s.dev.gate (.pass r) r (s.dev.pass1Traffic r (u.step % 2))).2 = false)
      ∨ (c = .updatePass2Done r ∧ u.stage = .pass2 ∧ (s.dev.gate (.pass r) r (s.dev.pass2Traffic r (u.step % 2))).2 = false)) →
    Answers c s fun e =>
      e.upd r = some u ∧ e.red = s.dev.red ∧ RegsKept s.dev e (regulatorRegs r) ∧ e.mem = s.dev.mem) ∧
  (∀ (s : State) (src cls job id r p : Nat) (bs : List (BitVec 8)), s.dev.jobRoom job = some r →
    s.dev.get KL_RC_STAT.FENCED r = 0 → (s.dev.rcChildren r).find? (fun p => s.dev.get KL_PORT_STAT.NBR_DEV p == src) = some p →
    (s.dev.red? r).tallyStep = some (accMsg bs).step → (s.dev.red? r).sent = false → p ∉ (s.dev.red? r).children →
    (s.dev.red? r).own = false →
    Answers (.tallyRecord src cls job id bs) s fun e =>
      (e.red? r).tally = (s.dev.red? r).tally.merge (parseTally (accMsg bs).body)
        ∧ (e.red? r).children = (s.dev.red? r).children ++ [p] ∧ (e.red? r).sent = false ∧ e.regs = s.dev.regs
        ∧ e.mem = s.dev.mem) ∧
  (∀ (s : State) (r : Nat) (u : UpdSt), r < 16 → s.dev.upd r = some u → u.stage = .tally →
    s.dev.tallyDeadline r u.step ≤ s.dev.now → (s.dev.red? r).tallyStep = some u.step → (s.dev.red? r).sent = false →
    s.dev.get KL_RC_CTL.ROOT r = 0 →
    Answers (.tallyDeadline r) s fun e =>
      (e.red? r).sent = true ∧ (e.red? r).tally.flags = (s.dev.red? r).tally.flags ||| 4 ∧ e.mem = s.dev.mem) ∧
  (∀ (s : State) (src cls job id r : Nat) (u : UpdSt) (c : Cmd) (bs : List (BitVec 8)), s.dev.jobRoom job = some r →
    s.dev.get KL_RC_STAT.FENCED r = 0 → s.dev.upd r = some u → u.stage = .tally → u.step = (accMsg bs).step →
    s.dev.cmd? u.cmd = some c → bitAt (parseTally (accMsg bs).body).flags 0 = true →
    Answers (.tallyResult src cls job id bs) s fun e => Completed s.dev e c 0x0710 ∧ e.upd r = none) ∧
  (∀ (s : State) (src cls job id r : Nat) (u : UpdSt) (bs : List (BitVec 8)), s.dev.jobRoom job = some r →
    s.dev.get KL_RC_STAT.FENCED r = 0 → s.dev.upd r = some u → u.stage = .tally → u.step = (accMsg bs).step →
    (parseTally (accMsg bs).body).flags % 8 = 0 →
    Answers (.tallyResult src cls job id bs) s fun e =>
      ∃ v, e.upd r = some v ∧ v.stage = .pass2 ∧ v.step = u.step ∧ v.cmd = u.cmd) ∧
  (∀ (s : State) (r : Nat) (u : UpdSt), r < 16 → s.dev.upd r = some u → u.stage = .pass2 →
    (s.dev.gate (.pass r) r (s.dev.pass2Traffic r (u.step % 2))).2 = true →
    Answers (.updatePass2Done r) s fun e =>
      e.bankOpen r (u.step + 2) = true ∧ (e.upd r = none ∨ ∃ v, e.upd r = some v ∧ v.stage = .params ∧ v.waits ≠ [])) ∧
  (∀ (s : State) (src cls job id addr r p a : Nat) (bs : List (BitVec 8)) (m : AccMsg), m = accMsg bs →
    s.dev.jobRoom job = some r → p = fmtWidth m.fmt / 8 → a = addr + 2048 * m.chunk * p →
    s.dev.inWindows r a (32 * p * m.n) = true → s.dev.get KL_RC_STAT.FENCED r = 0 → s.dev.memx.dead = [] → m.poison = 0 →
    32 * p * m.n ≤ m.body.length → (∀ c ∈ s.dev.que.cmds, c.opcode = 0x51 → c.phase ≠ .timeWait) →
    (src = s.dev.devId ∨ (s.dev.route src).isSome = true) →
    (s.dev.gate (.param src id) r [(true, a, 32 * p * m.n)]).2 = true →
    Answers (.param src cls job id addr bs) s fun e =>
      e.rdBytes a (32 * p * m.n) = m.body.take (32 * p * m.n) ∧ MemKept s.dev e a (32 * p * m.n)
        ∧ e.get64 UPD_PARAM_RX_LO UPD_PARAM_RX_HI (2 * r + m.step % 2)
          = (s.dev.get64 UPD_PARAM_RX_LO UPD_PARAM_RX_HI (2 * r + m.step % 2) + 32 * p * m.n) % 2 ^ 64
        ∧ .msg src mtCompletion cls [id, 0, 0] [] ∈ e.out) ∧
  (∀ (s : State) (src cls job id addr r p a : Nat) (bs : List (BitVec 8)) (m : AccMsg), m = accMsg bs →
    s.dev.jobRoom job = some r → p = fmtWidth m.fmt / 8 → a = addr + 2048 * m.chunk * p →
    s.dev.inWindows r a (32 * p * m.n) = true → s.dev.get KL_RC_STAT.FENCED r = 0 →
    (s.dev.gate (.param src id) r [(true, a, 32 * p * m.n)]).2 = false →
    Answers (.param src cls job id addr bs) s fun e =>
      e.out = s.dev.out ∧ RegsKept s.dev e (regulatorRegs r) ∧ e.mem = s.dev.mem) ∧
  (∀ (s : State) (id k : Nat) (c : Cmd), s.dev.starts id 0x51 = some c → c.room < 16 → c.queue < 16384 →
    (∀ x ∈ s.dev.que.cmds, x.opcode = 0x51 → x.phase ≠ .timeWait) → k = 2 * c.room + c.arg 2 % 2 →
    c.arg64 0 ≤ s.dev.get64 UPD_PARAM_RX_LO UPD_PARAM_RX_HI k →
    Answers (.paramWait id) s fun e => Completed s.dev e c 0 ∧ e.get64 UPD_PARAM_RX_LO UPD_PARAM_RX_HI k = 0) ∧
  (∀ (s : State) (id : Nat) (c : Cmd), s.dev.starts id 0x51 = some c →
    (∀ x ∈ s.dev.que.cmds, x.opcode = 0x51 → x.phase ≠ .timeWait) →
    s.dev.get64 UPD_PARAM_RX_LO UPD_PARAM_RX_HI (2 * c.room + c.arg 2 % 2) < c.arg64 0 →
    (∀ p ∈ (s.dev.red? c.room).outcomes, p.1 % 2 ^ 32 ≠ c.arg 2) →
    (∀ v ∈ (s.dev.rc c.room).verdicts, v.1 % 2 ^ 32 = c.arg 2 → v.2 ≠ 2) →
    Answers (.paramWait id) s fun e =>
      e.cmd? id = some { c with phase := .timeWait, deadline := s.dev.now + 1000 * c.arg 3 } ∧ e.regs = s.dev.regs
        ∧ e.mem = s.dev.mem) ∧
  (∀ (s : State) (id : Nat) (c : Cmd), s.dev.cmd? id = some c → c.opcode = 0x51 → c.phase = .timeWait →
    c.deadline ≤ s.dev.now → Answers (.paramWaitTimeout id) s fun e => Completed s.dev e c 0x0714)

/-! ## Media decoding, preparation and video -/

/-- DEC_IMAGE, DEC_VIDEO, DEC_AUDIO and TOKENIZE (R450, R451), SAMPLE_START (R468), SAMPLE_DAMAGE (R456), SAMPLE_DEFER and
SAMPLE_DROP (R465), SAMPLE_END (R454, R466), TOK_LOAD, TOK_LOAD_END and TOK_SLOT_CLOSE (R463). A decode command whose ARGS are
in order runs from its first entry, another ends with 0x0801. A free engine takes the next entry whose header is in order, and
one that is not ends with its code in its result entry. Damage of a command with concealment is counted once and noted. A sample
over its budget leaves its engine for the straggler queue, or is dropped and counted. A sample that ends writes its output at
its destination and STATUS 0 in its result entry. A tokenizer slot that no sample references loads, is valid with the identifier
of a valid table, and takes CLOSE. What reads or writes memory waits, with its engine, until its traffic has issued (R322, R332,
log 165). -/
def Obligations.MediaCommands : Prop :=
  (∀ (s : State) (id op kind : Nat) (ins : Instr) (c : Cmd),
    (ins, op, kind) ∈ [(Instr.decImage id, 0x20, 0), (Instr.decVideo id, 0x21, 1), (Instr.decAudio id, 0x22, 2),
      (Instr.tokenize id, 0x23, 3)] →
    s.dev.starts id op = some c → s.dev.decArgsOk c = true →
    Answers ins s fun e =>
      (∃ j, e.med.jobs = s.dev.med.jobs ++ [j] ∧ j.cmd = c.id ∧ j.kind = kind ∧ j.next = 0 ∧ j.ended = [])
        ∧ e.cmd? id = some { c with phase := .started, deadline := 0 } ∧ e.regs = s.dev.regs ∧ e.mem = s.dev.mem) ∧
  (∀ (s : State) (id op : Nat) (ins : Instr) (c : Cmd),
    (ins, op) ∈ [(Instr.decImage id, 0x20), (Instr.decVideo id, 0x21), (Instr.decAudio id, 0x22), (Instr.tokenize id, 0x23)] →
    s.dev.starts id op = some c → s.dev.decArgsOk c = false → Answers ins s fun e => Completed s.dev e c 0x0801) ∧
  (∀ (s : State) (n k : Nat) (j : DecJob) (c : Cmd), n < 76 → (∀ x ∈ s.dev.med.samples, x.engine ≠ some n) →
    s.dev.get FLT_ENG_STAT.RETIRED (12 + n) = 0 → s.dev.med.jobs = [j] → s.dev.jobReady (engineKind n) j = some c →
    c.level < 4 → c.room < 16 → k = 4 * c.room + s.dev.ent c j.next 24 1 →
    (s.dev.gate (.sample c.id j.next) c.room (s.dev.startTraffic c j.kind j.next
      (s.dev.startCode c j.kind j.next (s.dev.decoded c j.kind j.next)) (s.dev.decoded c j.kind j.next))).2 = true →
    Answers (.sampleStart n) s fun e =>
      if s.dev.startCode c j.kind j.next (s.dev.decoded c j.kind j.next) = 0 then
        e.med.samples = s.dev.med.samples ++ [⟨c.id, j.next, some n, false, none⟩]
          ∧ e.med.jobs = [{ j with next := j.next + 1 }] ∧ e.get MED_ENG_STAT.BUSY n = 1
          ∧ e.get MED_ENG_STAT.ROOM n = c.room ∧ e.mem = s.dev.mem
          ∧ (j.kind = 3 → e.get MED_TOK_SLOT.REFS k = (s.dev.get MED_TOK_SLOT.REFS k + 1) % 4096)
      else
        s.dev.med.samples = [] → s.dev.memx.dead = [] → c.cplHost = true →
          e.med.samples = []
            ∧ e.rdLe (c.result + 32 * j.next) 2 = s.dev.startCode c j.kind j.next (s.dev.decoded c j.kind j.next)) ∧
  (∀ (s : State) (n : Nat) (j : DecJob) (c : Cmd), n < 76 → (∀ x ∈ s.dev.med.samples, x.engine ≠ some n) →
    s.dev.get FLT_ENG_STAT.RETIRED (12 + n) = 0 → s.dev.med.jobs = [j] → s.dev.jobReady (engineKind n) j = some c →
    c.level < 4 → c.room < 16 →
    (s.dev.gate (.sample c.id j.next) c.room (s.dev.startTraffic c j.kind j.next
      (s.dev.startCode c j.kind j.next (s.dev.decoded c j.kind j.next)) (s.dev.decoded c j.kind j.next))).2 = false →
    Answers (.sampleStart n) s fun e =>
      e.med = s.dev.med ∧ RegsKept s.dev e (regulatorRegs c.room) ∧ e.mem = s.dev.mem) ∧
  (∀ (s : State) (n pos unit code : Nat) (h : Held), n < 76 → s.dev.held? n = some h → s.dev.srcPoisoned h = false →
    s.dev.damageOf h = some (pos, unit, code) → h.s.concealed = none → h.c.conceal = true → h.c.room < 16 →
    Answers (.sampleDamage n) s fun e =>
      { h.s with concealed := some (pos, unit) } ∈ e.med.samples ∧ e.get MED_STAT.CONCEAL_EV h.c.room = 1
        ∧ e.rd MED_CONCEAL_CNT h.c.room = min (s.dev.rd MED_CONCEAL_CNT h.c.room + 1) 0xFFFFFFFF ∧ e.mem = s.dev.mem) ∧
  (∀ (s : State) (n : Nat) (h : Held), n < 76 → s.dev.held? n = some h → h.c.room < 16 →
    Answers (.sampleDefer n) s fun e =>
      if h.defers then
        e.med.samples = (s.dev.med.samples.filter fun x => x != h.s) ++ [{ h.s with engine := none, deferred := true }]
          ∧ e.get MED_STAT.DEFER_EV h.c.room = 1
          ∧ e.rd MED_DEFER_CNT h.c.room = min (s.dev.rd MED_DEFER_CNT h.c.room + 1) 0xFFFFFFFF ∧ e.mem = s.dev.mem
      else e = s.dev) ∧
  (∀ (s : State) (n : Nat) (h : Held), n < 76 → s.dev.held? n = some h → h.c.room < 16 → h.c.queue < 16384 → h.j.kind < 3 →
    (∀ x ∈ s.dev.med.samples, ∀ m, x.engine = some m → m < 76) →
    Answers (.sampleDrop n) s fun e =>
      if h.drops then
        h.s ∉ e.med.samples ∧ e.rd MED_DROP_CNT h.c.room = min (s.dev.rd MED_DROP_CNT h.c.room + 1) 0xFFFFFFFF
      else e = s.dev) ∧
  (∀ (s : State) (n dst res : Nat) (h : Held) (j : DecJob), n < 76 → s.dev.held? n = some h → h.defers = false →
    h.drops = false → s.dev.srcPoisoned h = false → s.dev.damageOf h = none → (s.dev.outputOf h).code = 0 →
    dst = s.dev.ent h.c h.s.entry 16 8 → res = h.c.result + 32 * h.s.entry →
    (dst + (s.dev.outputOf h).bytes.length ≤ res ∨ res + 32 ≤ dst) → s.dev.memx.dead = [] →
    j = { h.j with ended := h.j.ended ++ [⟨h.s.entry, !h.s.deferred, h.o.work⟩] } → j.surplusFrom h.c = none →
    j.ended.length ≠ h.c.nEntries →
    (s.dev.gate (.sample h.c.id h.s.entry) h.c.room (s.dev.endTraffic h (s.dev.outputOf h).bytes.length)).2 = true →
    Answers (.sampleEnd n) s fun e =>
      h.s ∉ e.med.samples ∧ e.job? h.c.id = some j
        ∧ e.rdBytes dst (s.dev.outputOf h).bytes.length = (s.dev.outputOf h).bytes ∧ e.rdLe res 2 = 0
        ∧ (∀ a, (a < dst ∨ dst + (s.dev.outputOf h).bytes.length ≤ a) → (a < res ∨ res + 32 ≤ a) →
            e.rdByte a = s.dev.rdByte a)) ∧
  (∀ (s : State) (n : Nat) (h : Held), n < 76 → s.dev.held? n = some h → h.c.room < 16 → h.defers = false → h.drops = false →
    s.dev.srcPoisoned h = false → s.dev.damageOf h = none →
    (s.dev.gate (.sample h.c.id h.s.entry) h.c.room (s.dev.endTraffic h (s.dev.outputOf h).bytes.length)).2 = false →
    Answers (.sampleEnd n) s fun e =>
      e.med = s.dev.med ∧ RegsKept s.dev e (regulatorRegs h.c.room) ∧ e.mem = s.dev.mem) ∧
  (∀ (s : State) (r k : Nat), r < 16 → k < 4 → s.dev.windowServed 0 MED_TOK_SLOT.base = true →
    s.dev.get MED_TOK_SLOT.LOADING (4 * r + k) = 0 → s.dev.get MED_TOK_SLOT.REFS (4 * r + k) = 0 →
    Answers (.tokLoad 0 r k) s fun e =>
      e.get MED_TOK_SLOT.GO (4 * r + k) = 1 ∧ e.get MED_TOK_SLOT.LOADING (4 * r + k) = 1
        ∧ RegsKept s.dev e [MED_TOK_SLOT.addr (4 * r + k)] ∧ e.mem = s.dev.mem) ∧
  (∀ (s : State) (r k t : Nat), r < 16 → k < 4 → s.dev.get MED_TOK_SLOT.LOADING (4 * r + k) = 1 →
    t = s.dev.get64 MED_TOK_ADDR_LO MED_TOK_ADDR_HI (4 * r + k) → t % 64 = 0 → inside (s.dev.ftWin r) t 0x8460 = true →
    s.dev.rdLe (t + 8) 4 ≤ 262144 → inside (s.dev.ftWin r) t (s.dev.tokBytes t) = true → s.dev.tokOk t = true →
    s.dev.poisoned t (s.dev.tokBytes t) = false → (s.dev.gate (.table (4 * r + k)) r [(false, t, s.dev.tokBytes t)]).2 = true →
    Answers (.tokLoadEnd r k) s fun e =>
      e.get MED_TOK_SLOT.VALID (4 * r + k) = 1 ∧ e.get MED_TOK_SLOT.LOADING (4 * r + k) = 0
        ∧ e.get MED_TOK_SLOT.CODE (4 * r + k) = 0
        ∧ e.rd MED_TOK_ID (4 * r + k) = crc32 (s.dev.rdBytes t (s.dev.tokBytes t))
        ∧ bitAt (e.get MED_STAT.TOK_DONE r) k = true ∧ e.mem = s.dev.mem) ∧
  (∀ (s : State) (fn r k : Nat) (b : Bool), r < 16 → k < 4 → mayAct fn r = true →
    s.dev.windowServed fn MED_TOK_SLOT.base = true →
    Answers (.tokSlotClose fn r k b) s fun e =>
      e.get MED_TOK_SLOT.CLOSE (4 * r + k) = (if b then 1 else 0) ∧ RegsKept s.dev e [MED_TOK_SLOT.addr (4 * r + k)]
        ∧ e.mem = s.dev.mem)

/-- PREP (R473 to R475), ENTRY_TAKE (R484), ENTRY_END (R485), PACK (R487) and PACK_COMPLETE (R489). A PREP command in order runs
from its first candidate, another ends with 0x0901. A free unit that takes an entry in order writes its resampled output at
the entry's destination. An entry's end writes its STATUS, 0x0921 where it has become too old, and frees the unit. A PACK
command takes a free unit with its placement, by which a sample goes into the first row with room for it; its end writes the
rows' token counts and completes it. A selection map that reads poisoned ends a PREP command with 0x0918 (the model's reading of
R328, log 193). What reads or writes memory goes on once its traffic has issued (R322, log 165). -/
def Obligations.PrepAndPack : Prop :=
  (∀ (s : State) (id : Nat) (c : Cmd), s.dev.starts id 0x30 = some c → c.selAddr = 0 → 1 ≤ c.nSlots → c.nSlots ≤ c.nEntries →
    s.dev.prepArgsOk c (64 * c.nEntries) (4 * c.nSlots) = true → c.dstBase < 2 ^ 52 → c.dstBase % 64 = 0 →
    c.dstStride % 64 = 0 → 64 ≤ c.dstStride →
    (∀ j ∈ s.dev.med.preps, j.cmd ≠ c.id) →
    Answers (.prep id) s fun e =>
      e.med.preps = s.dev.med.preps ++ [⟨c.id, List.range c.nEntries, 0, []⟩]
        ∧ e.cmd? id = some { c with phase := .started, deadline := 0 } ∧ e.regs = s.dev.regs ∧ e.mem = s.dev.mem) ∧
  (∀ (s : State) (id : Nat) (c : Cmd), s.dev.starts id 0x30 = some c →
    s.dev.prepArgsOk c (64 * c.nEntries) (4 * c.nSlots) = false →
    Answers (.prep id) s fun e => Completed s.dev e c 0x0901) ∧
  (∀ (s : State) (u id lvl k dst : Nat) (j : PrepJob) (c : Cmd) (g : Geo), u < 24 → s.dev.unit? u = none →
    s.dev.get FLT_ENG_STAT.RETIRED (88 + u) = 0 → s.dev.nextJob 5 (s.dev.med.preps.filterMap s.dev.prepReady) 4 0 = some (id, lvl) →
    s.dev.prep? id = some j → s.dev.cmd? id = some c → k = nth 0 j.cands j.next → g = s.dev.geoOf c k →
    s.dev.takeCode c k = 0 → s.dev.geoPoison g = false → s.dev.memx.dead = [] → c.room < 16 →
    dst = c.dstBase + k * c.dstStride →
    (s.dev.gate (.entry id k) c.room
      ((false, c.list + 64 * k, 64) :: (if s.dev.inWindows c.room g.aug 256 then [(false, g.aug, 256)] else []))).2 = true →
    Answers (.entryTake u) s fun e =>
      e.rdBytes dst (s.dev.geoOut g).1.length = (s.dev.geoOut g).1 ∧ MemKept s.dev e dst (s.dev.geoOut g).1.length
        ∧ (∃ x, e.unit? u = some x ∧ x.cmd = id ∧ x.entry = k ∧ x.live = g.live)
        ∧ e.prep? id = some { j with next := j.next + 1 } ∧ e.get MED_GEO_STAT.BUSY u = 1
        ∧ e.get MED_GEO_STAT.ROOM u = c.room) ∧
  (∀ (s : State) (u : Nat) (x : GeoUnit) (c : Cmd) (j i : PrepJob) (late : Bool), u < 24 → s.dev.unit? u = some x →
    s.dev.cmd? x.cmd = some c → s.dev.prep? c.id = some j →
    late = (x.live && decide (1000 * (s.dev.geoOf c x.entry).maxAge < (s.dev.geoOf c x.entry).ageAt s.dev.now)) →
    i = { j with ended := j.ended ++ [⟨x.entry, !late, 0⟩] } → i.surplus c.nSlots = none →
    (∃ k ∈ j.cands, ∀ y ∈ i.ended, y.entry ≠ k) → s.dev.memx.dead = [] →
    (s.dev.gate (.entry x.cmd x.entry) c.room [(false, (s.dev.geoOf c x.entry).src, (s.dev.geoOf c x.entry).srcBytes),
      (true, c.dstBase + x.entry * c.dstStride, (s.dev.geoOf c x.entry).size), (true, c.result + 32 * x.entry, 32)]).2 = true →
    Answers (.entryEnd u) s fun e =>
      e.unit? u = none ∧ e.prep? c.id = some i ∧ e.rdLe (c.result + 32 * x.entry) 2 = (if late then 0x0921 else 0)
        ∧ MemKept s.dev e (c.result + 32 * x.entry) 32) ∧
  (∀ (s : State) (id u lvl : Nat) (c : Cmd), s.dev.starts id 0x31 = some c →
    s.dev.prepArgsOk c (64 + 16 * c.nEntries) (4 * c.nSlots) = true → 1 ≤ c.nSlots → c.nSlots ≤ 4096 → c.dstBase = 0 →
    c.dstStride = 0 → s.dev.packHeaderOk c = true → s.dev.poisoned c.selAddr (4 * c.nSel) = false →
      s.dev.poisoned c.list 64 = false →
    s.dev.freePacker = some u →
    s.dev.nextJob 6 s.dev.packsReady 4 0 = some (c.id, lvl) → c.room < 16 →
    Answers (.pack id) s fun e =>
      (∃ p, e.med.packs = s.dev.med.packs ++ [p] ∧ p.unit = u ∧ p.cmd = c.id ∧ p.used = (s.dev.packing c).used
        ∧ p.placed = (s.dev.packing c).placed.length)
        ∧ e.cmd? id = some { c with phase := .started, deadline := 0 } ∧ e.get MED_PACK_STAT.BUSY u = 1
        ∧ e.get MED_PACK_STAT.ROOM u = c.room) ∧
  (∀ (s : State) (id : Nat) (c : Cmd), s.dev.starts id 0x30 = some c →
    s.dev.prepArgsOk c (64 * c.nEntries) (4 * c.nSlots) = true → c.prepOutOk = true → s.dev.poisoned c.selAddr (4 * c.nSel) = true →
    Answers (.prep id) s fun e => Completed s.dev e c 0x0918) ∧
  (∀ (rowLen k len r u : Nat) (trunc : Bool) (p : Packing), len ≤ rowLen → p.used[r]? = some u → u + len ≤ rowLen →
    (∀ q v, q < r → p.used[q]? = some v → rowLen < v + len) →
    ∃ t, (p.place rowLen trunc k len false).placed = p.placed ++ [⟨k, r, u, t, len, false⟩]
      ∧ (p.place rowLen trunc k len false).used[r]? = some (u + len)
      ∧ (p.place rowLen trunc k len false).failed = p.failed) ∧
  (∀ (s : State) (u : Nat) (p : PackJob) (c : Cmd), u < 2 → s.dev.med.packs.find? (fun p => p.unit == u) = some p →
    s.dev.cmd? p.cmd = some c → c.cplHost = true → c.room < 16 → c.queue < 16384 → s.dev.memx.dead = [] →
    (s.dev.gate (.pack u) c.room (s.dev.packTraffic c)).2 = true →
    Answers (.packComplete u) s fun e =>
      Completed s.dev e c 0 ∧ (∀ x ∈ e.med.packs, x.unit ≠ u) ∧ e.rd MED_PACK_STAT u = 0
        ∧ ∀ r, r < p.used.length → e.rdLe (c.result + 32 * c.nEntries + 4 * r) 4 = nth 0 p.used r % 2 ^ 32)

/-- ENC_OPEN (R498), ENC_FRAME and ENC_CLOSE (R499), BLOCK_ROW_START and ROW_COUNTER_POLL (R503), BLOCK_ROW_END (R505),
CHUNK_EMIT (R501) and RING_POLL (R502), ROWS_TIMEOUT and RING_TIMEOUT (R513). A stream in order opens; a frame of an open stream
is queued, and of none ends with 0x0A05; closing forgets the stream. A block row starts once its rows are counted, and its end
is followed by a chunk where one is due. A chunk that fits the ring is written there and WR_PTR follows it; one that does not
waits and is counted. A row, its counter and a chunk wait until their traffic has issued (R322, R332, log 165). A wait that
lasts too long ends the frame with 0x0A11 or 0x0A12. -/
def Obligations.VideoEncoding : Prop :=
  (∀ (s : State) (id : Nat) (c : Cmd) (x : EncStream), s.dev.starts id 0x40 = some c → x.ctx = c.arg64 0 →
    x.words = c.words.drop 8 → s.dev.hasFrame c.room x.ctx = false → s.dev.stream? c.room x.ctx = none → x.fieldsOk = true →
    inside (s.dev.ftWin c.room) x.ctx ctxBytes = true → s.dev.inWindows c.room x.ring x.ringSize = true →
    s.dev.inWindows c.room x.ref (3 * x.refBytes) = true → x.mode = 2 → x.priv = false →
    Answers (.encOpen id) s fun e =>
      Completed s.dev e c 0
        ∧ ∃ y, e.vc.streams = s.dev.vc.streams ++ [y] ∧ y.room = c.room ∧ y.ctx = x.ctx ∧ y.words = x.words ∧ y.window = none
          ∧ y.frames = 0 ∧ y.written = 0 ∧ y.needKey = true ∧ y.lastQp = x.qpInit) ∧
  (∀ (s : State) (id : Nat) (c : Cmd) (x : EncStream), s.dev.starts id 0x40 = some c → x.ctx = c.arg64 0 →
    x.words = c.words.drop 8 → s.dev.hasFrame c.room x.ctx = false → x.fieldsOk = false →
    Answers (.encOpen id) s fun e => Completed s.dev e c 0x0A01 ∧ e.vc = s.dev.vc) ∧
  (∀ (s : State) (id : Nat) (c : Cmd), s.dev.starts id 0x41 = some c → c.encOk = true →
    (s.dev.stream? c.room (c.arg64 0)).isSome = true →
    Answers (.encFrame id) s fun e =>
      (∃ f, e.vc.frames = s.dev.vc.frames ++ [f] ∧ f.cmd = c.id ∧ f.room = c.room ∧ f.ctx = c.arg64 0 ∧ f.engine = none
        ∧ f.begun = false ∧ f.row = 0)
        ∧ e.cmd? id = some { c with phase := .started, deadline := 0 } ∧ e.regs = s.dev.regs ∧ e.mem = s.dev.mem) ∧
  (∀ (s : State) (id : Nat) (c : Cmd), s.dev.starts id 0x41 = some c → c.encOk = true →
    s.dev.stream? c.room (c.arg64 0) = none → Answers (.encFrame id) s fun e => Completed s.dev e c 0x0A05) ∧
  (∀ (s : State) (id : Nat) (c : Cmd) (x : EncStream), s.dev.starts id 0x42 = some c →
    s.dev.hasFrame c.room (c.arg64 0) = false → s.dev.stream? c.room (c.arg64 0) = some x →
    (∀ w, x.window = some w → w < 2) →
    Answers (.encClose id) s fun e => Completed s.dev e c 0 ∧ e.stream? c.room (c.arg64 0) = none) ∧
  (∀ (s : State) (n : Nat) (k : Coding) (ins : Instr), n < 8 → s.dev.coding? n = some k → k.f.phase = .rows →
    s.dev.rowsThere k = true → (ins = .rowCounterPoll n ∨ (ins = .blockRowStart n ∧ s.dev.nextFrame n = none)) →
    (k.rowsAddr = 0 ∨ k.repeats = true ∨ s.dev.requestWaits (some k.f.room) k.rowsAddr 4 = false) →
    Answers ins s fun e =>
      e.coding? n = some { k with f := { k.f with phase := .coding } } ∧ e.get VC_ENG_STAT.WAITING n = 0
        ∧ RegsKept s.dev e (VC_ENG_STAT.addr n :: regulatorRegs k.f.room) ∧ e.mem = s.dev.mem) ∧
  (∀ (s : State) (n : Nat) (k : Coding), n < 8 → s.dev.coding? n = some k → k.f.phase = .rows → k.rowsAddr ≠ 0 →
    k.repeats = false → (s.dev.requestWaits (some k.f.room) k.rowsAddr 4 = true ∨ s.dev.rowsThere k = false) →
    Answers (.rowCounterPoll n) s fun e =>
      e.vc = s.dev.vc ∧ RegsKept s.dev e (regulatorRegs k.f.room) ∧ e.mem = s.dev.mem) ∧
  (∀ (s : State) (n : Nat) (k : Coding), n < 8 → s.dev.coding? n = some k → k.f.phase = .coding →
    k.rowReads.any (fun a => s.dev.poisoned a.1 a.2) = false → s.dev.refPoison k = false →
    (s.dev.frameGate k k.rowTraffic).2 = true → (k.s.hb ≤ k.f.row + 1 ∨ (k.f.row + 1) % k.s.chunkRows = 0) →
    Answers (.blockRowEnd n) s fun e =>
      ∃ q, e.coding? n = some q ∧ q.f.row = k.f.row + 1 ∧ q.f.phase = .chunk false ∧ k.f.bits ≤ q.f.bits ∧ e.mem = s.dev.mem) ∧
  (∀ (s : State) (n host : Nat) (k : Coding) (ins : Instr), n < 8 → s.dev.coding? n = some k →
    ((ins = .blockRowEnd n ∧ k.f.phase = .coding ∧ (s.dev.frameGate k k.rowTraffic).2 = false)
      ∨ (ins = .chunkEmit n host ∧ k.f.phase = .chunk false ∧ k.s.ptrHost = true
        ∧ (s.dev.placed k = true ∨ s.dev.ringFits k false host = true)
          ∧ (s.dev.frameGate k (s.dev.chunkWrites k false)).2 = false)) →
    Answers ins s fun e =>
      e.vc = s.dev.vc ∧ e.out = s.dev.out ∧ RegsKept s.dev e (regulatorRegs k.f.room) ∧ e.mem = s.dev.mem) ∧
  (∀ (s : State) (n host bytes o : Nat) (k : Coding) (ins : Instr), n < 8 → s.dev.coding? n = some k →
    s.dev.vc.frames = [k.f] →
    ((ins = .chunkEmit n host ∧ k.f.phase = .chunk false) ∨ (ins = .ringPoll n host ∧ k.f.phase = .ring false)) →
    k.s.ptrHost = true → (s.dev.placed k = true ∨ s.dev.ringFits k false host = true) → k.f.row < k.s.hb → s.dev.memx.dead = [] →
    (s.dev.frameGate k (s.dev.chunkWrites k false)).2 = true →
    bytes = k.f.chunkBytes false → o = k.s.written % k.s.ringSize → o + bytes ≤ k.s.ringSize →
    Answers ins s fun e =>
      e.rdBytes (k.s.ring + o) bytes = (List.range bytes).map (Config.encByte k.f.hist k.f.chunks)
        ∧ MemKept s.dev e (k.s.ring + o) bytes
        ∧ .hostWrite (1 + k.f.room) k.s.wrAddr (toLe 8 ((k.s.written + bytes) % 2 ^ 64)) ∈ e.out
        ∧ ∃ q, e.coding? n = some q ∧ q.f.phase = .rows ∧ q.f.chunks = k.f.chunks + 1
          ∧ q.s.written = (k.s.written + bytes) % 2 ^ 64) ∧
  (∀ (s : State) (n host : Nat) (k : Coding), n < 8 → s.dev.coding? n = some k → k.f.phase = .chunk false → k.s.ptrHost = true →
    s.dev.ringFits k false host = false → s.dev.placed k = false → k.f.room < 16 →
    Answers (.chunkEmit n host) s fun e =>
      (∃ q, e.coding? n = some q ∧ q.f.phase = .ring false ∧ q.f.since = s.dev.now)
        ∧ e.rd VC_RING_WAIT_CNT k.f.room = min (s.dev.rd VC_RING_WAIT_CNT k.f.room + 1) 0xFFFFFFFF
        ∧ RegsKept s.dev e [VC_ENG_STAT.addr n, VC_RING_WAIT_CNT.addr k.f.room] ∧ e.mem = s.dev.mem) ∧
  (∀ (s : State) (n : Nat) (k : Coding), n < 8 → s.dev.coding? n = some k → k.f.phase = .rows → s.dev.rowsThere k = false →
    s.dev.waited k.f.since (k.s.w 19) = true → k.f.room < 16 →
    Answers (.rowsTimeout n) s fun e => Completed s.dev e k.c 0x0A11 ∧ ∀ f ∈ e.vc.frames, f.cmd ≠ k.f.cmd) ∧
  (∀ (s : State) (n : Nat) (b : Bool) (k : Coding), n < 8 → s.dev.coding? n = some k → k.f.phase = .ring b →
    s.dev.waited k.f.since (k.s.w 20) = true → s.dev.placed k = false → k.f.room < 16 →
    Answers (.ringTimeout n) s fun e => Completed s.dev e k.c 0x0A12 ∧ ∀ f ∈ e.vc.frames, f.cmd ≠ k.f.cmd)


/-! ## Ageing, power and cooling -/

/-- MARGIN_SAMPLE (R532, R533), VOLTAGE_STEP (R533, R535), TERM_END (R534, R535), EYE_SCAN (R536, R537), CARD_COPY and CARD_COPY_END
(R538). A sample leaves each Spindle's margin, its least and its sensitivity, and the minutes of the Term that are left. The
guard raises the offset of the step in use while a margin lies below the floor; a re-plan moves an offset one step towards its
target. A Term end begins the re-plan and the scans: a Spindle alone on its die asks ⌈(target − m) / s⌉ steps. A scan notes the
eye width; the last one writes the card of the Term, from which the next Term counts. A copy puts the newest card into the
fast tier. -/
def Obligations.AgeingAndMargins : Prop :=
  (∀ (s : State) (a : AgeSample), (∀ x ∈ a.spx, x.1 < 1024) → (a.spx.map fun x => x.1).Nodup →
    (∀ die, die < 16 → s.dev.voff die (s.dev.get PWR_STAT.STEP 0) < 20) →
    Answers (.marginSample a) s fun e =>
      (∀ x ∈ a.spx, e.get AGE_MARGIN.M x.1 = min 255 (x.2.1 / 4) ∧ e.get AGE_MARGIN.SENS x.1 = min 255 x.2.2
        ∧ e.get AGE_MARGIN.MIN x.1 = min (min 255 (x.2.1 / 4)) (s.dev.get AGE_MARGIN.MIN x.1))
        ∧ e.get AGE_TERM_LEFT.MIN 0
          = 60 * s.dev.get AGE_CTL.TERM_H 0 - (max s.dev.flt.poweredMin a.minutes - s.dev.flt.termStart)
        ∧ RegsKept s.dev e (AGE_TERM_LEFT.addr 0 :: a.spx.map fun x => AGE_MARGIN.addr x.1) ∧ e.mem = s.dev.mem) ∧
  (∀ (s : State) (die f : Nat) (ms : List (Nat × Nat)), die < 16 → f < 5 → f = s.dev.get PWR_STAT.STEP 0 →
    s.dev.lowOnes die ≠ [] → s.dev.voff die f < 19 →
    Answers (.voltageStep die f ms) s fun e =>
      e.voff die f = s.dev.voff die f + 1 ∧ e.get AGE_STAT.GUARD_EV 0 = 1 ∧ e.mem = s.dev.mem) ∧
  (∀ (s : State) (die f : Nat) (ms : List (Nat × Nat)) (w : Int), die < 16 → f < 5 →
    (f ≠ s.dev.get PWR_STAT.STEP 0 ∨ s.dev.lowOnes die = []) → s.dev.want? die f = some w → -20 ≤ w → w ≤ 20 →
    s.dev.flt.scanLeft ≠ [] →
    Answers (.voltageStep die f ms) s fun e =>
      e.voff die f = s.dev.voff die f + (if s.dev.voff die f < w then 1 else if w < s.dev.voff die f then -1 else 0)
        ∧ RegsKept s.dev e (AGE_VOFF.addr die :: ms.map fun x => AGE_MARGIN.addr x.1) ∧ e.mem = s.dev.mem) ∧
  (∀ (s : State) (f i m4 s10 : Nat) (n : Int), s.dev.get AGE_CTL.EN 0 = 1 → s.dev.get AGE_TERM_LEFT.MIN 0 = 0 →
    s.dev.get AGE_STAT.REPLAN 0 = 0 → s.dev.awake = true → s.dev.boot.stage = .ready → s.dev.flt.wdogBusy = false →
    f < 5 → i < 1024 → s.dev.get SPX_STATE.STATE i = 0 → s.dev.get FLT_SPX_STAT.RETIRED i = 0 → 0 < s10 →
    (n - 1) * (4 * s10) < 10 * (4 * s.dev.get AGE_CTL.TARGET_PS 0 - m4) →
    10 * (4 * (s.dev.get AGE_CTL.TARGET_PS 0 : Int) - m4) ≤ n * (4 * s10) → s.dev.scannable ≠ [] →
    Answers (.termEnd ⟨[(f, i, m4, s10)], [], []⟩) s fun e =>
      e.get AGE_STAT.REPLAN 0 = 1 ∧ e.flt.scanLeft = s.dev.scannable ∧ (∀ c ∈ s.dev.scannable, c ∈ e.memx.trainWait)
        ∧ (let w := max (-20) (min 20 (s.dev.voff (i / 64) f + n))
           w ≠ s.dev.voff (i / 64) f → e.want? (i / 64) f = some w)
        ∧ RegsKept s.dev e [AGE_STAT.addr 0] ∧ e.mem = s.dev.mem) ∧
  (∀ (s : State) (ch eye : Nat), ch < 448 → ch ∈ s.dev.flt.scanLeft → s.dev.get MEM_CHAN_STATE.STATE ch = 1 →
    s.dev.get AGE_CTL2.EYE_FLOOR 0 ≤ eye → (∃ c ∈ s.dev.flt.scanLeft, c ≠ ch) →
    Answers (.eyeScan ch eye) s fun e =>
      e.flt.scanLeft = s.dev.flt.scanLeft.filter (fun c => c != ch)
        ∧ e.flt.eyes.find? (fun p => p.1 == ch) = some (ch, min 255 eye) ∧ e.regs = s.dev.regs ∧ e.mem = s.dev.mem) ∧
  (∀ (s : State) (ch eye : Nat), ch < 448 → s.dev.flt.scanLeft = [ch] → s.dev.get MEM_CHAN_STATE.STATE ch = 1 →
    s.dev.get AGE_CTL2.EYE_FLOOR 0 ≤ eye → s.dev.get AGE_STAT.REPLAN 0 = 1 → s.dev.flt.voffWant = [] →
    s.dev.flt.wdogBusy = false →
    Answers (.eyeScan ch eye) s fun e =>
      e.cardTerm (s.dev.flt.term % 64) = some (s.dev.flt.term % 2 ^ 32) ∧ e.flt.term = s.dev.flt.term + 1
        ∧ e.flt.termStart = s.dev.flt.poweredMin ∧ e.rd AGE_REPORT 0 = s.dev.flt.term % 2 ^ 32
        ∧ e.get AGE_STAT.REPLAN 0 = 0 ∧ e.get AGE_STAT.TERM_EV 0 = 1
        ∧ (∀ i, i < 1024 → e.get AGE_MARGIN.MIN i = s.dev.get AGE_MARGIN.M i) ∧ e.mem = s.dev.mem) ∧
  (∀ s : State, s.dev.windowServed 0 AGE_CARD_CTL.base = true →
    Answers (.cardCopy 0) s fun e =>
      e.get AGE_CARD_CTL.COPY 0 = 1 ∧ RegsKept s.dev e [AGE_CARD_CTL.addr 0] ∧ e.mem = s.dev.mem) ∧
  (∀ (s : State) (a : Nat), s.dev.get AGE_CARD_CTL.COPY 0 = 1 →
    a = s.dev.get64 AGE_CARD_ADDR_LO AGE_CARD_ADDR_HI 0 / 4096 * 4096 → a + 4096 ≤ ftEnd → s.dev.memx.dead = [] →
    Answers .cardCopyEnd s fun e =>
      (match s.dev.newestCard with
       | some (k, _) => e.rdBytes a 4096 = s.dev.flashBytes (0x1000000 + 4096 * k) 4096
       | none => e.mem = s.dev.mem)
        ∧ MemKept s.dev e a 4096 ∧ e.get AGE_CARD_CTL.COPY 0 = 0 ∧ e.get AGE_CARD_CTL.COPY_DONE 0 = 1
          ∧ RegsKept s.dev e [AGE_CARD_CTL.addr 0])

/-- POWER_CHECK (R545, R547, R548), SUPPLY_RAMP_DONE (R544), DRAW_CONTROL (R549), PWR_CAP_IN_ASSERT and PWR_CAP_IN_DEASSERT (R554,
R607), TJ_SAMPLE (R555), FLOW_DEMAND (R556), FLOW_ACTUATE (R557), FLOW_PULSE (R612), NTC_SAMPLE (R613), COOLANT_CONDITION and
FAULT_CAP_RELEASE (R558). A mean above the effective cap steps FCLK down, at ÷12 the duty; a hundred checks with headroom begin a
step up, which its supply ramp ends. A draw that cannot reach its lower bound is counted. The cap input sets the cap and
steps down where the mean lies above it. A die at 105 °C steps down. The demand lies within 4 to 12 L/min, and is 12 with
the outlet's thermistor at fault; a duty changes by at most 8. A condition that caps power holds until its causes are clear. -/
def Obligations.PowerAndCoolant : Prop :=
  (∀ (s : State) (mean v48 : Nat), s.dev.awake = true → s.dev.pwr.ramp = false → s.dev.pCap < mean → s.dev.pwr.downBy ≠ 2 →
    (s.dev.get PWR_STAT.STEP 0 < 4 ∨ (s.dev.get PWR_STAT.STEP 0 = 4 ∧ 0 < s.dev.get PWR_STAT.DUTY 0)) →
    Answers (.powerCheck mean v48) s fun e =>
      e.get PWR_INPUT.P_W 0 = min 16383 mean ∧ e.get PWR_INPUT.V48 0 = min 1023 v48 ∧ e.pwr.downBy = 1
        ∧ (if s.dev.get PWR_STAT.STEP 0 < 4 then
             e.get PWR_STAT.STEP 0 = s.dev.get PWR_STAT.STEP 0 + 1 ∧ e.get PWR_STAT.DUTY 0 = s.dev.get PWR_STAT.DUTY 0
               ∧ e.rd PWR_STEP_CNT 0 = min (s.dev.rd PWR_STEP_CNT 0 + 1) 0xFFFFFFFF
           else e.get PWR_STAT.STEP 0 = 4 ∧ e.get PWR_STAT.DUTY 0 = s.dev.get PWR_STAT.DUTY 0 - 1)
        ∧ RegsKept s.dev e [PWR_INPUT.addr 0, PWR_STAT.addr 0, PWR_STEP_CNT.addr 0] ∧ e.mem = s.dev.mem) ∧
  (∀ (s : State) (mean v48 : Nat), s.dev.awake = true → s.dev.pwr.ramp = false → mean ≤ s.dev.pCap →
    s.dev.headroom mean = true → s.dev.pwr.calm = 99 → s.dev.pwr.hot = false → s.dev.get PWR_STAT.DUTY 0 = 15 →
    0 < s.dev.get PWR_STAT.STEP 0 → s.dev.get THM_TJ.TJ_MAX 0 < 1000 →
    Answers (.powerCheck mean v48) s fun e =>
      e.pwr.ramp = true ∧ e.pwr.calm = 0 ∧ RegsKept s.dev e [PWR_INPUT.addr 0] ∧ e.mem = s.dev.mem) ∧
  (∀ s : State, s.dev.pwr.ramp = true → 0 < s.dev.get PWR_STAT.STEP 0 →
    Answers .supplyRampDone s fun e =>
      e.pwr.ramp = false ∧ e.get PWR_STAT.STEP 0 = s.dev.get PWR_STAT.STEP 0 - 1
        ∧ e.rd PWR_STEP_CNT 0 = min (s.dev.rd PWR_STEP_CNT 0 + 1) 0xFFFFFFFF
        ∧ RegsKept s.dev e [PWR_STAT.addr 0, PWR_STEP_CNT.addr 0] ∧ e.mem = s.dev.mem) ∧
  (∀ (s : State) (x : DrawSample) (p hi lo : Int), s.dev.awake = true → s.dev.pwr.profile = [] → s.dev.pwr.bins = [] →
    s.dev.pwr.adv = none → s.dev.ballast = false → p = 1000000 * x.mean →
    hi = min (1000000 * (s.dev.pCap : Int)) (p + 10000 * s.dev.get PWR_RAMP.UP_W_MS 0) →
    lo = min (p - 10000 * s.dev.get PWR_RAMP.DOWN_W_MS 0) hi →
    Answers (.drawControl x) s fun e =>
      (if 1000000 * ((x.natural : Int) + x.fill) < lo then
         e.get PWR_STAT.RAMP_EV 0 = 1 ∧ e.rd PWR_RAMP_CNT 0 = min (s.dev.rd PWR_RAMP_CNT 0 + 1) 0xFFFFFFFF
           ∧ RegsKept s.dev e (PWR_STAT.addr 0 :: PWR_RAMP_CNT.addr 0 :: irqRegs 0)
       else e.regs = s.dev.regs) ∧ e.mem = s.dev.mem) ∧
  (∀ (s : State) (us mean : Nat), 10 ≤ us → s.dev.get PWR_STAT.CAP_IN 0 = 0 → s.dev.pwr.ramp = false →
    s.dev.get PWR_STAT.STEP 0 ≤ 4 → (s.dev.get PWR_STAT.STEP 0 < 4 ∨ 0 < s.dev.get PWR_STAT.DUTY 0) →
    Answers (.pwrCapInAssert us mean) s fun e =>
      e.get PWR_STAT.CAP_IN 0 = 1 ∧ e.get PWR_STAT.CAP_EV 0 = 1 ∧ e.mem = s.dev.mem
        ∧ (if mean ≤ (s.dev.set PWR_STAT.CAP_IN 0 1).pCap then
             e.get PWR_STAT.STEP 0 = s.dev.get PWR_STAT.STEP 0 ∧ e.get PWR_STAT.DUTY 0 = s.dev.get PWR_STAT.DUTY 0
           else s.dev.get PWR_STAT.STEP 0 < e.get PWR_STAT.STEP 0 ∨ e.get PWR_STAT.DUTY 0 < s.dev.get PWR_STAT.DUTY 0)
        ∧ RegsKept s.dev e (PWR_STAT.addr 0 :: PWR_STEP_CNT.addr 0 :: irqRegs 0)) ∧
  (∀ (s : State) (us : Nat), 10 ≤ us →
    Answers (.pwrCapInDeassert us) s fun e =>
      e.rd PWR_STAT 0 = s.dev.rd PWR_STAT 0 - 8 * s.dev.get PWR_STAT.CAP_IN 0 ∧ RegsKept s.dev e [PWR_STAT.addr 0]
        ∧ e.mem = s.dev.mem) ∧
  (∀ (s : State) (ts : List Nat) (t k : Nat), ts.length ≤ 24 → ts[k]? = some t →
    (∀ j u, ts[j]? = some u → u ≤ t ∧ (u = t → k ≤ j)) → t < 1050 → s.dev.pwr.hot = false →
    Answers (.tjSample ts) s fun e =>
      e.get THM_TJ.TJ_MAX 0 = t ∧ e.get THM_TJ.DIE 0 = k ∧ RegsKept s.dev e [THM_TJ.addr 0] ∧ e.mem = s.dev.mem) ∧
  (∀ (s : State) (ts : List Nat) (t : Nat), t ∈ ts → ts.length ≤ 24 → 1050 ≤ t → s.dev.awake = true → s.dev.pwr.ramp = false →
    s.dev.pwr.downBy ≠ 1 → s.dev.get PWR_STAT.STEP 0 < 4 →
    Answers (.tjSample ts) s fun e =>
      e.get PWR_STAT.TJ_EV 0 = 1 ∧ e.pwr.hot = true ∧ e.pwr.downBy = 2
        ∧ e.get PWR_STAT.STEP 0 = s.dev.get PWR_STAT.STEP 0 + 1
        ∧ e.rd PWR_STEP_CNT 0 = min (s.dev.rd PWR_STEP_CNT 0 + 1) 0xFFFFFFFF ∧ e.mem = s.dev.mem) ∧
  (∀ s : State, s.dev.loopOn = true →
    Answers .flowDemand s fun e =>
      400 ≤ e.get THM_DEMAND.Q 0 ∧ e.get THM_DEMAND.Q 0 ≤ 1200
        ∧ (s.dev.pwr.outletFault = true → e.get THM_DEMAND.Q 0 = 1200)
        ∧ RegsKept s.dev e [THM_FLOW.addr 0, THM_DEMAND.addr 0] ∧ e.mem = s.dev.mem) ∧
  (∀ s : State, s.dev.loopOn = true →
    Answers .flowActuate s fun e =>
      (let pump := s.dev.get THM_DEMAND.PUMP_DUTY 0
       let valve := s.dev.get THM_DEMAND.VALVE_DUTY 0
       match s.dev.get THM_FLOW_CTL.ACT 0 with
       | 0 => e.get THM_DEMAND.PUMP_DUTY 0 = s.dev.nextDuty pump ∧ e.get THM_DEMAND.VALVE_DUTY 0 = valve
       | 1 => e.get THM_DEMAND.VALVE_DUTY 0 = s.dev.nextDuty valve ∧ e.get THM_DEMAND.PUMP_DUTY 0 = pump
       | _ => e.get THM_DEMAND.VALVE_DUTY 0 = s.dev.nextDuty valve
           ∧ e.get THM_DEMAND.PUMP_DUTY 0 = s.dev.get THM_FLOW_CTL.PUMP_FIX 0)
        ∧ (∀ n, 1 ≤ n → n ≤ 255 → 1 ≤ s.dev.nextDuty n ∧ s.dev.nextDuty n ≤ 255 ∧ s.dev.nextDuty n ≤ n + 8
          ∧ n ≤ s.dev.nextDuty n + 8)
        ∧ RegsKept s.dev e [THM_DEMAND.addr 0] ∧ e.mem = s.dev.mem) ∧
  (∀ (s : State) (input : Nat), input < 2 →
    Answers (.flowPulse input) s fun e =>
      (input, s.dev.now) ∈ e.pwr.edges ∧ (∀ x ∈ s.dev.pwr.edges, s.dev.now < x.2 + 2000000000 → x ∈ e.pwr.edges)
        ∧ e.regs = s.dev.regs ∧ e.mem = s.dev.mem) ∧
  (∀ (s : State) (r0 r1 r2 r3 : Nat),
    Answers (.ntcSample [r0, r1, r2, r3]) s fun e =>
      e.pwr.temps = [ntcTemp r0, ntcTemp r1, ntcTemp r2, ntcTemp r3]
        ∧ RegsKept s.dev e [THM_TEMP0.addr 0, THM_TEMP1.addr 0] ∧ e.mem = s.dev.mem) ∧
  (∀ (s : State) (kind sub : Nat), kind < 6 → s.dev.condition kind sub = true →
    Answers (.coolantCondition kind sub) s fun e =>
      bitAt (e.rd THM_STAT 0) kind = true ∧ bitAt e.mgmt.causes 4 = true
        ∧ e.get PWR_STAT.FAULT_CAP 0 = (if capping kind sub then 1 else s.dev.get PWR_STAT.FAULT_CAP 0)
        ∧ (capping kind sub = true → kind ∈ e.pwr.causes) ∧ e.mem = s.dev.mem) ∧
  (∀ s : State, (∀ k ∈ s.dev.pwr.causes, s.dev.condition k 1 = false) →
    Answers .faultCapRelease s fun e =>
      e.get PWR_STAT.FAULT_CAP 0 = 0 ∧ e.pwr.causes = [] ∧ RegsKept s.dev e [PWR_STAT.addr 0] ∧ e.mem = s.dev.mem)

/-! ## Recess, power-up and boot -/

/-- RECESS_ENTER (R559), RECESS_REACHED (R560, R561), WAKE, WAKE_TIME and LINK_CTL_WAKE (R563), WAKE_SEND (R563) and
WAKE_COMPLETE (R563); AUX_POWER_ON, V48_APPLIED and PWR_GOOD_ASSERT (R567), RESET_N_RELEASE (R568, R569), FIRMWARE_VERIFIED
(R570), BOOT_STAGE_DONE and BOOT_COMPLETE (R569), BOOT_TIMEOUT (R571); the pins outside normal operation (R581, R614, log 198).
Recess is entered where nothing stands against it, and a refusal leaves its code; requests of the tiers complete first, and of
the Spindle storage only the retained segments keep their bytes. A wake trains every channel in service. A wake event in Recess
begins the wake. Power, RESET_N, the boot ROM and the stages of firmware follow one another up to READY, at which every Spindle
that has not been retired serves its own position. -/
def Obligations.RecessAndPowerUp : Prop :=
  (∀ s : State, s.dev.boot.stage = .ready → s.dev.awake = true →
    Answers (.recessEnter 0) s fun e =>
      e.mem = s.dev.mem ∧
      (if s.dev.recessCode = 0 then
         e.get PWR_RECESS.STATE 0 = 1 ∧ e.bell.started = false ∧ e.get PWR_STAT.ADV 0 = 0
           ∧ e.bell.place = none ∧ e.bell.late = none ∧ e.bell.trail = false
           ∧ RegsKept s.dev e [PWR_RECESS.addr 0, PWR_STAT.addr 0]
       else e.get PWR_STAT.CODE 0 = s.dev.recessCode ∧ e.awake = true ∧ e.bell = s.dev.bell
         ∧ RegsKept s.dev e [PWR_STAT.addr 0])) ∧
  (∀ (s : State) (b : Dev), s.dev.get PWR_RECESS.STATE 0 = 1 → s.dev.memx.prior = [] → b = s.dev.drainTiers →
    Answers .recessReached s fun e =>
      ((∀ q ∈ s.dev.memx.reqs, q.phase ≠ .held ∧ q.phase ≠ .queued ∧ q.phase ≠ .flight) → b = s.dev)
        ∧ e.get PWR_RECESS.STATE 0 = (if s.dev.pwr.wakeWait then 3 else 2) ∧ e.pwr.wakeWait = false
        ∧ (∀ a, e.rdByte a = if a < deskBase 0 ∨ b.survives a = true then b.rdByte a else 0)
        ∧ (∀ i, i < 1024 → e.rd SPX_VX_STAT i = 0 ∧ e.rd SPX_MX_STAT i = 0)
        ∧ e.spx = [] ∧ e.reels = [] ∧ e.net = NetSt.init ∧ (∀ r, r < 16 → (e.room r).bankA = [] ∧ (e.room r).bankS = [])
        ∧ RegsKept b e (PWR_RECESS.addr 0 :: (List.range 1024).flatMap fun i => [SPX_VX_STAT.addr i, SPX_MX_STAT.addr i])) ∧
  (∀ s : State, s.dev.memx.prior ≠ [] → exec .recessReached s = .next s) ∧
  (∀ (s : State) (c : Instr),
    ((c = .wake 0 ∧ s.dev.boot.stage = .ready)
      ∨ (c = .wakeTime ∧ s.dev.get PWR_RECESS.WAKE_TIME 0 = 1 ∧ s.dev.get64 PWR_WAKE_AT_LO PWR_WAKE_AT_HI 0 ≤ s.dev.now)
      ∨ (∃ p, p < 12 ∧ c = .linkCtlWake p ∧ s.dev.get PWR_RECESS.WAKE_KL 0 = 1)) →
    Answers c s fun e =>
      e.mem = s.dev.mem ∧
      (s.dev.get PWR_RECESS.STATE 0 = 2 → e.get PWR_RECESS.STATE 0 = 3 ∧ RegsKept s.dev e [PWR_RECESS.addr 0]) ∧
      (s.dev.get PWR_RECESS.STATE 0 = 1 → e.pwr.wakeWait = true ∧ e.regs = s.dev.regs)) ∧
  (∀ (s : State) (ports : Nat), s.dev.boot.stage = .ready →
    Answers (.wakeSend 0 ports) s fun e =>
      (∀ p, p < 12 → bitAt ports p = true → s.dev.get KL_PORT_STAT.STATE p ≠ 3 →
        .linkCtl p lcWake 0 ∈ e.out ∧ ∃ bytes, .flit p bytes ∈ e.out ∧ bytes.length = 256) ∧
      (∀ p, bitAt ports p = false ∨ s.dev.get KL_PORT_STAT.STATE p = 3 → e.port p = s.dev.port p) ∧ e.regs = s.dev.regs
        ∧ e.mem = s.dev.mem) ∧
  (∀ s : State, s.dev.get PWR_RECESS.STATE 0 = 3 → (∀ r, r < 16 → s.dev.roomState r ≠ stHeld) →
    (∀ c, c < 448 → s.dev.trainCount c + 1 < s.dev.get MEM_RT_CTL.RETIRE_N 0) →
    Answers (.wakeComplete [] []) s fun e =>
      (∀ c, c < 448 → s.dev.get MEM_CHAN_STATE.STATE c ≠ 3 → s.dev.get MEM_CHAN_STATE.STATE c ≠ 4 →
        e.rd MEM_RETRAIN_CNT c = min (s.dev.rd MEM_RETRAIN_CNT c + 1) 0xFFFFFFFF ∧ e.get MEM_CHAN_STATE.MARGINAL c = 0
          ∧ e.get MEM_CHAN_STATE.STATE c = s.dev.get MEM_CHAN_STATE.STATE c ∧ e.get MEM_STATUS.RETRAIN_EV 0 = 1) ∧
      (∀ c, c < 448 → s.dev.get MEM_CHAN_STATE.STATE c = 3 ∨ s.dev.get MEM_CHAN_STATE.STATE c = 4 →
        e.rd MEM_RETRAIN_CNT c = s.dev.rd MEM_RETRAIN_CNT c ∧ e.rd MEM_CHAN_STATE c = s.dev.rd MEM_CHAN_STATE c) ∧
      e.awake = true ∧ e.get PWR_STAT.WAKE_EV 0 = 1 ∧ bitAt e.mgmt.causes 7 = true
        ∧ RegsKept s.dev e (PWR_RECESS.addr 0 :: PWR_STAT.addr 0 :: MEM_STATUS.addr 0 :: irqRegs 0
          ++ (List.range 448).flatMap fun c => [MEM_RETRAIN_CNT.addr c, MEM_CHAN_STATE.addr c]) ∧ e.mem = s.dev.mem) ∧
  (∀ (s : State) (n : Nat), s.dev.boot.aux = false →
    Answers (.auxPowerOn n) s fun e =>
      e.boot = { s.dev.boot with aux := true, addrSel := n % 4 } ∧ e.mgmt.causes = 0 ∧ e.mgmt.unmasked = 0xFF
        ∧ e.regs = s.dev.regs ∧ e.mem = s.dev.mem) ∧
  (∀ s : State, s.dev.boot.aux = true → s.dev.boot.conv = false → s.dev.boot.released = false → s.dev.get THM_STAT.TRIP 0 = 0 →
    Answers .v48Applied s fun e => e = { s.dev with boot := { s.dev.boot with conv := true } }) ∧
  (∀ s : State, s.dev.boot.conv = true → s.dev.boot.good = false →
    Answers .pwrGoodAssert s fun e =>
      e.boot = { s.dev.boot with good := true } ∧ e.out = .pin "PWR_GOOD" 1 :: s.dev.out ∧ e.regs = s.dev.regs
        ∧ e.mem = s.dev.mem) ∧
  (∀ s : State, s.dev.boot.good = true → s.dev.boot.released = false → s.dev.get THM_STAT.TRIP 0 = 0 →
    Answers .resetNRelease s fun e =>
      e.boot.released = true ∧ e.boot.stage = .rom 0 ∧ e.regs = s.dev.regs ∧ e.mem = s.dev.mem) ∧
  (∀ (s : State) (k : Nat), s.dev.boot.stage = .rom k →
    Answers .firmwareVerified s fun e =>
      e.mem = s.dev.mem ∧
      (if s.dev.slotOk k then
         e.boot.stage = .firmware [] ∧ e.rd SYS_FW_VER 0 = ofLe (s.dev.flashBytes (slotBase k + 4) 4)
           ∧ RegsKept s.dev e [SYS_FW_VER.addr 0]
       else e.boot.stage = (if k = 0 then .rom 1 else .noFirmware) ∧ e.regs = s.dev.regs)) ∧
  (∀ (s : State) (k : Nat) (done : List Nat) (b : BootSample), s.dev.boot.stage = .firmware done → stageDue done k = true →
    Answers (.bootStageDone k b) s fun e =>
      e.boot.stage = .firmware (done ++ [k]) ∧ (k = 2 → ∀ a, a < spareEnd → e.rdByte a = 0)
        ∧ (k ≠ 2 → e.mem = s.dev.mem)) ∧
  (∀ (s : State) (done : List Nat), s.dev.boot.stage = .firmware done → (∀ k, k < 5 → k ∈ done) →
    Answers .bootComplete s fun e =>
      e.boot.stage = .ready ∧ e.out = .readiness :: s.dev.out ∧ bitAt e.mgmt.causes 7 = true ∧ e.mem = s.dev.mem
        ∧ ∀ die q, die < 16 → q < 60 → s.dev.get FLT_SPX_STAT.RETIRED (64 * die + q) = 0 →
            e.physOf (60 * die + q) = some (64 * die + q) ∧ e.get SPX_STATE.STATE (64 * die + q) = 0
              ∧ e.logicalOf (64 * die + q) = 60 * die + q) ∧
  (∀ s : State, s.dev.boot.stage = .noFirmware →
    Answers .bootTimeout s fun e =>
      e.boot.stage = .failed ∧ bitAt e.mgmt.causes 0 = true ∧ e.regs = s.dev.regs ∧ e.mem = s.dev.mem) ∧
  (∀ d : Dev,
    (d.mainPower = false → d.loadAdvPin = .low ∧ d.bellOutPin = .highZ ∧ d.spiCsPin = .high ∧ d.spiPin = some .highZ
      ∧ d.peTxPin = some .off ∧ ∀ p l, d.klTxPin p l = .off) ∧
    (d.boot.stage = .held ∨ d.get THM_STAT.TRIP 0 = 1 → d.pwmPumpPin = .duty 255 ∧ d.pwmValvePin = .duty 255) ∧
    (d.mainPower = true → d.boot.stage = .held →
      d.loadAdvPin = .low ∧ d.bellOutPin = .low ∧ d.peTxPin = some .idle ∧ ∀ p l, d.klTxPin p l = .idle) ∧
    (d.mainPower = true → d.boot.stage = .ready → d.awake = false →
      d.loadAdvPin = .low ∧ d.bellOutPin = .low ∧ d.spiCsPin = .high
        ∧ ∀ p l, d.klTxPin p l = if d.lowestLane p = some l then .active else .off) ∧
    (d.pwrGoodPin = if d.boot.good then .high else .low) ∧
    (d.alertPin = .low ↔ d.boot.aux = true ∧ ∃ b, bitAt d.mgmt.causes b = true ∧ bitAt d.mgmt.unmasked b = true))

/-! ## Resets and management -/

/-- THERMAL_TRIP (R555), V48_OUT_OF_RANGE and AUX_LOW (R605), RAIL_FAULT and RESET_N_ASSERT (R568), PF_FLR and SYS_RESET (R577,
R589), VF_FLR (R577) and CONFIG_REQUEST (R574, R575); the management port: STATUS, ALERT_READ, ALERT_CLEAR, ALERT_MASK,
LOAD_NEXT, KEY_WRITE, KEY_REVOKE, FLASH_WRITE, FW_SVN_RAISE and CARD_READ (R579, R580, Table 20-6), and JTAG_INSTRUCTION (R582).
A reset leaves the main domain fresh (its memory: log 6) and no function's window anything; a trip and a loss of power stop
conversion. A Function Level Reset of an idle virtual function clears what is its own. A request with a bad CRC-8 is answered by
STATUS 1 alone, and every other by the response of Table 20-6; a signed command is carried out only with a signature that
verifies. -/
def Obligations.ResetsAndManagement : Prop :=
  (∀ s : State, s.dev.boot.aux = true → s.dev.boot.conv = true →
    Restarts .thermalTrip s fun e =>
      FreshMain e ∧ e.get THM_STAT.TRIP 0 = 1 ∧ e.boot.stage = .held ∧ e.boot.conv = false ∧ e.boot.good = false
        ∧ bitAt e.mgmt.causes 2 = true) ∧
  (∀ (s : State) (v us : Nat), s.dev.boot.conv = true → ((v < 380 ∧ 50 ≤ us) ∨ (620 < v ∧ 10 ≤ us)) →
    Restarts (.v48OutOfRange v us) s fun e =>
      FreshMain e ∧ e.rd THM_STAT 0 = s.dev.rd THM_STAT 0 ∧ e.boot.stage = .held ∧ e.boot.conv = false ∧ e.boot.good = false
        ∧ e.flt.otp = s.dev.flt.otp) ∧
  (∀ (s : State) (us : Nat), s.dev.boot.aux = true → 10 ≤ us →
    Restarts (.auxLow us) s fun e =>
      FreshMain e ∧ e.rd THM_STAT 0 = 0 ∧ e.boot.stage = .held ∧ e.boot.aux = false ∧ e.boot.conv = false ∧ e.boot.good = false
        ∧ e.mgmt.causes = 0 ∧ e.mgmt.flash = s.dev.mgmt.flash) ∧
  (∀ (s : State) (pll : Bool), s.dev.boot.good = true → s.dev.boot.released = true →
    Restarts (.railFault pll) s fun e =>
      FreshMain e ∧ e.rd THM_STAT 0 = s.dev.rd THM_STAT 0 ∧ e.boot.stage = .held ∧ e.boot.good = false
        ∧ bitAt e.mgmt.causes 6 = true ∧ (pll = true → bitAt e.mgmt.causes 1 = true)) ∧
  (∀ (s : State) (ns tj : Nat), 10000 ≤ ns →
    Restarts (.resetNAssert ns tj) s fun e =>
      FreshMain e ∧ e.boot.stage = .held ∧ e.boot.released = false ∧ e.boot.good = s.dev.boot.good
        ∧ e.get THM_STAT.TRIP 0 = (if tj < 900 then 0 else s.dev.get THM_STAT.TRIP 0)) ∧
  (∀ (s : State) (c : Instr), s.dev.boot.stage ≠ .held →
    (c = .pfFlr ∨ (c = .sysReset 0 0xC9600001 ∧ s.dev.windowServed 0 SYS_RESET.base = true)) →
    Restarts c s fun e =>
      FreshMain e ∧ e.rd THM_STAT 0 = s.dev.rd THM_STAT 0 ∧ e.boot.stage = .rom 0 ∧ e.boot.numVfs = 0 ∧ e.mgmt = s.dev.mgmt
        ∧ e.flt.otp = s.dev.flt.otp ∧ e.flt.term = s.dev.flt.term) ∧
  (∀ (s : State) (r : Nat), r < 16 → s.dev.boot.stage = .ready → s.dev.window (r + 1) = true → s.dev.que.op = none →
    s.dev.roomState r = stEmpty → (∀ q ∈ (s.dev.room r).queues, q < 16384) →
    (∀ ch, ch < 128 → s.dev.dmaRoom ch = some r → (s.dev.dmaSt ch).desc = none) →
    ∃ t, exec (.vfFlr r) s = .next t ∧ t.fnSt (r + 1) = FnState.init ∧
      (∀ q ∈ (s.dev.room r).queues, t.dev.get QUE_CTL.ENABLE q = 0) ∧ t.dev.rd INT_VSTATUS r = 0
        ∧ t.dev.rd INT_VMASK r = 0xFFFFFFFF ∧ r + 1 ∉ t.dev.irq.openFns ∧ (∀ k ∈ t.dev.irq.openVecs, k / 2048 ≠ r + 1)
        ∧ (∀ k ∈ t.dev.irq.held, k / 2048 ≠ r + 1) ∧ t.dev.mem = s.dev.mem
        ∧ (∀ ch, ch < 128 → s.dev.dmaRoom ch = some r →
            t.dev.get DMA_CH_STAT.STATE ch = 0 ∧ t.dev.get DMA_CH_CTL.STOP ch = 0 ∧ t.dev.dmaSt ch = DmaSt.init)
        ∧ RegsKept s.dev t.dev (INT_VSTATUS.addr r :: INT_VMASK.addr r :: (s.dev.room r).queues.map QUE_CTL.addr
          ++ ((List.range 128).filter fun ch => s.dev.dmaRoom ch == some r).flatMap fun ch => [DMA_CH_STAT.addr ch, DMA_CH_CTL.addr ch])) ∧
  (∀ (s : State) (r : Nat) (o : LoadOp), s.dev.que.op = some o → o.room ≠ r ∨ o.kind = .substitution →
    exec (.vfFlr r) s = .next s) ∧
  (∀ (s : State) (fn : Nat) (vfs : Option Nat), s.dev.boot.stage = .ready → s.dev.window fn = true →
    Answers (.configRequest fn vfs none) s fun e =>
      e.out = .configDone fn :: s.dev.out ∧ e.regs = s.dev.regs ∧ e.mem = s.dev.mem
        ∧ ∀ n, vfs = some n → n ≤ 16 → fn = 0 → e.boot.numVfs = n) ∧
  (∀ (s : State) (k : Nat) (vfs : Option Nat) (mask : Option Bool), s.dev.boot.stage = .rom k →
    Answers (.configRequest 0 vfs mask) s fun e => e = s.dev.send (.retryStatus 0)) ∧
  (∀ (s : State) (c : Instr) (a slot : Nat) (key sig : List (BitVec 8)) (cut : Bool), s.dev.boot.aux = true →
    c ∈ [Instr.mgmtStatus false, .alertRead false, .alertClear false a, .alertMask false a, .loadNext false,
      .keyWrite false slot key sig, .keyRevoke false slot sig, .flashWrite false a key cut, .fwSvnRaise false a sig,
      .cardRead false] →
    Answers c s fun e => e = s.dev.send (.mgmt (mgmtResponse 1 []))) ∧
  (∀ s : State, s.dev.boot.aux = true →
    Answers (.mgmtStatus true) s fun e => e = s.dev.send (.mgmt (mgmtResponse 0 (toLe 4 s.dev.sysStatus
      ++ toLe 4 (s.dev.rd THM_STAT 0) ++ toLe 4 (s.dev.rd THM_TJ 0) ++ toLe 4 (s.dev.rd PWR_INPUT 0)
      ++ toLe 4 (s.dev.rd PWR_STAT 0))))) ∧
  (∀ s : State, s.dev.boot.aux = true →
    Answers (.alertRead true) s fun e => e = s.dev.send (.mgmt (mgmtResponse 0 (toLe 4 s.dev.mgmt.causes)))) ∧
  (∀ (s : State) (a : Nat), s.dev.boot.aux = true →
    Answers (.alertClear true a) s fun e =>
      (∀ b, b < 32 → bitAt e.mgmt.causes b = (bitAt s.dev.mgmt.causes b && !bitAt a b))
        ∧ e.out = .mgmt (mgmtResponse 0 []) :: s.dev.out ∧ e.regs = s.dev.regs ∧ e.mem = s.dev.mem) ∧
  (∀ (s : State) (a : Nat), s.dev.boot.aux = true →
    Answers (.alertMask true a) s fun e =>
      e.mgmt = { s.dev.mgmt with unmasked := a % 256 } ∧ e.out = .mgmt (mgmtResponse 0 []) :: s.dev.out
        ∧ e.regs = s.dev.regs ∧ e.mem = s.dev.mem) ∧
  (∀ (s : State) (a : Nat × Nat × Nat), s.dev.boot.aux = true → s.dev.pwr.adv = some a → s.dev.get PWR_STAT.ADV 0 = 1 →
    Answers (.loadNext true) s fun e => e = s.dev.send (.mgmt (mgmtResponse 0 (toLe 4 a.1 ++ toLe 8 a.2.1)))) ∧
  (∀ (s : State) (slot : Nat) (key sig : List (BitVec 8)), s.dev.boot.aux = true → s.dev.boot.stage = .ready →
    Answers (.keyWrite true slot key sig) s fun e =>
      if 1 ≤ slot ∧ slot ≤ 3 ∧ key.length = 96 ∧ s.dev.keyState slot = 0
          ∧ s.dev.signed (toLe 1 0x10 ++ toLe 1 193 ++ toLe 1 slot ++ key) sig 4 = true then
        e.keyState slot = 1 ∧ e.keyOf slot = ofLe key ∧ e.mgmt.keyCtr = s.dev.mgmt.keyCtr + 1
          ∧ e.out = .mgmt (mgmtResponse 0 []) :: s.dev.out ∧ RegsKept s.dev e [CFG_KEY_STAT.addr 0] ∧ e.mem = s.dev.mem
      else e = s.dev.send (.mgmt (mgmtResponse 3 []))) ∧
  (∀ (s : State) (slot : Nat) (sig : List (BitVec 8)), s.dev.boot.aux = true → s.dev.boot.stage = .ready →
    Answers (.keyRevoke true slot sig) s fun e =>
      if 1 ≤ slot ∧ slot ≤ 3 ∧ s.dev.signed (toLe 1 0x11 ++ toLe 1 97 ++ toLe 1 slot) sig slot = true then
        e.keyState slot = 2 ∧ e.mgmt.keyCtr = s.dev.mgmt.keyCtr + 1 ∧ e.out = .mgmt (mgmtResponse 0 []) :: s.dev.out
          ∧ RegsKept s.dev e [CFG_KEY_STAT.addr 0] ∧ e.mem = s.dev.mem
      else e = s.dev.send (.mgmt (mgmtResponse 3 []))) ∧
  (∀ (s : State) (svn : Nat) (sig : List (BitVec 8)), s.dev.boot.aux = true → s.dev.boot.stage = .ready →
    Answers (.fwSvnRaise true svn sig) s fun e =>
      if s.dev.signed (toLe 1 0x21 ++ toLe 1 97 ++ toLe 1 svn) sig 4 = true then
        e.mgmt.svnMin = max s.dev.mgmt.svnMin (svn % 256) ∧ e.mgmt.keyCtr = s.dev.mgmt.keyCtr + 1
          ∧ e.out = .mgmt (mgmtResponse 0 []) :: s.dev.out ∧ RegsKept s.dev e [CFG_KEY_STAT.addr 0] ∧ e.mem = s.dev.mem
      else e = s.dev.send (.mgmt (mgmtResponse 3 []))) ∧
  (∀ (s : State) (off n : Nat) (bytes : List (BitVec 8)) (cut : Bool), s.dev.boot.aux = true →
    n = (if cut then min bytes.length (256 - off % 256) else bytes.length) →
    Answers (.flashWrite true off bytes cut) s fun e =>
      if s.dev.flashOk off bytes.length = true then
        e.flashBytes off n = bytes.take n ∧ (∀ a, a < off ∨ off + n ≤ a → e.flashByte a = s.dev.flashByte a)
          ∧ e.out = .mgmt (mgmtResponse 0 []) :: s.dev.out ∧ e.regs = s.dev.regs ∧ e.mem = s.dev.mem
      else e = s.dev.send (.mgmt (mgmtResponse 3 []))) ∧
  (∀ s : State, s.dev.boot.aux = true → s.dev.boot.stage = .ready →
    Answers (.cardRead true) s fun e =>
      e.out = (match s.dev.newestCard with
        | some (k, _) => ((List.range 17).map fun j => OutEv.mgmt (mgmtResponse 0
            (((s.dev.flashBytes (0x1000000 + 4096 * k) 4096).drop (241 * j)).take 241))).reverse
        | none => [.mgmt (mgmtResponse 3 [])]) ++ s.dev.out
        ∧ e.regs = s.dev.regs ∧ e.mem = s.dev.mem) ∧
  (∀ (s : State) (instr pins : Nat),
    Answers (.jtagInstruction instr pins) s fun e =>
      e.boot.tap = (if instr ≤ 2 ∨ (instr ≤ 5 ∧ s.dev.boot.released = false) then instr else 0)
        ∧ e.out = .jtag e.boot.tap (if e.boot.tap = 0 then 0 else if e.boot.tap = 1 then 0x20960001 + 2 * Config.jedecId.toNat
          else pins) :: s.dev.out
        ∧ e.regs = s.dev.regs ∧ e.mem = s.dev.mem)
end

