-- ==== Sys2Proof/Laws/State.lean ====
section
/-! SUPPORT. What each basic update leaves alone: one lemma per field of the device per update, and the field written. -/

namespace Sys2Proof.Machine

variable (d : Dev)

/-! ### wrOff -/

@[simp] theorem Dev.wrOff_mem (off : Nat) (v : BitVec 32) : (d.wrOff off v).mem = d.mem := rfl
@[simp] theorem Dev.wrOff_poison (off : Nat) (v : BitVec 32) : (d.wrOff off v).poison = d.poison := rfl
@[simp] theorem Dev.wrOff_poisonW (off : Nat) (v : BitVec 32) : (d.wrOff off v).poisonW = d.poisonW := rfl
@[simp] theorem Dev.wrOff_out (off : Nat) (v : BitVec 32) : (d.wrOff off v).out = d.out := rfl
@[simp] theorem Dev.wrOff_free (off : Nat) (v : BitVec 32) : (d.wrOff off v).free = d.free := rfl
@[simp] theorem Dev.wrOff_irq (off : Nat) (v : BitVec 32) : (d.wrOff off v).irq = d.irq := rfl
@[simp] theorem Dev.wrOff_que (off : Nat) (v : BitVec 32) : (d.wrOff off v).que = d.que := rfl
@[simp] theorem Dev.wrOff_bell (off : Nat) (v : BitVec 32) : (d.wrOff off v).bell = d.bell := rfl
@[simp] theorem Dev.wrOff_net (off : Nat) (v : BitVec 32) : (d.wrOff off v).net = d.net := rfl
@[simp] theorem Dev.wrOff_memx (off : Nat) (v : BitVec 32) : (d.wrOff off v).memx = d.memx := rfl
@[simp] theorem Dev.wrOff_dma (off : Nat) (v : BitVec 32) : (d.wrOff off v).dma = d.dma := rfl
@[simp] theorem Dev.wrOff_skn (off : Nat) (v : BitVec 32) : (d.wrOff off v).skn = d.skn := rfl
@[simp] theorem Dev.wrOff_reels (off : Nat) (v : BitVec 32) : (d.wrOff off v).reels = d.reels := rfl
@[simp] theorem Dev.wrOff_kl (off : Nat) (v : BitVec 32) : (d.wrOff off v).kl = d.kl := rfl
@[simp] theorem Dev.wrOff_flt (off : Nat) (v : BitVec 32) : (d.wrOff off v).flt = d.flt := rfl
@[simp] theorem Dev.wrOff_mgmt (off : Nat) (v : BitVec 32) : (d.wrOff off v).mgmt = d.mgmt := rfl
@[simp] theorem Dev.wrOff_red (off : Nat) (v : BitVec 32) : (d.wrOff off v).red = d.red := rfl
@[simp] theorem Dev.wrOff_med (off : Nat) (v : BitVec 32) : (d.wrOff off v).med = d.med := rfl
@[simp] theorem Dev.wrOff_vc (off : Nat) (v : BitVec 32) : (d.wrOff off v).vc = d.vc := rfl
@[simp] theorem Dev.wrOff_pwr (off : Nat) (v : BitVec 32) : (d.wrOff off v).pwr = d.pwr := rfl
@[simp] theorem Dev.wrOff_boot (off : Nat) (v : BitVec 32) : (d.wrOff off v).boot = d.boot := rfl
@[simp] theorem Dev.wrOff_spx (off : Nat) (v : BitVec 32) : (d.wrOff off v).spx = d.spx := rfl

/-! ### wr -/

@[simp] theorem Dev.wr_mem (r : RegDesc) (i v : Nat) : (d.wr r i v).mem = d.mem := rfl
@[simp] theorem Dev.wr_poison (r : RegDesc) (i v : Nat) : (d.wr r i v).poison = d.poison := rfl
@[simp] theorem Dev.wr_poisonW (r : RegDesc) (i v : Nat) : (d.wr r i v).poisonW = d.poisonW := rfl
@[simp] theorem Dev.wr_out (r : RegDesc) (i v : Nat) : (d.wr r i v).out = d.out := rfl
@[simp] theorem Dev.wr_free (r : RegDesc) (i v : Nat) : (d.wr r i v).free = d.free := rfl
@[simp] theorem Dev.wr_irq (r : RegDesc) (i v : Nat) : (d.wr r i v).irq = d.irq := rfl
@[simp] theorem Dev.wr_que (r : RegDesc) (i v : Nat) : (d.wr r i v).que = d.que := rfl
@[simp] theorem Dev.wr_bell (r : RegDesc) (i v : Nat) : (d.wr r i v).bell = d.bell := rfl
@[simp] theorem Dev.wr_net (r : RegDesc) (i v : Nat) : (d.wr r i v).net = d.net := rfl
@[simp] theorem Dev.wr_memx (r : RegDesc) (i v : Nat) : (d.wr r i v).memx = d.memx := rfl
@[simp] theorem Dev.wr_dma (r : RegDesc) (i v : Nat) : (d.wr r i v).dma = d.dma := rfl
@[simp] theorem Dev.wr_skn (r : RegDesc) (i v : Nat) : (d.wr r i v).skn = d.skn := rfl
@[simp] theorem Dev.wr_reels (r : RegDesc) (i v : Nat) : (d.wr r i v).reels = d.reels := rfl
@[simp] theorem Dev.wr_kl (r : RegDesc) (i v : Nat) : (d.wr r i v).kl = d.kl := rfl
@[simp] theorem Dev.wr_flt (r : RegDesc) (i v : Nat) : (d.wr r i v).flt = d.flt := rfl
@[simp] theorem Dev.wr_mgmt (r : RegDesc) (i v : Nat) : (d.wr r i v).mgmt = d.mgmt := rfl
@[simp] theorem Dev.wr_red (r : RegDesc) (i v : Nat) : (d.wr r i v).red = d.red := rfl
@[simp] theorem Dev.wr_med (r : RegDesc) (i v : Nat) : (d.wr r i v).med = d.med := rfl
@[simp] theorem Dev.wr_vc (r : RegDesc) (i v : Nat) : (d.wr r i v).vc = d.vc := rfl
@[simp] theorem Dev.wr_pwr (r : RegDesc) (i v : Nat) : (d.wr r i v).pwr = d.pwr := rfl
@[simp] theorem Dev.wr_boot (r : RegDesc) (i v : Nat) : (d.wr r i v).boot = d.boot := rfl
@[simp] theorem Dev.wr_spx (r : RegDesc) (i v : Nat) : (d.wr r i v).spx = d.spx := rfl

/-! ### set -/

@[simp] theorem Dev.set_mem (f : Field) (i v : Nat) : (d.set f i v).mem = d.mem := rfl
@[simp] theorem Dev.set_poison (f : Field) (i v : Nat) : (d.set f i v).poison = d.poison := rfl
@[simp] theorem Dev.set_poisonW (f : Field) (i v : Nat) : (d.set f i v).poisonW = d.poisonW := rfl
@[simp] theorem Dev.set_out (f : Field) (i v : Nat) : (d.set f i v).out = d.out := rfl
@[simp] theorem Dev.set_free (f : Field) (i v : Nat) : (d.set f i v).free = d.free := rfl
@[simp] theorem Dev.set_irq (f : Field) (i v : Nat) : (d.set f i v).irq = d.irq := rfl
@[simp] theorem Dev.set_que (f : Field) (i v : Nat) : (d.set f i v).que = d.que := rfl
@[simp] theorem Dev.set_bell (f : Field) (i v : Nat) : (d.set f i v).bell = d.bell := rfl
@[simp] theorem Dev.set_net (f : Field) (i v : Nat) : (d.set f i v).net = d.net := rfl
@[simp] theorem Dev.set_memx (f : Field) (i v : Nat) : (d.set f i v).memx = d.memx := rfl
@[simp] theorem Dev.set_dma (f : Field) (i v : Nat) : (d.set f i v).dma = d.dma := rfl
@[simp] theorem Dev.set_skn (f : Field) (i v : Nat) : (d.set f i v).skn = d.skn := rfl
@[simp] theorem Dev.set_reels (f : Field) (i v : Nat) : (d.set f i v).reels = d.reels := rfl
@[simp] theorem Dev.set_kl (f : Field) (i v : Nat) : (d.set f i v).kl = d.kl := rfl
@[simp] theorem Dev.set_flt (f : Field) (i v : Nat) : (d.set f i v).flt = d.flt := rfl
@[simp] theorem Dev.set_mgmt (f : Field) (i v : Nat) : (d.set f i v).mgmt = d.mgmt := rfl
@[simp] theorem Dev.set_red (f : Field) (i v : Nat) : (d.set f i v).red = d.red := rfl
@[simp] theorem Dev.set_med (f : Field) (i v : Nat) : (d.set f i v).med = d.med := rfl
@[simp] theorem Dev.set_vc (f : Field) (i v : Nat) : (d.set f i v).vc = d.vc := rfl
@[simp] theorem Dev.set_pwr (f : Field) (i v : Nat) : (d.set f i v).pwr = d.pwr := rfl
@[simp] theorem Dev.set_boot (f : Field) (i v : Nat) : (d.set f i v).boot = d.boot := rfl
@[simp] theorem Dev.set_spx (f : Field) (i v : Nat) : (d.set f i v).spx = d.spx := rfl

/-! ### set64 -/

@[simp] theorem Dev.set64_mem (lo hi : RegDesc) (i v : Nat) : (d.set64 lo hi i v).mem = d.mem := rfl
@[simp] theorem Dev.set64_poison (lo hi : RegDesc) (i v : Nat) : (d.set64 lo hi i v).poison = d.poison := rfl
@[simp] theorem Dev.set64_poisonW (lo hi : RegDesc) (i v : Nat) : (d.set64 lo hi i v).poisonW = d.poisonW := rfl
@[simp] theorem Dev.set64_out (lo hi : RegDesc) (i v : Nat) : (d.set64 lo hi i v).out = d.out := rfl
@[simp] theorem Dev.set64_free (lo hi : RegDesc) (i v : Nat) : (d.set64 lo hi i v).free = d.free := rfl
@[simp] theorem Dev.set64_irq (lo hi : RegDesc) (i v : Nat) : (d.set64 lo hi i v).irq = d.irq := rfl
@[simp] theorem Dev.set64_que (lo hi : RegDesc) (i v : Nat) : (d.set64 lo hi i v).que = d.que := rfl
@[simp] theorem Dev.set64_bell (lo hi : RegDesc) (i v : Nat) : (d.set64 lo hi i v).bell = d.bell := rfl
@[simp] theorem Dev.set64_net (lo hi : RegDesc) (i v : Nat) : (d.set64 lo hi i v).net = d.net := rfl
@[simp] theorem Dev.set64_memx (lo hi : RegDesc) (i v : Nat) : (d.set64 lo hi i v).memx = d.memx := rfl
@[simp] theorem Dev.set64_dma (lo hi : RegDesc) (i v : Nat) : (d.set64 lo hi i v).dma = d.dma := rfl
@[simp] theorem Dev.set64_skn (lo hi : RegDesc) (i v : Nat) : (d.set64 lo hi i v).skn = d.skn := rfl
@[simp] theorem Dev.set64_reels (lo hi : RegDesc) (i v : Nat) : (d.set64 lo hi i v).reels = d.reels := rfl
@[simp] theorem Dev.set64_kl (lo hi : RegDesc) (i v : Nat) : (d.set64 lo hi i v).kl = d.kl := rfl
@[simp] theorem Dev.set64_flt (lo hi : RegDesc) (i v : Nat) : (d.set64 lo hi i v).flt = d.flt := rfl
@[simp] theorem Dev.set64_mgmt (lo hi : RegDesc) (i v : Nat) : (d.set64 lo hi i v).mgmt = d.mgmt := rfl
@[simp] theorem Dev.set64_red (lo hi : RegDesc) (i v : Nat) : (d.set64 lo hi i v).red = d.red := rfl
@[simp] theorem Dev.set64_med (lo hi : RegDesc) (i v : Nat) : (d.set64 lo hi i v).med = d.med := rfl
@[simp] theorem Dev.set64_vc (lo hi : RegDesc) (i v : Nat) : (d.set64 lo hi i v).vc = d.vc := rfl
@[simp] theorem Dev.set64_pwr (lo hi : RegDesc) (i v : Nat) : (d.set64 lo hi i v).pwr = d.pwr := rfl
@[simp] theorem Dev.set64_boot (lo hi : RegDesc) (i v : Nat) : (d.set64 lo hi i v).boot = d.boot := rfl
@[simp] theorem Dev.set64_spx (lo hi : RegDesc) (i v : Nat) : (d.set64 lo hi i v).spx = d.spx := rfl

/-! ### count -/

@[simp] theorem Dev.count_mem (r : RegDesc) (i n : Nat) : (d.count r i n).mem = d.mem := rfl
@[simp] theorem Dev.count_poison (r : RegDesc) (i n : Nat) : (d.count r i n).poison = d.poison := rfl
@[simp] theorem Dev.count_poisonW (r : RegDesc) (i n : Nat) : (d.count r i n).poisonW = d.poisonW := rfl
@[simp] theorem Dev.count_out (r : RegDesc) (i n : Nat) : (d.count r i n).out = d.out := rfl
@[simp] theorem Dev.count_free (r : RegDesc) (i n : Nat) : (d.count r i n).free = d.free := rfl
@[simp] theorem Dev.count_irq (r : RegDesc) (i n : Nat) : (d.count r i n).irq = d.irq := rfl
@[simp] theorem Dev.count_que (r : RegDesc) (i n : Nat) : (d.count r i n).que = d.que := rfl
@[simp] theorem Dev.count_bell (r : RegDesc) (i n : Nat) : (d.count r i n).bell = d.bell := rfl
@[simp] theorem Dev.count_net (r : RegDesc) (i n : Nat) : (d.count r i n).net = d.net := rfl
@[simp] theorem Dev.count_memx (r : RegDesc) (i n : Nat) : (d.count r i n).memx = d.memx := rfl
@[simp] theorem Dev.count_dma (r : RegDesc) (i n : Nat) : (d.count r i n).dma = d.dma := rfl
@[simp] theorem Dev.count_skn (r : RegDesc) (i n : Nat) : (d.count r i n).skn = d.skn := rfl
@[simp] theorem Dev.count_reels (r : RegDesc) (i n : Nat) : (d.count r i n).reels = d.reels := rfl
@[simp] theorem Dev.count_kl (r : RegDesc) (i n : Nat) : (d.count r i n).kl = d.kl := rfl
@[simp] theorem Dev.count_flt (r : RegDesc) (i n : Nat) : (d.count r i n).flt = d.flt := rfl
@[simp] theorem Dev.count_mgmt (r : RegDesc) (i n : Nat) : (d.count r i n).mgmt = d.mgmt := rfl
@[simp] theorem Dev.count_red (r : RegDesc) (i n : Nat) : (d.count r i n).red = d.red := rfl
@[simp] theorem Dev.count_med (r : RegDesc) (i n : Nat) : (d.count r i n).med = d.med := rfl
@[simp] theorem Dev.count_vc (r : RegDesc) (i n : Nat) : (d.count r i n).vc = d.vc := rfl
@[simp] theorem Dev.count_pwr (r : RegDesc) (i n : Nat) : (d.count r i n).pwr = d.pwr := rfl
@[simp] theorem Dev.count_boot (r : RegDesc) (i n : Nat) : (d.count r i n).boot = d.boot := rfl
@[simp] theorem Dev.count_spx (r : RegDesc) (i n : Nat) : (d.count r i n).spx = d.spx := rfl

/-! ### count64 -/

@[simp] theorem Dev.count64_mem (lo hi : RegDesc) (i n : Nat) : (d.count64 lo hi i n).mem = d.mem := rfl
@[simp] theorem Dev.count64_poison (lo hi : RegDesc) (i n : Nat) : (d.count64 lo hi i n).poison = d.poison := rfl
@[simp] theorem Dev.count64_poisonW (lo hi : RegDesc) (i n : Nat) : (d.count64 lo hi i n).poisonW = d.poisonW := rfl
@[simp] theorem Dev.count64_out (lo hi : RegDesc) (i n : Nat) : (d.count64 lo hi i n).out = d.out := rfl
@[simp] theorem Dev.count64_free (lo hi : RegDesc) (i n : Nat) : (d.count64 lo hi i n).free = d.free := rfl
@[simp] theorem Dev.count64_irq (lo hi : RegDesc) (i n : Nat) : (d.count64 lo hi i n).irq = d.irq := rfl
@[simp] theorem Dev.count64_que (lo hi : RegDesc) (i n : Nat) : (d.count64 lo hi i n).que = d.que := rfl
@[simp] theorem Dev.count64_bell (lo hi : RegDesc) (i n : Nat) : (d.count64 lo hi i n).bell = d.bell := rfl
@[simp] theorem Dev.count64_net (lo hi : RegDesc) (i n : Nat) : (d.count64 lo hi i n).net = d.net := rfl
@[simp] theorem Dev.count64_memx (lo hi : RegDesc) (i n : Nat) : (d.count64 lo hi i n).memx = d.memx := rfl
@[simp] theorem Dev.count64_dma (lo hi : RegDesc) (i n : Nat) : (d.count64 lo hi i n).dma = d.dma := rfl
@[simp] theorem Dev.count64_skn (lo hi : RegDesc) (i n : Nat) : (d.count64 lo hi i n).skn = d.skn := rfl
@[simp] theorem Dev.count64_reels (lo hi : RegDesc) (i n : Nat) : (d.count64 lo hi i n).reels = d.reels := rfl
@[simp] theorem Dev.count64_kl (lo hi : RegDesc) (i n : Nat) : (d.count64 lo hi i n).kl = d.kl := rfl
@[simp] theorem Dev.count64_flt (lo hi : RegDesc) (i n : Nat) : (d.count64 lo hi i n).flt = d.flt := rfl
@[simp] theorem Dev.count64_mgmt (lo hi : RegDesc) (i n : Nat) : (d.count64 lo hi i n).mgmt = d.mgmt := rfl
@[simp] theorem Dev.count64_red (lo hi : RegDesc) (i n : Nat) : (d.count64 lo hi i n).red = d.red := rfl
@[simp] theorem Dev.count64_med (lo hi : RegDesc) (i n : Nat) : (d.count64 lo hi i n).med = d.med := rfl
@[simp] theorem Dev.count64_vc (lo hi : RegDesc) (i n : Nat) : (d.count64 lo hi i n).vc = d.vc := rfl
@[simp] theorem Dev.count64_pwr (lo hi : RegDesc) (i n : Nat) : (d.count64 lo hi i n).pwr = d.pwr := rfl
@[simp] theorem Dev.count64_boot (lo hi : RegDesc) (i n : Nat) : (d.count64 lo hi i n).boot = d.boot := rfl
@[simp] theorem Dev.count64_spx (lo hi : RegDesc) (i n : Nat) : (d.count64 lo hi i n).spx = d.spx := rfl

/-! ### drew -/

@[simp] theorem Dev.drew_regs : (d.drew).regs = d.regs := rfl
@[simp] theorem Dev.drew_mem : (d.drew).mem = d.mem := rfl
@[simp] theorem Dev.drew_poison : (d.drew).poison = d.poison := rfl
@[simp] theorem Dev.drew_poisonW : (d.drew).poisonW = d.poisonW := rfl
@[simp] theorem Dev.drew_out : (d.drew).out = d.out := rfl
@[simp] theorem Dev.drew_irq : (d.drew).irq = d.irq := rfl
@[simp] theorem Dev.drew_que : (d.drew).que = d.que := rfl
@[simp] theorem Dev.drew_bell : (d.drew).bell = d.bell := rfl
@[simp] theorem Dev.drew_net : (d.drew).net = d.net := rfl
@[simp] theorem Dev.drew_memx : (d.drew).memx = d.memx := rfl
@[simp] theorem Dev.drew_dma : (d.drew).dma = d.dma := rfl
@[simp] theorem Dev.drew_skn : (d.drew).skn = d.skn := rfl
@[simp] theorem Dev.drew_reels : (d.drew).reels = d.reels := rfl
@[simp] theorem Dev.drew_kl : (d.drew).kl = d.kl := rfl
@[simp] theorem Dev.drew_flt : (d.drew).flt = d.flt := rfl
@[simp] theorem Dev.drew_mgmt : (d.drew).mgmt = d.mgmt := rfl
@[simp] theorem Dev.drew_red : (d.drew).red = d.red := rfl
@[simp] theorem Dev.drew_med : (d.drew).med = d.med := rfl
@[simp] theorem Dev.drew_vc : (d.drew).vc = d.vc := rfl
@[simp] theorem Dev.drew_pwr : (d.drew).pwr = d.pwr := rfl
@[simp] theorem Dev.drew_boot : (d.drew).boot = d.boot := rfl
@[simp] theorem Dev.drew_spx : (d.drew).spx = d.spx := rfl

/-! ### send -/

@[simp] theorem Dev.send_regs (e : OutEv) : (d.send e).regs = d.regs := rfl
@[simp] theorem Dev.send_mem (e : OutEv) : (d.send e).mem = d.mem := rfl
@[simp] theorem Dev.send_poison (e : OutEv) : (d.send e).poison = d.poison := rfl
@[simp] theorem Dev.send_poisonW (e : OutEv) : (d.send e).poisonW = d.poisonW := rfl
@[simp] theorem Dev.send_free (e : OutEv) : (d.send e).free = d.free := rfl
@[simp] theorem Dev.send_irq (e : OutEv) : (d.send e).irq = d.irq := rfl
@[simp] theorem Dev.send_que (e : OutEv) : (d.send e).que = d.que := rfl
@[simp] theorem Dev.send_bell (e : OutEv) : (d.send e).bell = d.bell := rfl
@[simp] theorem Dev.send_net (e : OutEv) : (d.send e).net = d.net := rfl
@[simp] theorem Dev.send_memx (e : OutEv) : (d.send e).memx = d.memx := rfl
@[simp] theorem Dev.send_dma (e : OutEv) : (d.send e).dma = d.dma := rfl
@[simp] theorem Dev.send_skn (e : OutEv) : (d.send e).skn = d.skn := rfl
@[simp] theorem Dev.send_reels (e : OutEv) : (d.send e).reels = d.reels := rfl
@[simp] theorem Dev.send_kl (e : OutEv) : (d.send e).kl = d.kl := rfl
@[simp] theorem Dev.send_flt (e : OutEv) : (d.send e).flt = d.flt := rfl
@[simp] theorem Dev.send_mgmt (e : OutEv) : (d.send e).mgmt = d.mgmt := rfl
@[simp] theorem Dev.send_red (e : OutEv) : (d.send e).red = d.red := rfl
@[simp] theorem Dev.send_med (e : OutEv) : (d.send e).med = d.med := rfl
@[simp] theorem Dev.send_vc (e : OutEv) : (d.send e).vc = d.vc := rfl
@[simp] theorem Dev.send_pwr (e : OutEv) : (d.send e).pwr = d.pwr := rfl
@[simp] theorem Dev.send_boot (e : OutEv) : (d.send e).boot = d.boot := rfl
@[simp] theorem Dev.send_spx (e : OutEv) : (d.send e).spx = d.spx := rfl

/-! ### zero -/

@[simp] theorem Dev.zero_regs (a n : Nat) : (d.zero a n).regs = d.regs := rfl
@[simp] theorem Dev.zero_poison (a n : Nat) : (d.zero a n).poison = d.poison := rfl
@[simp] theorem Dev.zero_poisonW (a n : Nat) : (d.zero a n).poisonW = d.poisonW := rfl
@[simp] theorem Dev.zero_out (a n : Nat) : (d.zero a n).out = d.out := rfl
@[simp] theorem Dev.zero_free (a n : Nat) : (d.zero a n).free = d.free := rfl
@[simp] theorem Dev.zero_irq (a n : Nat) : (d.zero a n).irq = d.irq := rfl
@[simp] theorem Dev.zero_que (a n : Nat) : (d.zero a n).que = d.que := rfl
@[simp] theorem Dev.zero_bell (a n : Nat) : (d.zero a n).bell = d.bell := rfl
@[simp] theorem Dev.zero_net (a n : Nat) : (d.zero a n).net = d.net := rfl
@[simp] theorem Dev.zero_memx (a n : Nat) : (d.zero a n).memx = d.memx := rfl
@[simp] theorem Dev.zero_dma (a n : Nat) : (d.zero a n).dma = d.dma := rfl
@[simp] theorem Dev.zero_skn (a n : Nat) : (d.zero a n).skn = d.skn := rfl
@[simp] theorem Dev.zero_reels (a n : Nat) : (d.zero a n).reels = d.reels := rfl
@[simp] theorem Dev.zero_kl (a n : Nat) : (d.zero a n).kl = d.kl := rfl
@[simp] theorem Dev.zero_flt (a n : Nat) : (d.zero a n).flt = d.flt := rfl
@[simp] theorem Dev.zero_mgmt (a n : Nat) : (d.zero a n).mgmt = d.mgmt := rfl
@[simp] theorem Dev.zero_red (a n : Nat) : (d.zero a n).red = d.red := rfl
@[simp] theorem Dev.zero_med (a n : Nat) : (d.zero a n).med = d.med := rfl
@[simp] theorem Dev.zero_vc (a n : Nat) : (d.zero a n).vc = d.vc := rfl
@[simp] theorem Dev.zero_pwr (a n : Nat) : (d.zero a n).pwr = d.pwr := rfl
@[simp] theorem Dev.zero_boot (a n : Nat) : (d.zero a n).boot = d.boot := rfl
@[simp] theorem Dev.zero_spx (a n : Nat) : (d.zero a n).spx = d.spx := rfl

/-! ### copy -/

@[simp] theorem Dev.copy_regs (a b n : Nat) : (d.copy a b n).regs = d.regs := rfl
@[simp] theorem Dev.copy_poison (a b n : Nat) : (d.copy a b n).poison = d.poison := rfl
@[simp] theorem Dev.copy_poisonW (a b n : Nat) : (d.copy a b n).poisonW = d.poisonW := rfl
@[simp] theorem Dev.copy_out (a b n : Nat) : (d.copy a b n).out = d.out := rfl
@[simp] theorem Dev.copy_free (a b n : Nat) : (d.copy a b n).free = d.free := rfl
@[simp] theorem Dev.copy_irq (a b n : Nat) : (d.copy a b n).irq = d.irq := rfl
@[simp] theorem Dev.copy_que (a b n : Nat) : (d.copy a b n).que = d.que := rfl
@[simp] theorem Dev.copy_bell (a b n : Nat) : (d.copy a b n).bell = d.bell := rfl
@[simp] theorem Dev.copy_net (a b n : Nat) : (d.copy a b n).net = d.net := rfl
@[simp] theorem Dev.copy_memx (a b n : Nat) : (d.copy a b n).memx = d.memx := rfl
@[simp] theorem Dev.copy_dma (a b n : Nat) : (d.copy a b n).dma = d.dma := rfl
@[simp] theorem Dev.copy_skn (a b n : Nat) : (d.copy a b n).skn = d.skn := rfl
@[simp] theorem Dev.copy_reels (a b n : Nat) : (d.copy a b n).reels = d.reels := rfl
@[simp] theorem Dev.copy_kl (a b n : Nat) : (d.copy a b n).kl = d.kl := rfl
@[simp] theorem Dev.copy_flt (a b n : Nat) : (d.copy a b n).flt = d.flt := rfl
@[simp] theorem Dev.copy_mgmt (a b n : Nat) : (d.copy a b n).mgmt = d.mgmt := rfl
@[simp] theorem Dev.copy_red (a b n : Nat) : (d.copy a b n).red = d.red := rfl
@[simp] theorem Dev.copy_med (a b n : Nat) : (d.copy a b n).med = d.med := rfl
@[simp] theorem Dev.copy_vc (a b n : Nat) : (d.copy a b n).vc = d.vc := rfl
@[simp] theorem Dev.copy_pwr (a b n : Nat) : (d.copy a b n).pwr = d.pwr := rfl
@[simp] theorem Dev.copy_boot (a b n : Nat) : (d.copy a b n).boot = d.boot := rfl
@[simp] theorem Dev.copy_spx (a b n : Nat) : (d.copy a b n).spx = d.spx := rfl

/-! ### swap -/

@[simp] theorem Dev.swap_regs (a b n : Nat) : (d.swap a b n).regs = d.regs := rfl
@[simp] theorem Dev.swap_poison (a b n : Nat) : (d.swap a b n).poison = d.poison := rfl
@[simp] theorem Dev.swap_poisonW (a b n : Nat) : (d.swap a b n).poisonW = d.poisonW := rfl
@[simp] theorem Dev.swap_out (a b n : Nat) : (d.swap a b n).out = d.out := rfl
@[simp] theorem Dev.swap_free (a b n : Nat) : (d.swap a b n).free = d.free := rfl
@[simp] theorem Dev.swap_irq (a b n : Nat) : (d.swap a b n).irq = d.irq := rfl
@[simp] theorem Dev.swap_que (a b n : Nat) : (d.swap a b n).que = d.que := rfl
@[simp] theorem Dev.swap_bell (a b n : Nat) : (d.swap a b n).bell = d.bell := rfl
@[simp] theorem Dev.swap_net (a b n : Nat) : (d.swap a b n).net = d.net := rfl
@[simp] theorem Dev.swap_memx (a b n : Nat) : (d.swap a b n).memx = d.memx := rfl
@[simp] theorem Dev.swap_dma (a b n : Nat) : (d.swap a b n).dma = d.dma := rfl
@[simp] theorem Dev.swap_skn (a b n : Nat) : (d.swap a b n).skn = d.skn := rfl
@[simp] theorem Dev.swap_reels (a b n : Nat) : (d.swap a b n).reels = d.reels := rfl
@[simp] theorem Dev.swap_kl (a b n : Nat) : (d.swap a b n).kl = d.kl := rfl
@[simp] theorem Dev.swap_flt (a b n : Nat) : (d.swap a b n).flt = d.flt := rfl
@[simp] theorem Dev.swap_mgmt (a b n : Nat) : (d.swap a b n).mgmt = d.mgmt := rfl
@[simp] theorem Dev.swap_red (a b n : Nat) : (d.swap a b n).red = d.red := rfl
@[simp] theorem Dev.swap_med (a b n : Nat) : (d.swap a b n).med = d.med := rfl
@[simp] theorem Dev.swap_vc (a b n : Nat) : (d.swap a b n).vc = d.vc := rfl
@[simp] theorem Dev.swap_pwr (a b n : Nat) : (d.swap a b n).pwr = d.pwr := rfl
@[simp] theorem Dev.swap_boot (a b n : Nat) : (d.swap a b n).boot = d.boot := rfl
@[simp] theorem Dev.swap_spx (a b n : Nat) : (d.swap a b n).spx = d.spx := rfl

/-! ### setBal -/

@[simp] theorem Dev.setBal_mem (k : Nat) (b : Int) : (d.setBal k b).mem = d.mem := rfl
@[simp] theorem Dev.setBal_poison (k : Nat) (b : Int) : (d.setBal k b).poison = d.poison := rfl
@[simp] theorem Dev.setBal_poisonW (k : Nat) (b : Int) : (d.setBal k b).poisonW = d.poisonW := rfl
@[simp] theorem Dev.setBal_out (k : Nat) (b : Int) : (d.setBal k b).out = d.out := rfl
@[simp] theorem Dev.setBal_free (k : Nat) (b : Int) : (d.setBal k b).free = d.free := rfl
@[simp] theorem Dev.setBal_irq (k : Nat) (b : Int) : (d.setBal k b).irq = d.irq := rfl
@[simp] theorem Dev.setBal_que (k : Nat) (b : Int) : (d.setBal k b).que = d.que := rfl
@[simp] theorem Dev.setBal_bell (k : Nat) (b : Int) : (d.setBal k b).bell = d.bell := rfl
@[simp] theorem Dev.setBal_net (k : Nat) (b : Int) : (d.setBal k b).net = d.net := rfl
@[simp] theorem Dev.setBal_dma (k : Nat) (b : Int) : (d.setBal k b).dma = d.dma := rfl
@[simp] theorem Dev.setBal_skn (k : Nat) (b : Int) : (d.setBal k b).skn = d.skn := rfl
@[simp] theorem Dev.setBal_reels (k : Nat) (b : Int) : (d.setBal k b).reels = d.reels := rfl
@[simp] theorem Dev.setBal_kl (k : Nat) (b : Int) : (d.setBal k b).kl = d.kl := rfl
@[simp] theorem Dev.setBal_flt (k : Nat) (b : Int) : (d.setBal k b).flt = d.flt := rfl
@[simp] theorem Dev.setBal_mgmt (k : Nat) (b : Int) : (d.setBal k b).mgmt = d.mgmt := rfl
@[simp] theorem Dev.setBal_red (k : Nat) (b : Int) : (d.setBal k b).red = d.red := rfl
@[simp] theorem Dev.setBal_med (k : Nat) (b : Int) : (d.setBal k b).med = d.med := rfl
@[simp] theorem Dev.setBal_vc (k : Nat) (b : Int) : (d.setBal k b).vc = d.vc := rfl
@[simp] theorem Dev.setBal_pwr (k : Nat) (b : Int) : (d.setBal k b).pwr = d.pwr := rfl
@[simp] theorem Dev.setBal_boot (k : Nat) (b : Int) : (d.setBal k b).boot = d.boot := rfl
@[simp] theorem Dev.setBal_spx (k : Nat) (b : Int) : (d.setBal k b).spx = d.spx := rfl

/-! ### setRoom -/

@[simp] theorem Dev.setRoom_regs (r : Nat) (x : RoomSt) : (d.setRoom r x).regs = d.regs := rfl
@[simp] theorem Dev.setRoom_mem (r : Nat) (x : RoomSt) : (d.setRoom r x).mem = d.mem := rfl
@[simp] theorem Dev.setRoom_poison (r : Nat) (x : RoomSt) : (d.setRoom r x).poison = d.poison := rfl
@[simp] theorem Dev.setRoom_poisonW (r : Nat) (x : RoomSt) : (d.setRoom r x).poisonW = d.poisonW := rfl
@[simp] theorem Dev.setRoom_out (r : Nat) (x : RoomSt) : (d.setRoom r x).out = d.out := rfl
@[simp] theorem Dev.setRoom_free (r : Nat) (x : RoomSt) : (d.setRoom r x).free = d.free := rfl
@[simp] theorem Dev.setRoom_irq (r : Nat) (x : RoomSt) : (d.setRoom r x).irq = d.irq := rfl
@[simp] theorem Dev.setRoom_bell (r : Nat) (x : RoomSt) : (d.setRoom r x).bell = d.bell := rfl
@[simp] theorem Dev.setRoom_net (r : Nat) (x : RoomSt) : (d.setRoom r x).net = d.net := rfl
@[simp] theorem Dev.setRoom_memx (r : Nat) (x : RoomSt) : (d.setRoom r x).memx = d.memx := rfl
@[simp] theorem Dev.setRoom_dma (r : Nat) (x : RoomSt) : (d.setRoom r x).dma = d.dma := rfl
@[simp] theorem Dev.setRoom_skn (r : Nat) (x : RoomSt) : (d.setRoom r x).skn = d.skn := rfl
@[simp] theorem Dev.setRoom_reels (r : Nat) (x : RoomSt) : (d.setRoom r x).reels = d.reels := rfl
@[simp] theorem Dev.setRoom_kl (r : Nat) (x : RoomSt) : (d.setRoom r x).kl = d.kl := rfl
@[simp] theorem Dev.setRoom_flt (r : Nat) (x : RoomSt) : (d.setRoom r x).flt = d.flt := rfl
@[simp] theorem Dev.setRoom_mgmt (r : Nat) (x : RoomSt) : (d.setRoom r x).mgmt = d.mgmt := rfl
@[simp] theorem Dev.setRoom_red (r : Nat) (x : RoomSt) : (d.setRoom r x).red = d.red := rfl
@[simp] theorem Dev.setRoom_med (r : Nat) (x : RoomSt) : (d.setRoom r x).med = d.med := rfl
@[simp] theorem Dev.setRoom_vc (r : Nat) (x : RoomSt) : (d.setRoom r x).vc = d.vc := rfl
@[simp] theorem Dev.setRoom_pwr (r : Nat) (x : RoomSt) : (d.setRoom r x).pwr = d.pwr := rfl
@[simp] theorem Dev.setRoom_boot (r : Nat) (x : RoomSt) : (d.setRoom r x).boot = d.boot := rfl
@[simp] theorem Dev.setRoom_spx (r : Nat) (x : RoomSt) : (d.setRoom r x).spx = d.spx := rfl

/-! ### setCmd -/

@[simp] theorem Dev.setCmd_regs (c : Cmd) : (d.setCmd c).regs = d.regs := rfl
@[simp] theorem Dev.setCmd_mem (c : Cmd) : (d.setCmd c).mem = d.mem := rfl
@[simp] theorem Dev.setCmd_poison (c : Cmd) : (d.setCmd c).poison = d.poison := rfl
@[simp] theorem Dev.setCmd_poisonW (c : Cmd) : (d.setCmd c).poisonW = d.poisonW := rfl
@[simp] theorem Dev.setCmd_out (c : Cmd) : (d.setCmd c).out = d.out := rfl
@[simp] theorem Dev.setCmd_free (c : Cmd) : (d.setCmd c).free = d.free := rfl
@[simp] theorem Dev.setCmd_irq (c : Cmd) : (d.setCmd c).irq = d.irq := rfl
@[simp] theorem Dev.setCmd_bell (c : Cmd) : (d.setCmd c).bell = d.bell := rfl
@[simp] theorem Dev.setCmd_net (c : Cmd) : (d.setCmd c).net = d.net := rfl
@[simp] theorem Dev.setCmd_memx (c : Cmd) : (d.setCmd c).memx = d.memx := rfl
@[simp] theorem Dev.setCmd_dma (c : Cmd) : (d.setCmd c).dma = d.dma := rfl
@[simp] theorem Dev.setCmd_skn (c : Cmd) : (d.setCmd c).skn = d.skn := rfl
@[simp] theorem Dev.setCmd_reels (c : Cmd) : (d.setCmd c).reels = d.reels := rfl
@[simp] theorem Dev.setCmd_kl (c : Cmd) : (d.setCmd c).kl = d.kl := rfl
@[simp] theorem Dev.setCmd_flt (c : Cmd) : (d.setCmd c).flt = d.flt := rfl
@[simp] theorem Dev.setCmd_mgmt (c : Cmd) : (d.setCmd c).mgmt = d.mgmt := rfl
@[simp] theorem Dev.setCmd_red (c : Cmd) : (d.setCmd c).red = d.red := rfl
@[simp] theorem Dev.setCmd_med (c : Cmd) : (d.setCmd c).med = d.med := rfl
@[simp] theorem Dev.setCmd_vc (c : Cmd) : (d.setCmd c).vc = d.vc := rfl
@[simp] theorem Dev.setCmd_pwr (c : Cmd) : (d.setCmd c).pwr = d.pwr := rfl
@[simp] theorem Dev.setCmd_boot (c : Cmd) : (d.setCmd c).boot = d.boot := rfl
@[simp] theorem Dev.setCmd_spx (c : Cmd) : (d.setCmd c).spx = d.spx := rfl

/-! ### dropCmd -/

@[simp] theorem Dev.dropCmd_regs (id : Nat) : (d.dropCmd id).regs = d.regs := rfl
@[simp] theorem Dev.dropCmd_mem (id : Nat) : (d.dropCmd id).mem = d.mem := rfl
@[simp] theorem Dev.dropCmd_poison (id : Nat) : (d.dropCmd id).poison = d.poison := rfl
@[simp] theorem Dev.dropCmd_poisonW (id : Nat) : (d.dropCmd id).poisonW = d.poisonW := rfl
@[simp] theorem Dev.dropCmd_out (id : Nat) : (d.dropCmd id).out = d.out := rfl
@[simp] theorem Dev.dropCmd_free (id : Nat) : (d.dropCmd id).free = d.free := rfl
@[simp] theorem Dev.dropCmd_irq (id : Nat) : (d.dropCmd id).irq = d.irq := rfl
@[simp] theorem Dev.dropCmd_bell (id : Nat) : (d.dropCmd id).bell = d.bell := rfl
@[simp] theorem Dev.dropCmd_net (id : Nat) : (d.dropCmd id).net = d.net := rfl
@[simp] theorem Dev.dropCmd_memx (id : Nat) : (d.dropCmd id).memx = d.memx := rfl
@[simp] theorem Dev.dropCmd_dma (id : Nat) : (d.dropCmd id).dma = d.dma := rfl
@[simp] theorem Dev.dropCmd_skn (id : Nat) : (d.dropCmd id).skn = d.skn := rfl
@[simp] theorem Dev.dropCmd_reels (id : Nat) : (d.dropCmd id).reels = d.reels := rfl
@[simp] theorem Dev.dropCmd_kl (id : Nat) : (d.dropCmd id).kl = d.kl := rfl
@[simp] theorem Dev.dropCmd_flt (id : Nat) : (d.dropCmd id).flt = d.flt := rfl
@[simp] theorem Dev.dropCmd_mgmt (id : Nat) : (d.dropCmd id).mgmt = d.mgmt := rfl
@[simp] theorem Dev.dropCmd_red (id : Nat) : (d.dropCmd id).red = d.red := rfl
@[simp] theorem Dev.dropCmd_med (id : Nat) : (d.dropCmd id).med = d.med := rfl
@[simp] theorem Dev.dropCmd_vc (id : Nat) : (d.dropCmd id).vc = d.vc := rfl
@[simp] theorem Dev.dropCmd_pwr (id : Nat) : (d.dropCmd id).pwr = d.pwr := rfl
@[simp] theorem Dev.dropCmd_boot (id : Nat) : (d.dropCmd id).boot = d.boot := rfl
@[simp] theorem Dev.dropCmd_spx (id : Nat) : (d.dropCmd id).spx = d.spx := rfl

/-! ### setSp -/

@[simp] theorem Dev.setSp_regs (i : Nat) (x : SpindleSt) : (d.setSp i x).regs = d.regs := rfl
@[simp] theorem Dev.setSp_mem (i : Nat) (x : SpindleSt) : (d.setSp i x).mem = d.mem := rfl
@[simp] theorem Dev.setSp_poison (i : Nat) (x : SpindleSt) : (d.setSp i x).poison = d.poison := rfl
@[simp] theorem Dev.setSp_poisonW (i : Nat) (x : SpindleSt) : (d.setSp i x).poisonW = d.poisonW := rfl
@[simp] theorem Dev.setSp_out (i : Nat) (x : SpindleSt) : (d.setSp i x).out = d.out := rfl
@[simp] theorem Dev.setSp_free (i : Nat) (x : SpindleSt) : (d.setSp i x).free = d.free := rfl
@[simp] theorem Dev.setSp_irq (i : Nat) (x : SpindleSt) : (d.setSp i x).irq = d.irq := rfl
@[simp] theorem Dev.setSp_que (i : Nat) (x : SpindleSt) : (d.setSp i x).que = d.que := rfl
@[simp] theorem Dev.setSp_bell (i : Nat) (x : SpindleSt) : (d.setSp i x).bell = d.bell := rfl
@[simp] theorem Dev.setSp_net (i : Nat) (x : SpindleSt) : (d.setSp i x).net = d.net := rfl
@[simp] theorem Dev.setSp_memx (i : Nat) (x : SpindleSt) : (d.setSp i x).memx = d.memx := rfl
@[simp] theorem Dev.setSp_dma (i : Nat) (x : SpindleSt) : (d.setSp i x).dma = d.dma := rfl
@[simp] theorem Dev.setSp_skn (i : Nat) (x : SpindleSt) : (d.setSp i x).skn = d.skn := rfl
@[simp] theorem Dev.setSp_reels (i : Nat) (x : SpindleSt) : (d.setSp i x).reels = d.reels := rfl
@[simp] theorem Dev.setSp_kl (i : Nat) (x : SpindleSt) : (d.setSp i x).kl = d.kl := rfl
@[simp] theorem Dev.setSp_flt (i : Nat) (x : SpindleSt) : (d.setSp i x).flt = d.flt := rfl
@[simp] theorem Dev.setSp_mgmt (i : Nat) (x : SpindleSt) : (d.setSp i x).mgmt = d.mgmt := rfl
@[simp] theorem Dev.setSp_red (i : Nat) (x : SpindleSt) : (d.setSp i x).red = d.red := rfl
@[simp] theorem Dev.setSp_med (i : Nat) (x : SpindleSt) : (d.setSp i x).med = d.med := rfl
@[simp] theorem Dev.setSp_vc (i : Nat) (x : SpindleSt) : (d.setSp i x).vc = d.vc := rfl
@[simp] theorem Dev.setSp_pwr (i : Nat) (x : SpindleSt) : (d.setSp i x).pwr = d.pwr := rfl
@[simp] theorem Dev.setSp_boot (i : Nat) (x : SpindleSt) : (d.setSp i x).boot = d.boot := rfl

/-! ### setReel -/

@[simp] theorem Dev.setReel_regs (i : Nat) (x : ReelSt) : (d.setReel i x).regs = d.regs := rfl
@[simp] theorem Dev.setReel_mem (i : Nat) (x : ReelSt) : (d.setReel i x).mem = d.mem := rfl
@[simp] theorem Dev.setReel_poison (i : Nat) (x : ReelSt) : (d.setReel i x).poison = d.poison := rfl
@[simp] theorem Dev.setReel_poisonW (i : Nat) (x : ReelSt) : (d.setReel i x).poisonW = d.poisonW := rfl
@[simp] theorem Dev.setReel_out (i : Nat) (x : ReelSt) : (d.setReel i x).out = d.out := rfl
@[simp] theorem Dev.setReel_free (i : Nat) (x : ReelSt) : (d.setReel i x).free = d.free := rfl
@[simp] theorem Dev.setReel_irq (i : Nat) (x : ReelSt) : (d.setReel i x).irq = d.irq := rfl
@[simp] theorem Dev.setReel_que (i : Nat) (x : ReelSt) : (d.setReel i x).que = d.que := rfl
@[simp] theorem Dev.setReel_bell (i : Nat) (x : ReelSt) : (d.setReel i x).bell = d.bell := rfl
@[simp] theorem Dev.setReel_net (i : Nat) (x : ReelSt) : (d.setReel i x).net = d.net := rfl
@[simp] theorem Dev.setReel_memx (i : Nat) (x : ReelSt) : (d.setReel i x).memx = d.memx := rfl
@[simp] theorem Dev.setReel_dma (i : Nat) (x : ReelSt) : (d.setReel i x).dma = d.dma := rfl
@[simp] theorem Dev.setReel_skn (i : Nat) (x : ReelSt) : (d.setReel i x).skn = d.skn := rfl
@[simp] theorem Dev.setReel_kl (i : Nat) (x : ReelSt) : (d.setReel i x).kl = d.kl := rfl
@[simp] theorem Dev.setReel_flt (i : Nat) (x : ReelSt) : (d.setReel i x).flt = d.flt := rfl
@[simp] theorem Dev.setReel_mgmt (i : Nat) (x : ReelSt) : (d.setReel i x).mgmt = d.mgmt := rfl
@[simp] theorem Dev.setReel_red (i : Nat) (x : ReelSt) : (d.setReel i x).red = d.red := rfl
@[simp] theorem Dev.setReel_med (i : Nat) (x : ReelSt) : (d.setReel i x).med = d.med := rfl
@[simp] theorem Dev.setReel_vc (i : Nat) (x : ReelSt) : (d.setReel i x).vc = d.vc := rfl
@[simp] theorem Dev.setReel_pwr (i : Nat) (x : ReelSt) : (d.setReel i x).pwr = d.pwr := rfl
@[simp] theorem Dev.setReel_boot (i : Nat) (x : ReelSt) : (d.setReel i x).boot = d.boot := rfl
@[simp] theorem Dev.setReel_spx (i : Nat) (x : ReelSt) : (d.setReel i x).spx = d.spx := rfl

/-! ### burn -/

@[simp] theorem Dev.burn_regs (p : Part) : (d.burn p).regs = d.regs := rfl
@[simp] theorem Dev.burn_mem (p : Part) : (d.burn p).mem = d.mem := rfl
@[simp] theorem Dev.burn_poison (p : Part) : (d.burn p).poison = d.poison := rfl
@[simp] theorem Dev.burn_poisonW (p : Part) : (d.burn p).poisonW = d.poisonW := rfl
@[simp] theorem Dev.burn_out (p : Part) : (d.burn p).out = d.out := rfl
@[simp] theorem Dev.burn_free (p : Part) : (d.burn p).free = d.free := rfl
@[simp] theorem Dev.burn_irq (p : Part) : (d.burn p).irq = d.irq := rfl
@[simp] theorem Dev.burn_que (p : Part) : (d.burn p).que = d.que := rfl
@[simp] theorem Dev.burn_bell (p : Part) : (d.burn p).bell = d.bell := rfl
@[simp] theorem Dev.burn_net (p : Part) : (d.burn p).net = d.net := rfl
@[simp] theorem Dev.burn_memx (p : Part) : (d.burn p).memx = d.memx := rfl
@[simp] theorem Dev.burn_dma (p : Part) : (d.burn p).dma = d.dma := rfl
@[simp] theorem Dev.burn_skn (p : Part) : (d.burn p).skn = d.skn := rfl
@[simp] theorem Dev.burn_reels (p : Part) : (d.burn p).reels = d.reels := rfl
@[simp] theorem Dev.burn_kl (p : Part) : (d.burn p).kl = d.kl := rfl
@[simp] theorem Dev.burn_mgmt (p : Part) : (d.burn p).mgmt = d.mgmt := rfl
@[simp] theorem Dev.burn_red (p : Part) : (d.burn p).red = d.red := rfl
@[simp] theorem Dev.burn_med (p : Part) : (d.burn p).med = d.med := rfl
@[simp] theorem Dev.burn_vc (p : Part) : (d.burn p).vc = d.vc := rfl
@[simp] theorem Dev.burn_pwr (p : Part) : (d.burn p).pwr = d.pwr := rfl
@[simp] theorem Dev.burn_boot (p : Part) : (d.burn p).boot = d.boot := rfl
@[simp] theorem Dev.burn_spx (p : Part) : (d.burn p).spx = d.spx := rfl

/-! ### setDma -/

@[simp] theorem Dev.setDma_regs (ch : Nat) (x : DmaSt) : (d.setDma ch x).regs = d.regs := rfl
@[simp] theorem Dev.setDma_mem (ch : Nat) (x : DmaSt) : (d.setDma ch x).mem = d.mem := rfl
@[simp] theorem Dev.setDma_poison (ch : Nat) (x : DmaSt) : (d.setDma ch x).poison = d.poison := rfl
@[simp] theorem Dev.setDma_poisonW (ch : Nat) (x : DmaSt) : (d.setDma ch x).poisonW = d.poisonW := rfl
@[simp] theorem Dev.setDma_out (ch : Nat) (x : DmaSt) : (d.setDma ch x).out = d.out := rfl
@[simp] theorem Dev.setDma_free (ch : Nat) (x : DmaSt) : (d.setDma ch x).free = d.free := rfl
@[simp] theorem Dev.setDma_irq (ch : Nat) (x : DmaSt) : (d.setDma ch x).irq = d.irq := rfl
@[simp] theorem Dev.setDma_que (ch : Nat) (x : DmaSt) : (d.setDma ch x).que = d.que := rfl
@[simp] theorem Dev.setDma_bell (ch : Nat) (x : DmaSt) : (d.setDma ch x).bell = d.bell := rfl
@[simp] theorem Dev.setDma_net (ch : Nat) (x : DmaSt) : (d.setDma ch x).net = d.net := rfl
@[simp] theorem Dev.setDma_memx (ch : Nat) (x : DmaSt) : (d.setDma ch x).memx = d.memx := rfl
@[simp] theorem Dev.setDma_skn (ch : Nat) (x : DmaSt) : (d.setDma ch x).skn = d.skn := rfl
@[simp] theorem Dev.setDma_reels (ch : Nat) (x : DmaSt) : (d.setDma ch x).reels = d.reels := rfl
@[simp] theorem Dev.setDma_kl (ch : Nat) (x : DmaSt) : (d.setDma ch x).kl = d.kl := rfl
@[simp] theorem Dev.setDma_flt (ch : Nat) (x : DmaSt) : (d.setDma ch x).flt = d.flt := rfl
@[simp] theorem Dev.setDma_mgmt (ch : Nat) (x : DmaSt) : (d.setDma ch x).mgmt = d.mgmt := rfl
@[simp] theorem Dev.setDma_red (ch : Nat) (x : DmaSt) : (d.setDma ch x).red = d.red := rfl
@[simp] theorem Dev.setDma_med (ch : Nat) (x : DmaSt) : (d.setDma ch x).med = d.med := rfl
@[simp] theorem Dev.setDma_vc (ch : Nat) (x : DmaSt) : (d.setDma ch x).vc = d.vc := rfl
@[simp] theorem Dev.setDma_pwr (ch : Nat) (x : DmaSt) : (d.setDma ch x).pwr = d.pwr := rfl
@[simp] theorem Dev.setDma_boot (ch : Nat) (x : DmaSt) : (d.setDma ch x).boot = d.boot := rfl
@[simp] theorem Dev.setDma_spx (ch : Nat) (x : DmaSt) : (d.setDma ch x).spx = d.spx := rfl

/-! ### setPort -/

@[simp] theorem Dev.setPort_regs (p : Nat) (x : PortSt) : (d.setPort p x).regs = d.regs := rfl
@[simp] theorem Dev.setPort_mem (p : Nat) (x : PortSt) : (d.setPort p x).mem = d.mem := rfl
@[simp] theorem Dev.setPort_poison (p : Nat) (x : PortSt) : (d.setPort p x).poison = d.poison := rfl
@[simp] theorem Dev.setPort_poisonW (p : Nat) (x : PortSt) : (d.setPort p x).poisonW = d.poisonW := rfl
@[simp] theorem Dev.setPort_out (p : Nat) (x : PortSt) : (d.setPort p x).out = d.out := rfl
@[simp] theorem Dev.setPort_free (p : Nat) (x : PortSt) : (d.setPort p x).free = d.free := rfl
@[simp] theorem Dev.setPort_irq (p : Nat) (x : PortSt) : (d.setPort p x).irq = d.irq := rfl
@[simp] theorem Dev.setPort_que (p : Nat) (x : PortSt) : (d.setPort p x).que = d.que := rfl
@[simp] theorem Dev.setPort_bell (p : Nat) (x : PortSt) : (d.setPort p x).bell = d.bell := rfl
@[simp] theorem Dev.setPort_net (p : Nat) (x : PortSt) : (d.setPort p x).net = d.net := rfl
@[simp] theorem Dev.setPort_memx (p : Nat) (x : PortSt) : (d.setPort p x).memx = d.memx := rfl
@[simp] theorem Dev.setPort_dma (p : Nat) (x : PortSt) : (d.setPort p x).dma = d.dma := rfl
@[simp] theorem Dev.setPort_skn (p : Nat) (x : PortSt) : (d.setPort p x).skn = d.skn := rfl
@[simp] theorem Dev.setPort_reels (p : Nat) (x : PortSt) : (d.setPort p x).reels = d.reels := rfl
@[simp] theorem Dev.setPort_flt (p : Nat) (x : PortSt) : (d.setPort p x).flt = d.flt := rfl
@[simp] theorem Dev.setPort_mgmt (p : Nat) (x : PortSt) : (d.setPort p x).mgmt = d.mgmt := rfl
@[simp] theorem Dev.setPort_red (p : Nat) (x : PortSt) : (d.setPort p x).red = d.red := rfl
@[simp] theorem Dev.setPort_med (p : Nat) (x : PortSt) : (d.setPort p x).med = d.med := rfl
@[simp] theorem Dev.setPort_vc (p : Nat) (x : PortSt) : (d.setPort p x).vc = d.vc := rfl
@[simp] theorem Dev.setPort_pwr (p : Nat) (x : PortSt) : (d.setPort p x).pwr = d.pwr := rfl
@[simp] theorem Dev.setPort_boot (p : Nat) (x : PortSt) : (d.setPort p x).boot = d.boot := rfl
@[simp] theorem Dev.setPort_spx (p : Nat) (x : PortSt) : (d.setPort p x).spx = d.spx := rfl

/-! ### setRed -/

@[simp] theorem Dev.setRed_regs (r : Nat) (x : RedSt) : (d.setRed r x).regs = d.regs := rfl
@[simp] theorem Dev.setRed_mem (r : Nat) (x : RedSt) : (d.setRed r x).mem = d.mem := rfl
@[simp] theorem Dev.setRed_poison (r : Nat) (x : RedSt) : (d.setRed r x).poison = d.poison := rfl
@[simp] theorem Dev.setRed_poisonW (r : Nat) (x : RedSt) : (d.setRed r x).poisonW = d.poisonW := rfl
@[simp] theorem Dev.setRed_out (r : Nat) (x : RedSt) : (d.setRed r x).out = d.out := rfl
@[simp] theorem Dev.setRed_free (r : Nat) (x : RedSt) : (d.setRed r x).free = d.free := rfl
@[simp] theorem Dev.setRed_irq (r : Nat) (x : RedSt) : (d.setRed r x).irq = d.irq := rfl
@[simp] theorem Dev.setRed_que (r : Nat) (x : RedSt) : (d.setRed r x).que = d.que := rfl
@[simp] theorem Dev.setRed_bell (r : Nat) (x : RedSt) : (d.setRed r x).bell = d.bell := rfl
@[simp] theorem Dev.setRed_net (r : Nat) (x : RedSt) : (d.setRed r x).net = d.net := rfl
@[simp] theorem Dev.setRed_memx (r : Nat) (x : RedSt) : (d.setRed r x).memx = d.memx := rfl
@[simp] theorem Dev.setRed_dma (r : Nat) (x : RedSt) : (d.setRed r x).dma = d.dma := rfl
@[simp] theorem Dev.setRed_skn (r : Nat) (x : RedSt) : (d.setRed r x).skn = d.skn := rfl
@[simp] theorem Dev.setRed_reels (r : Nat) (x : RedSt) : (d.setRed r x).reels = d.reels := rfl
@[simp] theorem Dev.setRed_kl (r : Nat) (x : RedSt) : (d.setRed r x).kl = d.kl := rfl
@[simp] theorem Dev.setRed_flt (r : Nat) (x : RedSt) : (d.setRed r x).flt = d.flt := rfl
@[simp] theorem Dev.setRed_mgmt (r : Nat) (x : RedSt) : (d.setRed r x).mgmt = d.mgmt := rfl
@[simp] theorem Dev.setRed_med (r : Nat) (x : RedSt) : (d.setRed r x).med = d.med := rfl
@[simp] theorem Dev.setRed_vc (r : Nat) (x : RedSt) : (d.setRed r x).vc = d.vc := rfl
@[simp] theorem Dev.setRed_pwr (r : Nat) (x : RedSt) : (d.setRed r x).pwr = d.pwr := rfl
@[simp] theorem Dev.setRed_boot (r : Nat) (x : RedSt) : (d.setRed r x).boot = d.boot := rfl
@[simp] theorem Dev.setRed_spx (r : Nat) (x : RedSt) : (d.setRed r x).spx = d.spx := rfl

/-! ### setSlot -/

@[simp] theorem Dev.setSlot_regs (r s : Nat) (x : SlotSt) : (d.setSlot r s x).regs = d.regs := rfl
@[simp] theorem Dev.setSlot_mem (r s : Nat) (x : SlotSt) : (d.setSlot r s x).mem = d.mem := rfl
@[simp] theorem Dev.setSlot_poison (r s : Nat) (x : SlotSt) : (d.setSlot r s x).poison = d.poison := rfl
@[simp] theorem Dev.setSlot_poisonW (r s : Nat) (x : SlotSt) : (d.setSlot r s x).poisonW = d.poisonW := rfl
@[simp] theorem Dev.setSlot_out (r s : Nat) (x : SlotSt) : (d.setSlot r s x).out = d.out := rfl
@[simp] theorem Dev.setSlot_free (r s : Nat) (x : SlotSt) : (d.setSlot r s x).free = d.free := rfl
@[simp] theorem Dev.setSlot_irq (r s : Nat) (x : SlotSt) : (d.setSlot r s x).irq = d.irq := rfl
@[simp] theorem Dev.setSlot_que (r s : Nat) (x : SlotSt) : (d.setSlot r s x).que = d.que := rfl
@[simp] theorem Dev.setSlot_bell (r s : Nat) (x : SlotSt) : (d.setSlot r s x).bell = d.bell := rfl
@[simp] theorem Dev.setSlot_net (r s : Nat) (x : SlotSt) : (d.setSlot r s x).net = d.net := rfl
@[simp] theorem Dev.setSlot_memx (r s : Nat) (x : SlotSt) : (d.setSlot r s x).memx = d.memx := rfl
@[simp] theorem Dev.setSlot_dma (r s : Nat) (x : SlotSt) : (d.setSlot r s x).dma = d.dma := rfl
@[simp] theorem Dev.setSlot_reels (r s : Nat) (x : SlotSt) : (d.setSlot r s x).reels = d.reels := rfl
@[simp] theorem Dev.setSlot_kl (r s : Nat) (x : SlotSt) : (d.setSlot r s x).kl = d.kl := rfl
@[simp] theorem Dev.setSlot_flt (r s : Nat) (x : SlotSt) : (d.setSlot r s x).flt = d.flt := rfl
@[simp] theorem Dev.setSlot_mgmt (r s : Nat) (x : SlotSt) : (d.setSlot r s x).mgmt = d.mgmt := rfl
@[simp] theorem Dev.setSlot_red (r s : Nat) (x : SlotSt) : (d.setSlot r s x).red = d.red := rfl
@[simp] theorem Dev.setSlot_med (r s : Nat) (x : SlotSt) : (d.setSlot r s x).med = d.med := rfl
@[simp] theorem Dev.setSlot_vc (r s : Nat) (x : SlotSt) : (d.setSlot r s x).vc = d.vc := rfl
@[simp] theorem Dev.setSlot_pwr (r s : Nat) (x : SlotSt) : (d.setSlot r s x).pwr = d.pwr := rfl
@[simp] theorem Dev.setSlot_boot (r s : Nat) (x : SlotSt) : (d.setSlot r s x).boot = d.boot := rfl
@[simp] theorem Dev.setSlot_spx (r s : Nat) (x : SlotSt) : (d.setSlot r s x).spx = d.spx := rfl

/-! ### setPwr -/

@[simp] theorem Dev.setPwr_regs (x : PwrSt) : (d.setPwr x).regs = d.regs := rfl
@[simp] theorem Dev.setPwr_mem (x : PwrSt) : (d.setPwr x).mem = d.mem := rfl
@[simp] theorem Dev.setPwr_poison (x : PwrSt) : (d.setPwr x).poison = d.poison := rfl
@[simp] theorem Dev.setPwr_poisonW (x : PwrSt) : (d.setPwr x).poisonW = d.poisonW := rfl
@[simp] theorem Dev.setPwr_out (x : PwrSt) : (d.setPwr x).out = d.out := rfl
@[simp] theorem Dev.setPwr_free (x : PwrSt) : (d.setPwr x).free = d.free := rfl
@[simp] theorem Dev.setPwr_irq (x : PwrSt) : (d.setPwr x).irq = d.irq := rfl
@[simp] theorem Dev.setPwr_que (x : PwrSt) : (d.setPwr x).que = d.que := rfl
@[simp] theorem Dev.setPwr_bell (x : PwrSt) : (d.setPwr x).bell = d.bell := rfl
@[simp] theorem Dev.setPwr_net (x : PwrSt) : (d.setPwr x).net = d.net := rfl
@[simp] theorem Dev.setPwr_memx (x : PwrSt) : (d.setPwr x).memx = d.memx := rfl
@[simp] theorem Dev.setPwr_dma (x : PwrSt) : (d.setPwr x).dma = d.dma := rfl
@[simp] theorem Dev.setPwr_skn (x : PwrSt) : (d.setPwr x).skn = d.skn := rfl
@[simp] theorem Dev.setPwr_reels (x : PwrSt) : (d.setPwr x).reels = d.reels := rfl
@[simp] theorem Dev.setPwr_kl (x : PwrSt) : (d.setPwr x).kl = d.kl := rfl
@[simp] theorem Dev.setPwr_flt (x : PwrSt) : (d.setPwr x).flt = d.flt := rfl
@[simp] theorem Dev.setPwr_mgmt (x : PwrSt) : (d.setPwr x).mgmt = d.mgmt := rfl
@[simp] theorem Dev.setPwr_red (x : PwrSt) : (d.setPwr x).red = d.red := rfl
@[simp] theorem Dev.setPwr_med (x : PwrSt) : (d.setPwr x).med = d.med := rfl
@[simp] theorem Dev.setPwr_vc (x : PwrSt) : (d.setPwr x).vc = d.vc := rfl
@[simp] theorem Dev.setPwr_boot (x : PwrSt) : (d.setPwr x).boot = d.boot := rfl
@[simp] theorem Dev.setPwr_spx (x : PwrSt) : (d.setPwr x).spx = d.spx := rfl

/-! ### putBytes and wrBytes -/

/-- Marks lost by clean data: what is poisoned and the state of the tiers alone. -/
theorem Dev.cleanSectors_kept (a n : Nat) : ∃ p x, d.cleanSectors a n = { d with poison := p, memx := x } := by
  unfold Dev.cleanSectors
  dsimp only
  split
  · exact ⟨_, d.memx, rfl⟩
  · exact ⟨_, _, rfl⟩

/-- A write of bytes changes memory, what is poisoned and the state of the tiers alone. -/
theorem Dev.putBytes_kept (a : Nat) (bs : List (BitVec 8)) :
    ∃ p w x, d.putBytes a bs = { d with mem := memWrite d.mem a bs, poison := p, poisonW := w, memx := x } := by
  unfold Dev.putBytes
  dsimp only
  obtain ⟨p, x, h⟩ := Dev.cleanSectors_kept { d with
    mem := memWrite d.mem a bs
    poisonW := d.poisonW.filter fun w => !(decide (a ≤ w) && decide (w + 4 ≤ a + bs.length)) } a bs.length
  exact ⟨p, _, x, h⟩

/-- A write of bytes is one write or several, each inside the bytes: what each of them keeps, it keeps. -/
theorem Dev.wrBytes_induct (a : Nat) (bs : List (BitVec 8)) (P : Dev → Prop) (h0 : P d)
    (hs : ∀ (e : Dev) (lo : Nat) (b : List (BitVec 8)), P e →
      (∀ k, k < a ∨ a + bs.length ≤ k → k < lo ∨ lo + b.length ≤ k) → P (e.putBytes lo b)) : P (d.wrBytes a bs) := by
  unfold Dev.wrBytes
  split
  · generalize sectorsOf a bs.length = l
    have key : ∀ (l : List Nat) (e : Dev), P e → P (l.foldl (fun (e : Dev) s =>
        let lo := max s a
        if d.deadAt s then e else e.putBytes lo ((bs.drop (lo - a)).take (s + 64 - lo))) e) := by
      intro l
      induction l with
      | nil => exact fun e h => h
      | cons s l ih =>
        intro e h
        refine ih _ ?_
        dsimp only
        split
        · exact h
        · refine hs _ _ _ h fun k hk => ?_
          simp only [List.length_take, List.length_drop]
          omega
    exact key l d h0
  · exact hs d a bs h0 fun k hk => hk

theorem Dev.wrBytes_kept (a : Nat) (bs : List (BitVec 8)) :
    ∃ m p w x, d.wrBytes a bs = { d with mem := m, poison := p, poisonW := w, memx := x } := by
  refine d.wrBytes_induct a bs (fun e => ∃ m p w x, e = { d with mem := m, poison := p, poisonW := w, memx := x })
    ⟨_, _, _, _, rfl⟩ ?_
  rintro e lo b ⟨m, p, w, x, rfl⟩ -
  obtain ⟨p', w', x', h⟩ := Dev.putBytes_kept { d with mem := m, poison := p, poisonW := w, memx := x } lo b
  exact ⟨_, p', w', x', h⟩

@[simp] theorem Dev.putBytes_mem (a : Nat) (bs : List (BitVec 8)) : (d.putBytes a bs).mem = memWrite d.mem a bs := by
  obtain ⟨_, _, _, h⟩ := d.putBytes_kept a bs
  rw [h]
@[simp] theorem Dev.putBytes_regs (a : Nat) (bs : List (BitVec 8)) : (d.putBytes a bs).regs = d.regs := by
  obtain ⟨_, _, _, h⟩ := d.putBytes_kept a bs
  rw [h]
@[simp] theorem Dev.putBytes_out (a : Nat) (bs : List (BitVec 8)) : (d.putBytes a bs).out = d.out := by
  obtain ⟨_, _, _, h⟩ := d.putBytes_kept a bs
  rw [h]
@[simp] theorem Dev.putBytes_free (a : Nat) (bs : List (BitVec 8)) : (d.putBytes a bs).free = d.free := by
  obtain ⟨_, _, _, h⟩ := d.putBytes_kept a bs
  rw [h]
@[simp] theorem Dev.putBytes_irq (a : Nat) (bs : List (BitVec 8)) : (d.putBytes a bs).irq = d.irq := by
  obtain ⟨_, _, _, h⟩ := d.putBytes_kept a bs
  rw [h]
@[simp] theorem Dev.putBytes_que (a : Nat) (bs : List (BitVec 8)) : (d.putBytes a bs).que = d.que := by
  obtain ⟨_, _, _, h⟩ := d.putBytes_kept a bs
  rw [h]
@[simp] theorem Dev.putBytes_bell (a : Nat) (bs : List (BitVec 8)) : (d.putBytes a bs).bell = d.bell := by
  obtain ⟨_, _, _, h⟩ := d.putBytes_kept a bs
  rw [h]
@[simp] theorem Dev.putBytes_net (a : Nat) (bs : List (BitVec 8)) : (d.putBytes a bs).net = d.net := by
  obtain ⟨_, _, _, h⟩ := d.putBytes_kept a bs
  rw [h]
@[simp] theorem Dev.putBytes_dma (a : Nat) (bs : List (BitVec 8)) : (d.putBytes a bs).dma = d.dma := by
  obtain ⟨_, _, _, h⟩ := d.putBytes_kept a bs
  rw [h]
@[simp] theorem Dev.putBytes_skn (a : Nat) (bs : List (BitVec 8)) : (d.putBytes a bs).skn = d.skn := by
  obtain ⟨_, _, _, h⟩ := d.putBytes_kept a bs
  rw [h]
@[simp] theorem Dev.putBytes_reels (a : Nat) (bs : List (BitVec 8)) : (d.putBytes a bs).reels = d.reels := by
  obtain ⟨_, _, _, h⟩ := d.putBytes_kept a bs
  rw [h]
@[simp] theorem Dev.putBytes_kl (a : Nat) (bs : List (BitVec 8)) : (d.putBytes a bs).kl = d.kl := by
  obtain ⟨_, _, _, h⟩ := d.putBytes_kept a bs
  rw [h]
@[simp] theorem Dev.putBytes_flt (a : Nat) (bs : List (BitVec 8)) : (d.putBytes a bs).flt = d.flt := by
  obtain ⟨_, _, _, h⟩ := d.putBytes_kept a bs
  rw [h]
@[simp] theorem Dev.putBytes_mgmt (a : Nat) (bs : List (BitVec 8)) : (d.putBytes a bs).mgmt = d.mgmt := by
  obtain ⟨_, _, _, h⟩ := d.putBytes_kept a bs
  rw [h]
@[simp] theorem Dev.putBytes_red (a : Nat) (bs : List (BitVec 8)) : (d.putBytes a bs).red = d.red := by
  obtain ⟨_, _, _, h⟩ := d.putBytes_kept a bs
  rw [h]
@[simp] theorem Dev.putBytes_med (a : Nat) (bs : List (BitVec 8)) : (d.putBytes a bs).med = d.med := by
  obtain ⟨_, _, _, h⟩ := d.putBytes_kept a bs
  rw [h]
@[simp] theorem Dev.putBytes_vc (a : Nat) (bs : List (BitVec 8)) : (d.putBytes a bs).vc = d.vc := by
  obtain ⟨_, _, _, h⟩ := d.putBytes_kept a bs
  rw [h]
@[simp] theorem Dev.putBytes_pwr (a : Nat) (bs : List (BitVec 8)) : (d.putBytes a bs).pwr = d.pwr := by
  obtain ⟨_, _, _, h⟩ := d.putBytes_kept a bs
  rw [h]
@[simp] theorem Dev.putBytes_boot (a : Nat) (bs : List (BitVec 8)) : (d.putBytes a bs).boot = d.boot := by
  obtain ⟨_, _, _, h⟩ := d.putBytes_kept a bs
  rw [h]
@[simp] theorem Dev.putBytes_spx (a : Nat) (bs : List (BitVec 8)) : (d.putBytes a bs).spx = d.spx := by
  obtain ⟨_, _, _, h⟩ := d.putBytes_kept a bs
  rw [h]

@[simp] theorem Dev.wrBytes_regs (a : Nat) (bs : List (BitVec 8)) : (d.wrBytes a bs).regs = d.regs := by
  obtain ⟨_, _, _, _, h⟩ := d.wrBytes_kept a bs
  rw [h]
@[simp] theorem Dev.wrBytes_out (a : Nat) (bs : List (BitVec 8)) : (d.wrBytes a bs).out = d.out := by
  obtain ⟨_, _, _, _, h⟩ := d.wrBytes_kept a bs
  rw [h]
@[simp] theorem Dev.wrBytes_free (a : Nat) (bs : List (BitVec 8)) : (d.wrBytes a bs).free = d.free := by
  obtain ⟨_, _, _, _, h⟩ := d.wrBytes_kept a bs
  rw [h]
@[simp] theorem Dev.wrBytes_irq (a : Nat) (bs : List (BitVec 8)) : (d.wrBytes a bs).irq = d.irq := by
  obtain ⟨_, _, _, _, h⟩ := d.wrBytes_kept a bs
  rw [h]
@[simp] theorem Dev.wrBytes_que (a : Nat) (bs : List (BitVec 8)) : (d.wrBytes a bs).que = d.que := by
  obtain ⟨_, _, _, _, h⟩ := d.wrBytes_kept a bs
  rw [h]
@[simp] theorem Dev.wrBytes_bell (a : Nat) (bs : List (BitVec 8)) : (d.wrBytes a bs).bell = d.bell := by
  obtain ⟨_, _, _, _, h⟩ := d.wrBytes_kept a bs
  rw [h]
@[simp] theorem Dev.wrBytes_net (a : Nat) (bs : List (BitVec 8)) : (d.wrBytes a bs).net = d.net := by
  obtain ⟨_, _, _, _, h⟩ := d.wrBytes_kept a bs
  rw [h]
@[simp] theorem Dev.wrBytes_dma (a : Nat) (bs : List (BitVec 8)) : (d.wrBytes a bs).dma = d.dma := by
  obtain ⟨_, _, _, _, h⟩ := d.wrBytes_kept a bs
  rw [h]
@[simp] theorem Dev.wrBytes_skn (a : Nat) (bs : List (BitVec 8)) : (d.wrBytes a bs).skn = d.skn := by
  obtain ⟨_, _, _, _, h⟩ := d.wrBytes_kept a bs
  rw [h]
@[simp] theorem Dev.wrBytes_reels (a : Nat) (bs : List (BitVec 8)) : (d.wrBytes a bs).reels = d.reels := by
  obtain ⟨_, _, _, _, h⟩ := d.wrBytes_kept a bs
  rw [h]
@[simp] theorem Dev.wrBytes_kl (a : Nat) (bs : List (BitVec 8)) : (d.wrBytes a bs).kl = d.kl := by
  obtain ⟨_, _, _, _, h⟩ := d.wrBytes_kept a bs
  rw [h]
@[simp] theorem Dev.wrBytes_flt (a : Nat) (bs : List (BitVec 8)) : (d.wrBytes a bs).flt = d.flt := by
  obtain ⟨_, _, _, _, h⟩ := d.wrBytes_kept a bs
  rw [h]
@[simp] theorem Dev.wrBytes_mgmt (a : Nat) (bs : List (BitVec 8)) : (d.wrBytes a bs).mgmt = d.mgmt := by
  obtain ⟨_, _, _, _, h⟩ := d.wrBytes_kept a bs
  rw [h]
@[simp] theorem Dev.wrBytes_red (a : Nat) (bs : List (BitVec 8)) : (d.wrBytes a bs).red = d.red := by
  obtain ⟨_, _, _, _, h⟩ := d.wrBytes_kept a bs
  rw [h]
@[simp] theorem Dev.wrBytes_med (a : Nat) (bs : List (BitVec 8)) : (d.wrBytes a bs).med = d.med := by
  obtain ⟨_, _, _, _, h⟩ := d.wrBytes_kept a bs
  rw [h]
@[simp] theorem Dev.wrBytes_vc (a : Nat) (bs : List (BitVec 8)) : (d.wrBytes a bs).vc = d.vc := by
  obtain ⟨_, _, _, _, h⟩ := d.wrBytes_kept a bs
  rw [h]
@[simp] theorem Dev.wrBytes_pwr (a : Nat) (bs : List (BitVec 8)) : (d.wrBytes a bs).pwr = d.pwr := by
  obtain ⟨_, _, _, _, h⟩ := d.wrBytes_kept a bs
  rw [h]
@[simp] theorem Dev.wrBytes_boot (a : Nat) (bs : List (BitVec 8)) : (d.wrBytes a bs).boot = d.boot := by
  obtain ⟨_, _, _, _, h⟩ := d.wrBytes_kept a bs
  rw [h]
@[simp] theorem Dev.wrBytes_spx (a : Nat) (bs : List (BitVec 8)) : (d.wrBytes a bs).spx = d.spx := by
  obtain ⟨_, _, _, _, h⟩ := d.wrBytes_kept a bs
  rw [h]

end Sys2Proof.Machine
end

