-- ==== Sys2Proof/Laws/Tab.lean ====
section
/-! SUPPORT. Laws of sparse tables: a read after a write gives the value written at its key and leaves every other key
alone, whatever the table; every operation keeps the canonical form. -/

namespace Sys2Proof.Machine

variable {α : Type}

/-! ## Reads after writes -/

/-- A deleted key reads as the default. -/
theorem tget_tdel_same (d : Nat → α) (l : List (Nat × α)) (k : Nat) : tget d (tdel l k) k = d k := by
  induction l with
  | nil => rfl
  | cons p t ih =>
    obtain ⟨j, v⟩ := p
    by_cases h : j = k
    · simpa [tdel, h] using ih
    · simp [tdel, h, tget, Ne.symm h] at ih ⊢
      exact ih

/-- Deleting a key leaves every other key alone. -/
theorem tget_tdel_ne (d : Nat → α) (l : List (Nat × α)) (k n : Nat) (h : n ≠ k) : tget d (tdel l k) n = tget d l n := by
  induction l with
  | nil => rfl
  | cons p t ih =>
    obtain ⟨j, v⟩ := p
    by_cases hj : j = k
    · subst hj
      simp [tdel, tget, h] at ih ⊢
      exact ih
    · simp [tdel, hj, tget] at ih ⊢
      split
      · rfl
      · exact ih

/-- An inserted key is found where the table did not list it. -/
theorem tget_tins_same (d : Nat → α) (l : List (Nat × α)) (k : Nat) (v : α) (h : ∀ p ∈ l, p.1 ≠ k) :
    tget d (tins l k v) k = v := by
  induction l with
  | nil => simp [tins, tget]
  | cons p t ih =>
    obtain ⟨j, w⟩ := p
    have hj : j ≠ k := h (j, w) (by simp)
    simp only [tins]
    split
    · simp [tget]
    · simp only [tget, if_neg (Ne.symm hj)]
      exact ih fun q hq => h q (by simp [hq])

/-- Inserting a key leaves every other key alone. -/
theorem tget_tins_ne (d : Nat → α) (l : List (Nat × α)) (k n : Nat) (v : α) (h : n ≠ k) :
    tget d (tins l k v) n = tget d l n := by
  induction l with
  | nil => simp [tins, tget, h]
  | cons p t ih =>
    obtain ⟨j, w⟩ := p
    simp only [tins]
    split
    · simp [tget, h]
    · simp only [tget]
      split
      · rfl
      · exact ih

/-- A deleted key is not listed. -/
theorem tdel_not_mem (l : List (Nat × α)) (k : Nat) : ∀ p ∈ tdel l k, p.1 ≠ k := by
  intro p hp
  simpa [tdel] using (List.mem_filter.mp hp).2

/-- A read of the key written gives the value written. -/
@[simp] theorem tget_tset_same [DecidableEq α] (d : Nat → α) (l : List (Nat × α)) (k : Nat) (v : α) :
    tget d (tset d l k v) k = v := by
  unfold tset
  split
  · rename_i h
    rw [tget_tdel_same, h]
  · exact tget_tins_same d _ k v (tdel_not_mem l k)

/-- A write leaves every other key alone. -/
theorem tget_tset_ne [DecidableEq α] (d : Nat → α) (l : List (Nat × α)) (k n : Nat) (v : α) (h : n ≠ k) :
    tget d (tset d l k v) n = tget d l n := by
  unfold tset
  split
  · exact tget_tdel_ne d l k n h
  · rw [tget_tins_ne d _ k n v h, tget_tdel_ne d l k n h]

/-- A read after a write, in one equation. -/
theorem tget_tset [DecidableEq α] (d : Nat → α) (l : List (Nat × α)) (k n : Nat) (v : α) :
    tget d (tset d l k v) n = if n = k then v else tget d l n := by
  split
  · rename_i h
    subst h
    exact tget_tset_same d l n v
  · rename_i h
    exact tget_tset_ne d l k n v h

/-- An erased range reads as the default; every other key is left alone. -/
theorem tget_terase (d : Nat → α) (l : List (Nat × α)) (lo n k : Nat) :
    tget d (terase l lo n) k = if lo ≤ k ∧ k < lo + n then d k else tget d l k := by
  induction l with
  | nil => simp [terase, tget]
  | cons p t ih =>
    obtain ⟨j, v⟩ := p
    by_cases hj : lo ≤ j ∧ j < lo + n
    · have : terase ((j, v) :: t) lo n = terase t lo n := by simp [terase, hj]
      rw [this, ih]
      by_cases hk : lo ≤ k ∧ k < lo + n
      · simp [hk]
      · have : k ≠ j := by rintro rfl; exact hk hj
        simp [hk, tget, this]
    · have : terase ((j, v) :: t) lo n = (j, v) :: terase t lo n := by
        simp only [terase, List.filter_cons]
        rw [if_pos]
        simp
        omega
      rw [this]
      simp only [tget]
      split
      · rename_i hk
        subst hk
        simp [hj]
      · exact ih

/-! ## The canonical form -/

/-- A lower bound of a table's keys carries over to a lower one. -/
theorem tabove_mono {k j : Nat} (l : List (Nat × α)) (hkj : k ≤ j) (h : tabove j l = true) : tabove k l = true := by
  induction l with
  | nil => rfl
  | cons p t ih =>
    obtain ⟨i, v⟩ := p
    simp only [tabove, Bool.and_eq_true, decide_eq_true_eq] at h ⊢
    exact ⟨by omega, ih h.2⟩

/-- A bound of a table is a bound of any of its filters. -/
theorem tabove_filter (k : Nat) (f : Nat × α → Bool) (l : List (Nat × α)) (h : tabove k l = true) :
    tabove k (l.filter f) = true := by
  induction l with
  | nil => rfl
  | cons p t ih =>
    obtain ⟨i, v⟩ := p
    simp only [tabove, Bool.and_eq_true, decide_eq_true_eq] at h
    simp only [List.filter_cons]
    split
    · simp [tabove, h.1, ih h.2]
    · exact ih h.2

/-- A filter of a canonical table is canonical. -/
theorem twf_filter [DecidableEq α] (d : Nat → α) (f : Nat × α → Bool) (l : List (Nat × α)) (h : twf d l = true) :
    twf d (l.filter f) = true := by
  induction l with
  | nil => rfl
  | cons p t ih =>
    obtain ⟨i, v⟩ := p
    simp only [twf, Bool.and_eq_true, decide_eq_true_eq] at h
    simp only [List.filter_cons]
    split
    · simp [twf, tabove_filter i f t h.1.1, h.1.2, ih h.2]
    · exact ih h.2

/-- Inserting above a bound keeps the bound. -/
theorem tabove_tins (k j : Nat) (v : α) (l : List (Nat × α)) (hkj : k < j) (h : tabove k l = true) :
    tabove k (tins l j v) = true := by
  induction l with
  | nil => simp [tins, tabove, hkj]
  | cons p t ih =>
    obtain ⟨i, w⟩ := p
    simp only [tabove, Bool.and_eq_true, decide_eq_true_eq] at h
    simp only [tins]
    split
    · simp [tabove, hkj, h.1, h.2]
    · simp [tabove, h.1, ih h.2]

/-- Inserting an unlisted key with a value of its own keeps the canonical form. -/
theorem twf_tins [DecidableEq α] (d : Nat → α) (l : List (Nat × α)) (k : Nat) (v : α) (hv : v ≠ d k)
    (hk : ∀ p ∈ l, p.1 ≠ k) (h : twf d l = true) : twf d (tins l k v) = true := by
  induction l with
  | nil => simp [tins, twf, tabove, hv]
  | cons p t ih =>
    obtain ⟨j, w⟩ := p
    have hj : j ≠ k := hk (j, w) (by simp)
    simp only [twf, Bool.and_eq_true, decide_eq_true_eq] at h
    simp only [tins]
    split
    · rename_i hlt
      simp [twf, tabove, hlt, hv, h.1.1, h.1.2, h.2, tabove_mono t (Nat.le_of_lt hlt) h.1.1]
    · have hlt : j < k := by omega
      simp [twf, h.1.2, tabove_tins j k v t hlt h.1.1, ih (fun q hq => hk q (by simp [hq])) h.2]

/-- A write keeps the canonical form. -/
theorem twf_tset [DecidableEq α] (d : Nat → α) (l : List (Nat × α)) (k : Nat) (v : α) (h : twf d l = true) :
    twf d (tset d l k v) = true := by
  unfold tset
  split
  · exact twf_filter d _ l h
  · rename_i hv
    exact twf_tins d _ k v hv (tdel_not_mem l k) (twf_filter d _ l h)

/-- Erasing a range keeps the canonical form. -/
theorem twf_terase [DecidableEq α] (d : Nat → α) (l : List (Nat × α)) (lo n : Nat) (h : twf d l = true) :
    twf d (terase l lo n) = true := twf_filter d _ l h

/-- A run of writes keeps the canonical form. -/
theorem twf_foldl_tset [DecidableEq α] (d : Nat → α) (key : Nat × α → Nat) (ps l : List (Nat × α)) (h : twf d l = true) :
    twf d (ps.foldl (fun acc p => tset d acc (key p) p.2) l) = true := by
  induction ps generalizing l with
  | nil => exact h
  | cons p t ih => exact ih _ (twf_tset d l _ _ h)

/-- Copying a range keeps the canonical form. -/
theorem twf_tcopy [DecidableEq α] (d : Nat → α) (l : List (Nat × α)) (src dst n : Nat) (h : twf d l = true) :
    twf d (tcopy d l src dst n) = true :=
  twf_foldl_tset d (fun p => p.1 - src + dst) _ _ (twf_terase d l dst n h)

end Sys2Proof.Machine
end

