-- ==== Sys2Proof/Laws/Memory.lean ====
section
/-! SUPPORT. Laws of memory: reads after writes, and the canonical form, which every memory operation keeps. -/

namespace Sys2Proof.Machine

/-! ## Bytes and values -/

@[simp] theorem toLe_length (n v : Nat) : (toLe n v).length = n := by
  induction n generalizing v with
  | zero => rfl
  | succ n ih => simp [toLe, ih]

/-- Bytes of a value give it back, cut to their number. -/
theorem ofLe_toLe (n v : Nat) : ofLe (toLe n v) = v % 256 ^ n := by
  induction n generalizing v with
  | zero => simp [toLe, ofLe, Nat.mod_one]
  | succ n ih =>
    rw [toLe, ofLe, ih, BitVec.toNat_ofNat, show 256 ^ (n + 1) = 256 ^ n * 256 from rfl, Nat.mul_comm (256 ^ n) 256, Nat.mod_mul]

/-! ## Reads after writes -/

/-- A byte after a write of a run of bytes. -/
theorem tget_memWrite (m : List Host.Cell) (a : Nat) (bs : List (BitVec 8)) (k : Nat) :
    tget memDefault (memWrite m a bs) k = if a ≤ k ∧ k < a + bs.length then bs.getD (k - a) 0 else tget memDefault m k := by
  induction bs generalizing m a with
  | nil =>
    rw [memWrite, if_neg]
    simp only [List.length_nil]
    omega
  | cons b t ih =>
    rw [memWrite, ih]
    simp only [List.length_cons]
    by_cases h : a + 1 ≤ k ∧ k < a + 1 + t.length
    · obtain ⟨j, rfl⟩ : ∃ j, k = a + 1 + j := ⟨k - (a + 1), by omega⟩
      rw [if_pos h, if_pos (by omega)]
      have h1 : a + 1 + j - a = j + 1 := by omega
      have h2 : a + 1 + j - (a + 1) = j := by omega
      rw [h1, h2]
      rfl
    · rw [if_neg h, tget_tset]
      by_cases hk : k = a
      · subst hk
        rw [if_pos rfl, if_pos (by omega)]
        simp
      · rw [if_neg hk, if_neg (by omega)]

/-- A write of bytes is made unless it reaches a DEAD channel. -/
theorem Dev.wrBytes_mem (d : Dev) (a : Nat) (bs : List (BitVec 8)) (h : d.deadRange a bs.length = false) :
    (d.wrBytes a bs).mem = memWrite d.mem a bs := by
  simp [Dev.wrBytes, h]

/-- A byte after a write of bytes. -/
theorem Dev.rdByte_wrBytes (d : Dev) (a k : Nat) (bs : List (BitVec 8)) (h : d.deadRange a bs.length = false) :
    (d.wrBytes a bs).rdByte k = if a ≤ k ∧ k < a + bs.length then bs.getD (k - a) 0 else d.rdByte k := by
  rw [Dev.rdByte, Dev.wrBytes_mem d a bs h, tget_memWrite]
  rfl

/-- A write of bytes leaves every byte outside them alone, DEAD channel or not. -/
theorem Dev.rdByte_wrBytes_out (d : Dev) (a k : Nat) (bs : List (BitVec 8)) (h : k < a ∨ a + bs.length ≤ k) :
    (d.wrBytes a bs).rdByte k = d.rdByte k := by
  refine d.wrBytes_induct a bs (fun e => e.rdByte k = d.rdByte k) rfl fun e lo b he hb => ?_
  rw [Dev.rdByte, Dev.putBytes_mem, tget_memWrite, if_neg (by have := hb k h; omega)]
  exact he

/-- Bytes read where they were written. -/
theorem Dev.rdBytes_wrBytes (d : Dev) (a : Nat) (bs : List (BitVec 8)) (h : d.deadRange a bs.length = false) :
    (d.wrBytes a bs).rdBytes a bs.length = bs := by
  have key : ∀ (n j : Nat), j + n = bs.length → (d.wrBytes a bs).rdBytes (a + j) n = bs.drop j := by
    intro n
    induction n with
    | zero =>
      intro j hj
      rw [List.drop_eq_nil_of_le (by omega)]
      rfl
    | succ n ih =>
      intro j hj
      have hlt : j < bs.length := by omega
      rw [Dev.rdBytes, Nat.add_assoc, ih (j + 1) (by omega), Dev.rdByte_wrBytes d a _ bs h, if_pos (by omega),
        List.drop_eq_getElem_cons hlt]
      congr 1
      rw [Nat.add_sub_cancel_left]
      simp [List.getD, hlt]
  simpa using key bs.length 0 (by omega)

/-- Bytes read apart from a write are as before. -/
theorem Dev.rdBytes_wrBytes_out (d : Dev) (a k n : Nat) (bs : List (BitVec 8)) (h : k + n ≤ a ∨ a + bs.length ≤ k) :
    (d.wrBytes a bs).rdBytes k n = d.rdBytes k n := by
  induction n generalizing k with
  | zero => rfl
  | succ n ih =>
    rw [Dev.rdBytes, Dev.rdBytes, ih (k + 1) (by omega), Dev.rdByte_wrBytes_out d a k bs (by omega)]

/-- A value read where it was written. -/
theorem Dev.rdLe_wrLe (d : Dev) (a n v : Nat) (h : d.deadRange a n = false) : (d.wrLe a n v).rdLe a n = v % 256 ^ n := by
  have h' : d.deadRange a (toLe n v).length = false := by simpa using h
  have := Dev.rdBytes_wrBytes d a (toLe n v) h'
  rw [toLe_length] at this
  rw [Dev.rdLe, Dev.wrLe, this, ofLe_toLe]

/-- A zeroed range reads as zero; every other byte is left alone. -/
theorem Dev.rdByte_zero (d : Dev) (a n k : Nat) :
    (d.zero a n).rdByte k = if a ≤ k ∧ k < a + n then 0 else d.rdByte k :=
  tget_terase memDefault d.mem a n k

/-- A read of memory sees memory alone. -/
theorem Dev.rdByte_congr (d e : Dev) (k : Nat) (h : d.mem = e.mem) : d.rdByte k = e.rdByte k := by
  rw [Dev.rdByte, Dev.rdByte, h]

/-- No DEAD channel lies in Spindle storage. -/
theorem channelOf_desk (a : Nat) (h : ctEnd ≤ a) : channelOf a = none := by
  have h1 : ftEnd ≤ ctEnd := by decide
  have h2 : spareEnd ≤ ctEnd := by decide
  have h3 : ctBase ≤ ctEnd := by decide
  unfold channelOf
  rw [if_neg (by omega), if_neg (by omega), if_neg (by omega), if_neg (by omega)]

/-- A write to Spindle storage is always made. -/
theorem Dev.deadRange_desk (d : Dev) (a n : Nat) (h : ctEnd ≤ a) : d.deadRange a n = false := by
  have hs : ∀ s ∈ sectorsOf a n, channelOf s = none := by
    intro s hs
    unfold sectorsOf at hs
    split at hs
    · cases hs
    · simp only [List.mem_map, List.mem_range] at hs
      obtain ⟨k, _, rfl⟩ := hs
      apply channelOf_desk
      have : ctEnd = 64 * (ctEnd / 64) := by decide
      omega
  have hd : (sectorsOf a n).any d.deadAt = false := by
    rw [List.any_eq_false]
    intro s hs'
    simp [Dev.deadAt, Dev.homeOf, extentKey, hs s hs']
  simp [Dev.deadRange, hd]

/-! ## The canonical form -/

/-- A run of writes keeps the canonical form. -/
theorem Memory.wf_memWrite (m : List Host.Cell) (a : Nat) (bs : List (BitVec 8)) (h : Memory.wf m = true) :
    Memory.wf (memWrite m a bs) = true := by
  induction bs generalizing m a with
  | nil => exact h
  | cons b t ih => exact ih _ _ (twf_tset memDefault m a b h)

/-- Reset memory has the canonical form. -/
theorem Memory.wf_reset : Memory.wf State.reset.dev.mem = true := rfl

theorem Dev.wf_wrBytes (d : Dev) (a : Nat) (bs : List (BitVec 8)) (h : Memory.wf d.mem = true) :
    Memory.wf (d.wrBytes a bs).mem = true := by
  refine d.wrBytes_induct a bs (fun e => Memory.wf e.mem = true) h fun e lo b he _ => ?_
  rw [Dev.putBytes_mem]
  exact Memory.wf_memWrite e.mem lo b he

theorem Dev.wf_wrLe (d : Dev) (a n v : Nat) (h : Memory.wf d.mem = true) : Memory.wf (d.wrLe a n v).mem = true :=
  Dev.wf_wrBytes d a _ h

theorem Dev.wf_zero (d : Dev) (a n : Nat) (h : Memory.wf d.mem = true) : Memory.wf (d.zero a n).mem = true :=
  twf_terase memDefault d.mem a n h

theorem Dev.wf_copy (d : Dev) (src dst n : Nat) (h : Memory.wf d.mem = true) : Memory.wf (d.copy src dst n).mem = true :=
  twf_tcopy memDefault d.mem src dst n h

theorem Dev.wf_swap (d : Dev) (a b n : Nat) (h : Memory.wf d.mem = true) : Memory.wf (d.swap a b n).mem = true :=
  twf_foldl_tset memDefault (fun p => p.1 - b + a) _ _
    (twf_foldl_tset memDefault (fun p => p.1 - a + b) _ _
      (twf_terase memDefault _ b n (twf_terase memDefault d.mem a n h)))

/-- Keeping only some entries, as a loss of retention does, keeps the canonical form. -/
theorem Memory.wf_filter (m : List Host.Cell) (f : Host.Cell → Bool) (h : Memory.wf m = true) :
    Memory.wf (m.filter f) = true := twf_filter memDefault f m h

end Sys2Proof.Machine
end

