-- ==== Sys2Proof/Laws/Regs.lean ====
section
/-! SUPPORT. Laws of the register file: what a read gives after a write of the same register, field or another one. -/

namespace Sys2Proof.Machine

/-! ## Bit fields -/

/-- The three parts of a written word, as remainder and quotient of the field's place. -/
theorem setBits_eq (v lo w x : Nat) :
    setBits v lo w x = v % 2 ^ lo + 2 ^ lo * (x % 2 ^ w + 2 ^ w * (v / 2 ^ (lo + w))) := by
  unfold setBits
  generalize v / 2 ^ (lo + w) = q
  generalize x % 2 ^ w = y
  have h1 : q * 2 ^ (lo + w) = 2 ^ lo * (2 ^ w * q) := by rw [Nat.pow_add, Nat.mul_comm, Nat.mul_assoc]
  have h2 : y * 2 ^ lo = 2 ^ lo * y := Nat.mul_comm _ _
  rw [Nat.mul_add, h1, h2]
  omega

/-- A field just written reads as the value, cut to its width. -/
@[simp] theorem bitsOf_setBits_same (v lo w x : Nat) : bitsOf (setBits v lo w x) lo w = x % 2 ^ w := by
  have hp : 0 < 2 ^ lo := Nat.two_pow_pos lo
  rw [setBits_eq, bitsOf, Nat.add_mul_div_left _ _ hp, Nat.div_eq_of_lt (Nat.mod_lt _ hp), Nat.zero_add,
    Nat.add_mul_mod_self_left, Nat.mod_mod]

/-- A field depends on the bits up to its top alone. -/
theorem bitsOf_mod (v lo w n : Nat) (h : lo + w ≤ n) : bitsOf (v % 2 ^ n) lo w = bitsOf v lo w := by
  unfold bitsOf
  rw [← Nat.mod_mul_right_div_self, ← Nat.mod_mul_right_div_self, ← Nat.pow_add,
    Nat.mod_mod_of_dvd _ (Nat.pow_dvd_pow 2 h)]

/-- A write of a field leaves the fields below it alone. -/
theorem bitsOf_setBits_below (v lo w x lo' w' : Nat) (h : lo' + w' ≤ lo) :
    bitsOf (setBits v lo w x) lo' w' = bitsOf v lo' w' := by
  rw [← bitsOf_mod _ lo' w' lo h, setBits_eq, Nat.add_mul_mod_self_left, Nat.mod_mod, bitsOf_mod _ lo' w' lo h]

/-- A write of a field leaves the fields above it alone. -/
theorem bitsOf_setBits_above (v lo w x lo' w' : Nat) (h : lo + w ≤ lo') :
    bitsOf (setBits v lo w x) lo' w' = bitsOf v lo' w' := by
  obtain ⟨k, rfl⟩ := Nat.exists_eq_add_of_le h
  have hp : 0 < 2 ^ lo := Nat.two_pow_pos lo
  have hw : 0 < 2 ^ w := Nat.two_pow_pos w
  have hq : setBits v lo w x / 2 ^ (lo + w) = v / 2 ^ (lo + w) := by
    rw [setBits_eq, Nat.pow_add, ← Nat.div_div_eq_div_mul, Nat.add_mul_div_left _ _ hp,
      Nat.div_eq_of_lt (Nat.mod_lt _ hp), Nat.zero_add, Nat.add_mul_div_left _ _ hw,
      Nat.div_eq_of_lt (Nat.mod_lt _ hw), Nat.zero_add]
  unfold bitsOf
  rw [Nat.pow_add 2 (lo + w) k, ← Nat.div_div_eq_div_mul, hq, Nat.div_div_eq_div_mul]

/-- A write of a field inside a word keeps the word in its width. -/
theorem setBits_lt (v lo w x n : Nat) (h : lo + w ≤ n) (hv : v < 2 ^ n) : setBits v lo w x < 2 ^ n := by
  obtain ⟨k, rfl⟩ := Nat.exists_eq_add_of_le h
  have hp : 0 < 2 ^ lo := Nat.two_pow_pos lo
  have hw : 0 < 2 ^ w := Nat.two_pow_pos w
  have h0 : v / 2 ^ (lo + w) < 2 ^ k := by
    rw [Nat.div_lt_iff_lt_mul (Nat.two_pow_pos _), ← Nat.pow_add, Nat.add_comm k]
    exact hv
  rw [setBits_eq]
  generalize v / 2 ^ (lo + w) = q at h0 ⊢
  have h1 : x % 2 ^ w + 2 ^ w * q < 2 ^ (w + k) := by
    have h2 : 2 ^ w * (q + 1) ≤ 2 ^ w * 2 ^ k := Nat.mul_le_mul_left _ h0
    have h3 := Nat.mod_lt x hw
    rw [Nat.mul_add] at h2
    rw [Nat.pow_add]
    omega
  generalize x % 2 ^ w + 2 ^ w * q = y at h1 ⊢
  have h3 : 2 ^ lo * (y + 1) ≤ 2 ^ lo * 2 ^ (w + k) := Nat.mul_le_mul_left _ h1
  have h4 := Nat.mod_lt v hp
  rw [Nat.add_assoc lo, Nat.pow_add 2 lo]
  rw [Nat.mul_add] at h3
  omega

/-! ## Words and fields of registers -/

@[simp] theorem Dev.rdOff_wrOff_same (d : Dev) (off : Nat) (v : BitVec 32) : (d.wrOff off v).rdOff off = v :=
  tget_tset_same resetOf d.regs off v

theorem Dev.rdOff_wrOff_ne (d : Dev) (off n : Nat) (v : BitVec 32) (h : n ≠ off) : (d.wrOff off v).rdOff n = d.rdOff n :=
  tget_tset_ne resetOf d.regs off n v h

/-- A register's value fits its 32 bits. -/
theorem Dev.rd_lt (d : Dev) (r : RegDesc) (i : Nat) : d.rd r i < 2 ^ 32 := (d.rdOff (r.addr i)).isLt

@[simp] theorem Dev.rd_wr_same (d : Dev) (r : RegDesc) (i v : Nat) : (d.wr r i v).rd r i = v % 2 ^ 32 := by
  simp [Dev.rd, Dev.wr]

theorem Dev.rd_wr_ne (d : Dev) (r q : RegDesc) (i j v : Nat) (h : q.addr j ≠ r.addr i) : (d.wr r i v).rd q j = d.rd q j := by
  simp [Dev.rd, Dev.wr, Dev.rdOff_wrOff_ne _ _ _ _ h]

/-- A field just written reads as the value, cut to its width. -/
theorem Dev.get_set_same (d : Dev) (f : Field) (i v : Nat) (h : f.lo + f.width ≤ 32) :
    (d.set f i v).get f i = v % 2 ^ f.width := by
  unfold Dev.get Dev.set
  rw [Dev.rd_wr_same, bitsOf_mod _ _ _ _ h, bitsOf_setBits_same]

/-- A write of a field leaves another field of the same register alone. -/
theorem Dev.get_set_field (d : Dev) (f g : Field) (i v : Nat) (hr : g.reg = f.reg) (hg : g.lo + g.width ≤ 32)
    (h : g.lo + g.width ≤ f.lo ∨ f.lo + f.width ≤ g.lo) : (d.set f i v).get g i = d.get g i := by
  unfold Dev.get Dev.set
  rw [hr, Dev.rd_wr_same, bitsOf_mod _ _ _ _ hg]
  rcases h with h | h
  · exact bitsOf_setBits_below _ _ _ _ _ _ h
  · exact bitsOf_setBits_above _ _ _ _ _ _ h

/-- A write leaves the fields of every other register instance alone. -/
theorem Dev.get_set_ne (d : Dev) (f g : Field) (i j v : Nat) (h : g.reg.addr j ≠ f.reg.addr i) :
    (d.set f i v).get g j = d.get g j := by
  unfold Dev.get Dev.set
  rw [Dev.rd_wr_ne _ _ _ _ _ _ h]

/-- A write of a register leaves the fields of every other register instance alone. -/
theorem Dev.get_wr_ne (d : Dev) (r : RegDesc) (g : Field) (i j v : Nat) (h : g.reg.addr j ≠ r.addr i) :
    (d.wr r i v).get g j = d.get g j := by
  unfold Dev.get
  rw [Dev.rd_wr_ne _ _ _ _ _ _ h]

/-- A field of a register just written whole. -/
theorem Dev.get_wr_same (d : Dev) (g : Field) (i v : Nat) (h : g.lo + g.width ≤ 32) :
    (d.wr g.reg i v).get g i = bitsOf v g.lo g.width := by
  unfold Dev.get
  rw [Dev.rd_wr_same, bitsOf_mod _ _ _ _ h]

/-- A count adds to its counter and stays at its top. -/
theorem Dev.rd_count (d : Dev) (r : RegDesc) (i n : Nat) : (d.count r i n).rd r i = min (d.rd r i + n) 0xFFFFFFFF := by
  unfold Dev.count
  rw [Dev.rd_wr_same, Nat.mod_eq_of_lt]
  omega

/-- A count leaves the fields of every other register instance alone. -/
theorem Dev.get_count_ne (d : Dev) (r : RegDesc) (g : Field) (i j n : Nat) (h : g.reg.addr j ≠ r.addr i) :
    (d.count r i n).get g j = d.get g j := Dev.get_wr_ne _ _ _ _ _ _ h

/-- A write keeps the register file canonical. -/
theorem Dev.wrOff_wf (d : Dev) (off : Nat) (v : BitVec 32) (h : twf resetOf d.regs = true) :
    twf resetOf (d.wrOff off v).regs = true := twf_tset resetOf d.regs off v h

end Sys2Proof.Machine
end

