-- ==== Sys2Proof/Laws/Shared.lean ====
section
/-! SUPPORT. What each shared operation can do, said once: the forms that a command's meaning takes, hardware sets and their
interrupt effects, holds, completions. -/

namespace Sys2Proof.Machine

variable (s : State) (d : Dev)

/-! ### The forms of a meaning -/

@[simp] theorem State.onDev_eq (f : Dev → Dev) : s.onDev f = .next { s with dev := f s.dev } := rfl

theorem State.onDoor_eq (fn : Nat) (f : Dev → Dev) :
    s.onDoor fn f = .next { s with dev := if s.dev.windowServed fn QUE_TAIL.base then f s.dev else s.dev } := rfl

theorem State.onUnit_eq (n k : Nat) (f : Dev → Dev) (h : k < n) : s.onUnit n k f = .next { s with dev := f s.dev } := by
  simp [State.onUnit, h]

theorem State.onUnit_absent (n k : Nat) (f : Dev → Dev) (h : n ≤ k) : s.onUnit n k f = .next s := by
  have : ¬ k < n := by omega
  simp [State.onUnit, this]

/-- A host write of a row of its own, where the access is served. -/
theorem State.onHost_served (fn : Nat) (r : RegDesc) (f : Dev → Dev) (h : s.dev.windowServed fn r.base = true) :
    ∃ t, s.onHost fn r f = .next t ∧ t.pending = s.pending ∧ t.dev = f s.dev :=
  ⟨_, rfl, rfl, by simp [h]⟩

/-- The same where it is not served: the device stays as it is. -/
theorem State.onHost_unserved (fn : Nat) (r : RegDesc) (f : Dev → Dev) (h : s.dev.windowServed fn r.base = false) :
    ∃ t, s.onHost fn r f = .next t ∧ t.pending = s.pending ∧ t.dev = s.dev :=
  ⟨_, rfl, rfl, by simp [h]⟩

theorem State.onHostUnit_absent (fn : Nat) (r : RegDesc) (n k : Nat) (f : Dev → Dev) (h : n ≤ k) :
    ∃ t, s.onHostUnit fn r n k f = .next t ∧ t.pending = s.pending ∧ t.dev = s.dev := by
  have hk : ¬ k < n := by omega
  exact ⟨_, rfl, rfl, by simp [hk]⟩

/-! ### Interrupts and hardware sets -/

/-- A message is sent or held: nothing but what was sent and the interrupt state changes. -/
theorem Dev.msix_kept (fn vec : Nat) : ∃ o q, d.msix fn vec = { d with out := o, irq := q } := by
  unfold Dev.msix
  split
  · exact ⟨_, d.irq, rfl⟩
  · exact ⟨d.out, _, rfl⟩

theorem Dev.summary_kept (a b : RegDesc) (i g fn vec : Nat) :
    ∃ x o q, d.summary a b i g fn vec = { d with regs := x, out := o, irq := q } := by
  unfold Dev.summary
  dsimp only
  split
  · exact ⟨_, d.out, d.irq, rfl⟩
  · obtain ⟨o, q, h⟩ := Dev.msix_kept (d.wr a i (d.rd a i ||| 2 ^ g)) fn vec
    exact ⟨_, o, q, h⟩

theorem Dev.notify_kept (k g : Nat) : ∃ x o q, d.notify k g = { d with regs := x, out := o, irq := q } := by
  unfold Dev.notify
  dsimp only
  obtain ⟨x, o, q, h⟩ := d.summary_kept INT_STATUS INT_MASK k g 0 k
  rw [h]
  split
  · exact ⟨x, o, q, rfl⟩
  · obtain ⟨x', o', q', h'⟩ := Dev.summary_kept { d with regs := x, out := o, irq := q } INT_VSTATUS INT_VMASK (k - 1) g k 0
    exact ⟨x', o', q', h'⟩

/-- A hardware set of status bits changes registers, messages sent and the interrupt state, and nothing else. -/
theorem Dev.raiseBits_kept (f : Field) (i v : Nat) :
    ∃ x o q, d.raiseBits f i v = { d with regs := x, out := o, irq := q } := by
  unfold Dev.raiseBits
  dsimp only
  split
  · exact ⟨_, d.out, d.irq, rfl⟩
  · obtain ⟨x, o, q, h⟩ := Dev.notify_kept (d.set f i (d.get f i ||| v)) _ _
    exact ⟨x, o, q, h⟩

theorem Dev.raise_kept (f : Field) (i : Nat) : ∃ x o q, d.raise f i = { d with regs := x, out := o, irq := q } :=
  d.raiseBits_kept f i 1

@[simp] theorem Dev.raise_mem (f : Field) (i : Nat) : (d.raise f i).mem = d.mem := by
  obtain ⟨x, o, q, h⟩ := d.raise_kept f i
  rw [h]
@[simp] theorem Dev.raise_que (f : Field) (i : Nat) : (d.raise f i).que = d.que := by
  obtain ⟨x, o, q, h⟩ := d.raise_kept f i
  rw [h]
@[simp] theorem Dev.raise_spx (f : Field) (i : Nat) : (d.raise f i).spx = d.spx := by
  obtain ⟨x, o, q, h⟩ := d.raise_kept f i
  rw [h]
@[simp] theorem Dev.raise_flt (f : Field) (i : Nat) : (d.raise f i).flt = d.flt := by
  obtain ⟨x, o, q, h⟩ := d.raise_kept f i
  rw [h]

/-! ### Charges -/

/-- A charge changes a regulator's balance alone: its register, and the balance that the tiers keep (R322). -/
theorem Dev.charge_kept (room : Option Nat) (a n : Nat) :
    ∃ x m, d.charge room a n = { d with regs := x, memx := m } := by
  unfold Dev.charge
  split
  · exact ⟨_, _, rfl⟩
  · exact ⟨d.regs, d.memx, rfl⟩

@[simp] theorem Dev.charge_mem (room : Option Nat) (a n : Nat) : (d.charge room a n).mem = d.mem := by
  obtain ⟨x, m, h⟩ := d.charge_kept room a n
  rw [h]
@[simp] theorem Dev.charge_que (room : Option Nat) (a n : Nat) : (d.charge room a n).que = d.que := by
  obtain ⟨x, m, h⟩ := d.charge_kept room a n
  rw [h]
@[simp] theorem Dev.charge_spx (room : Option Nat) (a n : Nat) : (d.charge room a n).spx = d.spx := by
  obtain ⟨x, m, h⟩ := d.charge_kept room a n
  rw [h]

/-! ### Holds and completions -/

/-- A hold changes registers, messages sent and the interrupt state alone. -/
theorem Dev.hold_kept (r cause : Nat) : ∃ x o q, d.hold r cause = { d with regs := x, out := o, irq := q } := by
  unfold Dev.hold
  dsimp only
  split
  · exact ⟨_, d.out, d.irq, rfl⟩
  · obtain ⟨x, o, q, h⟩ := Dev.raise_kept ((d.set ROOM_STATUS.STATE r stHeld).set ROOM_STATUS.HOLD_CAUSE r cause)
      ROOM_STATUS.HELD_EV r
    exact ⟨x, o, q, h⟩

/-- A completed command leaves the queue engine; whatever else is fetched stays. -/
theorem Dev.complete_cmds (c : Cmd) (status detail : Nat) :
    (d.complete c status detail).que.cmds = d.que.cmds.filter fun x => x.id != c.id := by
  have hm : ∀ (e : Dev) (fn vec : Nat), (e.msix fn vec).que = e.que := fun e fn vec => by
    obtain ⟨o, q, h⟩ := e.msix_kept fn vec
    rw [h]
  simp only [Dev.complete, Dev.count_que, Dev.dropCmd]
  split <;> split <;> try simp only [hm]
  all_goals first | rfl | (split <;> simp [Dev.send])

end Sys2Proof.Machine
end

