-- ==== Sys2Proof/Tests/Slice0.lean ====
section
/-! SUPPORT. Tests: ill-formed commands are refused, and for every statement of the obligations that has hypotheses a concrete
state and operands meet the hypotheses of each of its clauses. -/

namespace Sys2Proof.Tests

set_option Elab.async false

open Sys2Proof Sys2Proof.Machine

/-! ## Small states -/

/-- The device right after READY with its sixteen virtual functions. -/
def rdy : Dev := { Dev.reset with boot := { BootSt.init with stage := .ready, numVfs := 16 } }

/-- A state of a device, with nothing waiting. -/
def st (d : Dev) : State := { State.reset with dev := d }

/-- A device with fields set. -/
def sets (d : Dev) (l : List (Field × Nat × Nat)) : Dev := l.foldl (fun e x => e.set x.1 x.2.1 x.2.2) d

/-- A device with registers written. -/
def wrs (d : Dev) (l : List (RegDesc × Nat × Nat)) : Dev := l.foldl (fun e x => e.wr x.1 x.2.1 x.2.2) d

/-- The command answers a next state whose device meets a test. -/
def after (c : Instr) (s : State) (p : Dev → Bool) : Bool :=
  match exec c s with
  | .next t => p t.dev
  | _ => false

/-- Room 15 LOADED with Bench 0, its Spindles 0 to 3 active and bound. -/
def loaded : Dev :=
  (sets rdy ((ROOM_STATUS.STATE, 15, 2) :: [0, 1, 2, 3].flatMap fun i =>
    [(SPX_STATE.STATE, i, 0), (SPX_STATE.BOUND, i, 1), (SPX_STATE.ROOM, i, 15), (SPX_STATE.LPOS, i, i)])).setRoom 15
    { RoomSt.init with benches := [0], nVariants := 1 }

/-- Bytes written to memory. -/
def mem (d : Dev) (a : Nat) (bs : List (BitVec 8)) : Dev := { d with mem := memWrite d.mem a bs }

/-- The same Room in a Lesson that admits every level, with queue 16383 bound to it at level 2. -/
def lessoned : Dev :=
  (sets loaded [(QUE_CTL.BOUND, 16383, 1), (QUE_CTL.ROOM, 16383, 15), (QUE_CTL.LEVEL, 16383, 2), (QUE_CTL.ENABLE, 16383, 1),
    (QUE_SIZE.LOG2, 16383, 3)]).setRoom 15
    { loaded.room 15 with lessons := [⟨0, 1000000, 0, false, 0, 0, 0⟩], cur := some 0, entered := true, queues := [16383] }

/-- A fetched command of that queue whose completion goes to host memory. -/
def cmd (id op : Nat) (args : List Nat) : Cmd :=
  ⟨id, 16383, 0, 15, 2, [op, 2048, 0x1000, 0, 0, 0, 0, 0] ++ (args ++ List.replicate 24 0).take 24, .waiting, 0, 0, false, 0, 0, false, [], [], []⟩

def withCmds (d : Dev) (cs : List Cmd) : Dev := { d with que := { d.que with cmds := cs, nextId := 8 } }

/-- An operation of the loader in progress. -/
def withOp (d : Dev) (o : LoadOp) : Dev := { d with que := { d.que with op := some o } }

def room15 (d : Dev) (f : RoomSt → RoomSt) : Dev := d.setRoom 15 (f (d.room 15))

/-! ## The queue and the host -/

theorem witness_QueueFirstInFirstOut : (State.reset.pending = [])
  ∧ (st { rdy with boot := { rdy.boot with stage := .held } }).pending = [] := by
  decide

theorem witness_WindowStaysLawful : State.reset.windowLawful = true ∧
    (match step State.reset with | .next t => t.windowLawful | _ => false) = true := by decide +kernel

theorem witness_RegisterWriteStores :
    (let off := PWR_LIMIT.addr 0
     (st rdy).dev.windowServed 0 off = true ∧ off % 4 = 0 ∧ regAt off = some (PWR_LIMIT, 0) ∧ PWR_LIMIT.half = .single
       ∧ plainReg PWR_LIMIT = true ∧ PWR_LIMIT.addr 0 = off) := by decide +kernel

/-- The device with what the window keeps for a function. -/
def kept (d : Dev) (fn : Nat) (x : FnState) : State := { st d with fns := [(fn, x)] }

theorem witness_HeldLowWord :
    (let off := AGE_CARD_ADDR_LO.addr 0
     (st rdy).dev.windowServed 0 off = true ∧ off % 4 = 0 ∧ heldLow off = true) ∧
    (let off := NUM_MON_BASE_LO.addr 15
     let s := kept rdy 16 ⟨none, some (off, 0xFFFFFFFF)⟩
     s.dev.windowServed 16 (off + 4) = true ∧ off % 4 = 0 ∧ regAt off = some (NUM_MON_BASE_LO, 15)
       ∧ regAt (off + 4) = some (NUM_MON_BASE_HI, 15) ∧ NUM_MON_BASE_LO.half = .low ∧ NUM_MON_BASE_HI.half = .high
       ∧ NUM_MON_BASE_LO.rw ≠ 0 ∧ NUM_MON_BASE_HI.rw ≠ 0 ∧ (s.fnSt 16).held = some (off, 0xFFFFFFFF)
       ∧ plainReg NUM_MON_BASE_LO = true ∧ plainReg NUM_MON_BASE_HI = true
       ∧ s.dev.reach NUM_MON_BASE_LO.vwrite 16 NUM_MON_BASE_LO 15 = true
       ∧ s.dev.reach NUM_MON_BASE_HI.vwrite 16 NUM_MON_BASE_HI 15 = true
       ∧ NUM_MON_BASE_LO.addr 15 = off ∧ NUM_MON_BASE_HI.addr 15 = off + 4) ∧
    (let s := kept rdy 16 ⟨none, some (NUM_MON_BASE_LO.addr 15, 0xFFFFFFFF)⟩
     s.dev.window 16 = true ∧ (s.fnSt 16).held = some (NUM_MON_BASE_LO.addr 15, 0xFFFFFFFF)
       ∧ NUM_MON_BASE_LO.addr 15 + 4 ≠ QUE_BASE_LO.addr 3) ∧
    ((st rdy).dev.window 16 = true) ∧ (resets 0 SYS_RESET.base 0xC9600000 = false) := by
  decide +kernel

theorem witness_SnapshotReads :
    ([TIME_NOW_LO.addr 0, STR_WASTE_BYTES_LO.addr 15].all fun off =>
      let s := kept rdy 16 ⟨some (TIME_NOW_HI.addr 0, 7), none⟩
      decide (off % 4 = 0) && s.dev.isLow 16 off && (s.fnSt 16).lawful && (regAt off).isSome) = true ∧
    (let s := kept rdy 16 ⟨some (TIME_NOW_HI.addr 0, 7), none⟩
     s.dev.window 16 = true ∧ TIME_NOW_HI.addr 0 % 4 = 0 ∧ (s.fnSt 16).snapshot = some (TIME_NOW_HI.addr 0, 7)
       ∧ (s.fnSt 16).lawful = true) ∧
    (let s := kept rdy 16 ⟨some (TIME_NOW_HI.addr 0, 7), none⟩
     regAt (STR_WASTE_BYTES_HI.addr 0) = some (STR_WASTE_BYTES_HI, 0) ∧ STR_WASTE_BYTES_HI.half = .high
       ∧ s.dev.isLow 16 (STR_WASTE_BYTES_HI.addr 0) = false ∧ TIME_NOW_HI.addr 0 ≠ STR_WASTE_BYTES_HI.addr 0) := by
  decide +kernel

theorem witness_RegisterReads :
    ((st rdy).dev.window 16 = true) ∧
    (let off := PWR_STEP_CNT.addr 0
     let s := st (rdy.count PWR_STEP_CNT 0 5)
     s.dev.windowServed 0 off = true ∧ off % 4 = 0 ∧ regAt off = some (PWR_STEP_CNT, 0) ∧ PWR_STEP_CNT.half = .single
       ∧ PWR_STEP_CNT.rc ≠ 0 ∧ PWR_STEP_CNT.addr 0 = off ∧ PWR_STEP_CNT.base ≠ SYS_STATUS.base
       ∧ PWR_STEP_CNT.base ≠ INT_LEVEL.base ∧ (s.fnSt 0).snapshot = none) := by
  decide +kernel

theorem witness_DeskWindow :
    (let a := deskBase 1023
     let s := st rdy
     a % 4 = 0 ∧ inDesk a = true ∧ s.dev.deskServed = true ∧ deskHolds (a % 0x1000000) = true ∧ a ∉ s.dev.poisonW) ∧
    (let a := deskBase 5 + offAcc 0 - 4
     let s := st rdy
     inDesk a = true ∧ s.dev.deskServed = true ∧ [1, 2, 3, (4 : BitVec 8)] ≠ [] ∧ a % 0x1000000 + 4 ≤ offAcc 0
       ∧ s.dev.deskFree (spindleAt a) = true) ∧
    (let a := deskBase 5
     let s := st (sets rdy [(SPX_STATE.BOUND, 5, 1), (SPX_STATE.ROOM, 5, 15), (ROOM_STATUS.STATE, 15, 2)])
     inDesk a = true ∧ s.dev.deskServed = true ∧ [(1 : BitVec 8)] ≠ [] ∧ deskHolds (a % 0x1000000) = true
       ∧ s.dev.deskFree (spindleAt a) = false) := by decide +kernel

/-- A device one of whose summary bits waits behind a mask. -/
def masked : Dev := sets rdy [(INT_STATUS.GROUPS, 16, 2), (INT_MASK.MASK, 16, 3)]

theorem witness_HostMasks :
    ([MEM_FT_SIZE, MEM_FT_BASE_HI].all fun g =>
      let s := st rdy
      s.dev.windowServed 0 (g.addr 15) && (s.fnSt 0).held.isNone && s.dev.roomState 15 == stEmpty
        && (s.dev.storeReg g 15 (64 % 2 ^ 32)).windowOk 15) = true ∧
    ([MEM_FT_SIZE, MEM_CT_BASE_HI].all fun g =>
      let s := st (sets rdy [(ROOM_STATUS.STATE, 15, 2)])
      s.dev.windowServed 0 (g.addr 15) && (s.fnSt 0).held.isNone && s.dev.roomState 15 != stEmpty) = true ∧
    (let s := st rdy
     s.dev.windowServed 0 (MEM_FT_SIZE.addr 15) = true
       ∧ (s.dev.storeReg MEM_FT_SIZE 15 (0xFFFFFFFF % 2 ^ 32)).windowOk 15 = false) ∧
    (st rdy).dev.windowServed 0 (MEM_CT_BASE_LO.addr 15) = true ∧
    (let s := kept rdy 0 ⟨none, some (MEM_CT_BASE_LO.addr 15, 0x200000)⟩
     s.dev.windowServed 0 (MEM_CT_BASE_HI.addr 15) = true ∧ (s.fnSt 0).held = some (MEM_CT_BASE_LO.addr 15, 0x200000)) ∧
    ((st rdy).dev.windowServed 16 (MEM_CT_SIZE.addr 15) = true ∧ (st rdy).dev.windowServed 1 (MEM_CT_SIZE.addr 15) = true) ∧
    windowOff 0 = false ∧
    (let s := st masked
     s.dev.windowServed 0 (INT_MASK.addr 16) = true
       ∧ s.dev.rd INT_MASK 16 &&& (0xFFFFFFFF ^^^ (1 % 2 ^ 32)) &&& s.dev.rd INT_STATUS 16 ≠ 0
       ∧ s.dev.rd INT_MASK 16 &&& (0xFFFFFFFF ^^^ (3 % 2 ^ 32)) &&& s.dev.rd INT_STATUS 16 = 0) ∧
    (let s := st (sets rdy [(INT_VSTATUS.GROUPS, 15, 2), (INT_VMASK.MASK, 15, 3)])
     s.dev.windowServed 0 (INT_VMASK.addr 15) = true ∧ s.dev.windowServed 16 (INT_VMASK.addr 15) = true
       ∧ s.dev.rd INT_VMASK 15 &&& (0xFFFFFFFF ^^^ (1 % 2 ^ 32)) &&& s.dev.rd INT_VSTATUS 15 ≠ 0
       ∧ s.dev.rd INT_VMASK 15 &&& (0xFFFFFFFF ^^^ (3 % 2 ^ 32)) &&& s.dev.rd INT_VSTATUS 15 = 0) ∧
    (let s := st { rdy with irq := ⟨[], [16], [2048 * 16]⟩ }
     s.dev.boot.stage = .ready ∧ s.dev.window 16 = true ∧ 0 < msixSize 16 ∧ 16 ∈ s.dev.irq.openFns
       ∧ 2048 * 16 + 0 ∈ s.dev.irq.held ∧ 15 ∉ s.dev.irq.openFns) ∧
    (State.reset.dev.boot.stage ≠ .ready) := by decide +kernel

/-! ## Yarns and the Note path -/

/-- A word in flight to input port 3 of Spindle 1023, and one in its buffer. -/
def yarned : Dev := (rdy.setYWire 4095 [⟨7, 2, []⟩]).setYBuf 4095 [⟨9, 0, [15]⟩]

theorem witness_YarnWords :
    (1023 : Nat) < 1024 ∧ (3 : Nat) < 4 ∧ (st yarned).dev.yWire (4 * 1023 + 3) = ⟨7, 2, []⟩ :: [] ∧ wordsIn [15, 3] ≠ []
      ∧ (st yarned).dev.yBuf (4 * 1023 + 3) = ⟨9, 0, [15]⟩ :: []
      ∧ (st yarned).dev.yWire (4 * 1023 + 2) = [] ∧ (st yarned).dev.yBuf (4 * 1023 + 2) = [] := by decide +kernel

/-- A request packet of Room 15 from Spindle 1. -/
def pkt (typ dst addr op len : Nat) (payload : List (BitVec 8)) : NotePacket := ⟨typ, 3, 15, len, false, 5, dst, 1, addr, op, payload⟩

theorem witness_NoteInject :
    (let s := st rdy
     let p := pkt ntSignal 0x410 0x1000 0 0 [0, 0, 0, 0]
     (1023 : Nat) < 1024 ∧ s.dev.noteTag 1023 = some 0 ∧ (p.fence = true → s.dev.notesOf 1023 = []) ∧ p.typ ≤ 3
       ∧ ({ p with dst := s.dev.noteDst p.dst }).formatOk = true) := by decide +kernel

/-- Packets in flight. -/
def flight (d : Dev) (ps : List NotePacket) : Dev := { d with net := { d.net with flight := ps } }

def wWrite : Dev := flight loaded [pkt ntWrite 3 0x83FFFC 0 0 [1, 2, 3, 4]]
def wRead : Dev := flight loaded [pkt ntRead 3 0x83FFFC 0 0 []]
def wAtomic : Dev := mem (flight loaded [pkt ntAtomic 3 8 4 0 [5, 0, 0, 0, 9, 0, 0, 0]]) (deskBase 3 + 8) [5]

theorem witness_NoteRequests :
    (let s := st wWrite
     let p := pkt ntWrite 3 0x83FFFC 0 0 [1, 2, 3, 4]
     s.dev.arrives 0 ntWrite = some p ∧ p.dst < 0x400 ∧ s.dev.nackReason p false = 0 ∧ s.dev.nackReason p true = 4) ∧
    (let s := st wRead
     let p := pkt ntRead 3 0x83FFFC 0 0 []
     s.dev.arrives 0 ntRead = some p ∧ p.dst < 0x400 ∧ s.dev.nackReason p false = 0) ∧
    (let s := st wAtomic
     let p := pkt ntAtomic 3 8 4 0 [5, 0, 0, 0, 9, 0, 0, 0]
     s.dev.arrives 0 ntAtomic = some p ∧ p.dst < 0x400 ∧ s.dev.nackReason p false = 0) ∧
    (let s := st (flight loaded [pkt ntWrite 4 0 0 0 [1, 2, 3, 4]])
     let p := pkt ntWrite 4 0 0 0 [1, 2, 3, 4]
     s.dev.arrives 0 ntWrite = some p ∧ p.dst < 0x400 ∧ s.dev.nackReason p false = 1) := by decide +kernel

/-- A held semaphore of Room 15 and the SIGNAL that frees it. -/
def wSignal : Dev := flight (sets loaded [(SEM_STATE.HELD, 4095, 1),
  (SEM_STATE.ROOM, 4095, 15)]) [pkt ntSignal 0x410 0x1FFF 0 0 [0, 0, 0, 0]]

/-- A running command of Room 15 and the SIGNAL that names it. -/
def wRunSignal : Dev := flight
  (withCmds (sets lessoned [(ROOM_RUN.VALID, 15, 1), (ROOM_RUN.QUEUE, 15, 16383)]) [{ cmd 3 0x01 [] with phase := .started }])
  [pkt ntSignal 0x411 16383 0 0 [1, 0, 0, 0]]

/-- A request of Spindle 1 that waits for its answer. -/
def noteReq : NoteReq := ⟨1, 5, 0, none, 0, 0, 4, 8, false, false⟩

/-- The response of a type to it, in flight. -/
def response (typ op : Nat) : NotePacket := ⟨typ, 3, 15, 0, false, 5, 1, 3, 0, op, []⟩

def answered (typ : Nat) (reqs : List NoteReq) : Dev :=
  { loaded with net := { loaded.net with flight := [response typ 1], notes := reqs } }

theorem witness_NoteResponses :
    (let s := st wSignal
     let p := pkt ntSignal 0x410 0x1FFF 0 0 [0, 0, 0, 0]
     s.dev.arrives 0 ntSignal = some p ∧ p.dst = 0x410 ∧ p.addr < 2 ^ 16 ∧ p.addr / 4096 = 1 ∧ p.op = 0 ∧ p.len = 0
       ∧ p.payload = toLe 4 0
       ∧ s.dev.get SEM_STATE.HELD (p.addr % 4096) = 1 ∧ s.dev.get SEM_STATE.ROOM (p.addr % 4096) = p.room
       ∧ s.dev.waiters (p.addr % 4096) = []) ∧
    (let s := st wRunSignal
     let p := pkt ntSignal 0x411 16383 0 0 [1, 0, 0, 0]
     let c := { cmd 3 0x01 [] with phase := .started }
     s.dev.arrives 0 ntSignal = some p ∧ p.dst = 0x411 ∧ p.addr < 2 ^ 30 ∧ s.dev.running p.room = some c
       ∧ p.addr % 2 ^ 14 = c.queue ∧ p.addr / 2 ^ 14 = c.index ∧ (s.dev.room p.room).ending = none
       ∧ s.dev.get QUE_CTL.ROOM c.queue = p.room ∧ p.op = 0 ∧ p.len = 0 ∧ p.payload.length = 4) ∧
    ([ntAck, ntReadResp, ntAtomicResp].all fun t => (st (answered t [noteReq])).dev.arrives 0 t == some (response t 1)
      && (st (answered t [noteReq])).dev.answered? (response t 1) == some noteReq
      && (st (answered t [])).dev.arrives 0 t == some (response t 1)
      && (st (answered t [])).dev.answered? (response t 1) == none) = true ∧
    noteReq.stream = none ∧ noteReq.stale = false ∧
    (let s := st (answered ntNack [noteReq])
     s.dev.arrives 0 ntNack = some (response ntNack 1) ∧ s.dev.answered? (response ntNack 1) = some noteReq) ∧
    (let s := st ((answered ntAck [noteReq]).wr TIME_NOW_LO 0 10000)
     (1 : Nat) < 1024 ∧ s.dev.net.notes.find? (fun x => x.src == 1 && x.tag == 5) = some noteReq
       ∧ noteReq.time + 10000 ≤ s.dev.now ∧ noteReq.stale = false) := by decide +kernel

/-! ## The loader and the planes -/

/-- A Room 15 with a window that begins at 0, and an image of 4,096 bytes whose length field is right. -/
def imaged : Dev := mem (wrs (sets rdy [(MEM_FT_SIZE.UNITS, 15, 1), (CFG_IMG_SIZE.SIZE, 15, 1)]) []) 0x0C [0, 0x10]

theorem witness_LoadRequest :
    (let s := st imaged
     (15 : Nat) < 16 ∧ s.dev.windowServed 16 CFG_LOAD.base = true ∧ s.dev.loadReqCode 16 15 = 0) ∧
    (let s := st rdy
     s.dev.windowServed 1 CFG_LOAD.base = true ∧ s.dev.loadReqCode 1 15 = 0x0103) ∧
    (let s := st (withOp imaged ⟨.unload, 3, 0, false, 0⟩)
     s.dev.windowServed 0 CFG_LOAD.base = true ∧ s.dev.loadReqCode 0 15 = 0x0101) ∧
    (let s := st { imaged with flt := { imaged.flt with queue := [⟨7, false, false⟩] } }
     s.dev.windowServed 0 CFG_LOAD.base = true ∧ s.dev.loadReqCode 0 15 ≠ 0 ∧ s.dev.que.op = none ∧ s.dev.flt.queue ≠ []) ∧
    (let s := st rdy
     (4 : Nat) ≤ 7 ∧ s.dev.windowServed 16 CFG_LOAD.base = true) := by decide +kernel

/-- Channel 0 retrains (R331). -/
def training (d : Dev) : Dev := { d.set MEM_CHAN_STATE.STATE 0 1 with memx := { d.memx with prior := [(0, 1)] } }

theorem witness_LoadSteps :
    (let o : LoadOp := ⟨.load, 15, 3, false, 0⟩
     let s := st (withOp ((room15 loaded fun x => { x with reads := 65 }).setBal 30 1) o)
     let n := 64 * (((s.dev.bal (2 * o.room)).toNat + 639) / 640)
     s.dev.que.op = some o ∧ o.kind = .load ∧ o.cancel = false ∧ o.room < 16 ∧ n = 64 ∧ n < (s.dev.room o.room).reads) ∧
    (let o : LoadOp := ⟨.load, 15, 3, false, 0⟩
     let s := st (withOp (mem loaded 7 [4]) o)
     s.dev.que.op = some o ∧ o.kind = .load ∧ o.cancel = false ∧ o.room < 16 ∧ s.dev.readsGoOn o.room = false
       ∧ o.step = 3 ∧ 0x0113 = s.dev.step3Code o.room (s.dev.room o.room).imgAddr (s.dev.room o.room).imgSize) ∧
    ([7, 8].all fun k =>
      let o : LoadOp := ⟨.load, 15, k, false, 0⟩
      let s := st (withOp loaded o)
      s.dev.que.op == some o && o.kind == .load && !o.cancel && !s.dev.readsGoOn 15
        && decide ((s.dev.room o.room).initVariant < 8)) = true ∧
    (let o : LoadOp := ⟨.load, 15, 8, false, 0⟩
     let s := st (withOp (training (room15 loaded fun x => { x with imgSize := 4096 })) o)
     s.dev.que.op = some o ∧ o.kind = .load ∧ o.cancel = false ∧ (s.dev.room o.room).reads = 0 ∧ s.dev.readsGoOn o.room = true) ∧
    ([5, 8].all fun k =>
      let o : LoadOp := ⟨.load, 15, k, false, 0⟩
      let s := st (withOp rdy o)
      s.dev.windowServed 16 CFG_LOAD.base && mayAct 16 15 && s.dev.que.op == some o && o.kind == .load && o.room == 15) = true ∧
    (let s := st rdy
     s.dev.windowServed 16 CFG_LOAD.base = true ∧ mayAct 16 15 = true ∧ s.dev.que.op = none) ∧
    (let o : LoadOp := ⟨.load, 15, 6, true, 0⟩
     (st (withOp loaded o)).dev.que.op = some o ∧ o.kind = .load ∧ o.cancel = true) := by decide +kernel

/-- A switch of Room 15 in a phase. -/
def inSwitch (d : Dev) (w : Switch) : Dev := room15 d fun x => { x with switch := some w }

/-- A Room that waits for the switch to variant 1, which stands by. -/
def switching : Dev :=
  mem (room15 (sets lessoned [(CFG_STATUS.STANDBY_VALID, 15, 1), (CFG_STATUS.STANDBY_VAR, 15, 1)]) fun x =>
    { x with switchTo := some 1, nVariants := 2 }) (deskBase 3 + offStandby) [7]

theorem witness_Unloading :
    (let s := st lessoned
     s.dev.windowServed 16 CFG_LOAD.base = true ∧ s.dev.unloadReqCode 16 15 = 0 ∧ s.dev.roomState 15 ≠ stHeld
       ∧ (s.dev.lesson 15).isSome = true) ∧
    (let s := st rdy
     s.dev.windowServed 0 CFG_LOAD.base = true ∧ s.dev.unloadReqCode 0 15 ≠ 0) ∧
    (let s := st (withOp lessoned ⟨.unload, 15, 1, false, 0⟩)
     s.dev.que.op = some ⟨.unload, 15, 1, false, 0⟩ ∧ (s.dev.room 15).switch = none ∧ s.dev.planeGoing 15 = false
       ∧ s.dev.allStopped 15 = true) ∧
    ((st (inSwitch lessoned ⟨.saving, some 3, none, 3, 0, 0, 0, false⟩)).dev.room 15).switch ≠ none ∧
    (st switching).dev.planeGoing 15 = true := by
  decide +kernel

theorem witness_PlaneSwitch :
    (let s := st switching
     (s.dev.room 15).switchTo = some 1 ∧ (s.dev.room 15).switch = none ∧ s.dev.spindlesFree 15 = true
       ∧ s.dev.yarnsEmpty 15 = true ∧ s.dev.get CFG_STATUS.STANDBY_VALID 15 = 1 ∧ s.dev.get CFG_STATUS.STANDBY_VAR 15 = 1
       ∧ s.dev.roomState 15 = stLoaded ∧ s.dev.allStopped 15 = true ∧ Memory.wf s.dev.mem = true
       ∧ (s.dev.roomSpindles 15).Nodup ∧ (s.dev.room 15).due = false ∧ (s.dev.room 15).lateDone = false
       ∧ ∀ i ∈ s.dev.roomSpindles 15, i < 1024) ∧
    (let s := st (switching.setYBuf 3 [⟨0, 0, []⟩])
     (s.dev.room 15).switchTo = some 1 ∧ s.dev.yarnsEmpty 15 = false ∧ (s.dev.room 15).switchFails = false) := by decide +kernel

/-- A Room that preloads variant 7: with no Spindles every check passes, with Spindles the empty image fails them. -/
def preloading (benches : List Nat) (to' : Option Nat) : Dev :=
  room15 lessoned fun x => { x with preload := some 7, benches := benches, switchTo := to' }

theorem witness_PreloadAndDrain :
    (let s := st ((room15 (preloading [] none) fun x => { x with reads := 1 }).setBal 30 (-5))
     (15 : Nat) < 16 ∧ (s.dev.room 15).preload = some 7 ∧ 64 * (((s.dev.bal (2 * 15)).toNat + 639) / 640) < (s.dev.room 15).reads) ∧
    (let s := st (preloading [] none)
     (15 : Nat) < 16 ∧ (7 : Nat) < 8 ∧ (s.dev.room 15).preload = some 7 ∧ s.dev.readsGoOn 15 = false ∧ s.dev.preloadCode 15 7 = 0
       ∧ ∀ i ∈ s.dev.roomSpindles 15, i < 1024) ∧
    (let s := st (preloading [0] none)
     (s.dev.room 15).preload = some 7 ∧ s.dev.readsGoOn 15 = false ∧ s.dev.preloadCode 15 7 ≠ 0
       ∧ (s.dev.room 15).switchTo ≠ some 7) ∧
    (let w : Switch := ⟨.saving, some 3, none, 3, 0, 0, 0, true⟩
     let s := st (inSwitch (preloading [0] (some 7)) w)
     (s.dev.room 15).preload = some 7 ∧ s.dev.readsGoOn 15 = false ∧ s.dev.preloadCode 15 7 ≠ 0
       ∧ (s.dev.room 15).switch = some w ∧ w.phase ≠ .restored) ∧
    (let w : Switch := ⟨.restored, some 3, none, 3, 0, 0, 0, true⟩
     [preloading [0] (some 7), inSwitch (preloading [0] (some 7)) w].all fun d =>
       let s := st d
       (s.dev.room 15).preload == some 7 && !s.dev.readsGoOn 15 && s.dev.preloadCode 15 7 != 0
         && (s.dev.room 15).switchTo == some 7
         && (match (s.dev.room 15).switch with
             | some w => w.phase == .restored
             | none => true)) = true ∧
    (let s := st (switching.setYBuf 3 [⟨0, 0, []⟩])
     (s.dev.room 15).switchTo.isSome = true ∧ s.dev.yarnsEmpty 15 = false) := by decide +kernel

theorem witness_RoomHolds :
    (let s := st lessoned
     s.dev.windowServed 16 ROOM_CTL.base = true ∧ mayAct 16 15 = true ∧ s.dev.roomState 15 = stLoaded ∧ s.dev.spindlesFree 15 = true
       ∧ (s.dev.room 15).switch = none ∧ (s.dev.room 15).holdReq ≤ 1) ∧
    (let s := st rdy
     s.dev.windowServed 0 ROOM_CTL.base = true ∧ mayAct 0 15 = true ∧ s.dev.roomState 15 ≠ stLoaded) ∧
    (let s := st (sets lessoned [(ROOM_STATUS.STATE, 15, 3), (ROOM_STATUS.HOLD_CAUSE, 15, 1), (ROOM_CTL.HOLD, 15, 1)])
     s.dev.windowServed 16 ROOM_CTL.base = true ∧ mayAct 16 15 = true ∧ s.dev.roomState 15 = stHeld
       ∧ s.dev.get ROOM_STATUS.HOLD_CAUSE 15 = 1) := by decide +kernel

/-- A started Timetable in whose first nanosecond the Room's only Lesson begins. -/
def timed : Dev :=
  room15 { (wrs lessoned [(TT_ROUND, 0, 1000000)]) with bell := { BellSt.init with started := true } } fun x => { x with cur := none }

theorem witness_LessonBoundary :
    (let s := st timed
     s.dev.coverNow 15 = some 0 ∧ (s.dev.room 15).cur = none ∧ (s.dev.room 15).lessons[0]? = some ⟨0, 1000000, 0, false, 0, 0, 0⟩
       ∧ s.dev.roomState 15 = stLoaded ∧ s.dev.idle 15 = true ∧ (s.dev.room 15).suspended = false
       ∧ (s.dev.room 15).switch = none ∧ (s.dev.room 15).unloadReq = false ∧ (s.dev.room 15).holdReq = 0
       ∧ (s.dev.room 15).variantOf ⟨0, 1000000, 0, false, 0, 0, 0⟩ = s.dev.get CFG_STATUS.ACTIVE_VAR 15) := by decide +kernel

/-- Room 15 runs command 3 while command 4 waits. -/
def running : Dev :=
  sets ((withCmds lessoned [{ cmd 3 1 [] with phase := .started }, cmd 4 1 []]).wr ROOM_RUN 15 (16383 + 2 ^ 14 * 2 + 2 ^ 16))
    ([0, 1, 2, 3].map fun i => (SPX_VX_STAT.RUNNING, i, 1))

def stopped : Dev := sets running ([0, 1, 2, 3].map fun i => (SPX_VX_STAT.STOPPED, i, 1))

theorem witness_SwitchSteps :
    (let w : Switch := ⟨.stopping, some 3, none, 0, 0, 0, 0, false⟩
     let s := st (inSwitch stopped w)
     (s.dev.room 15).switch = some w ∧ w.phase = .stopping ∧ s.dev.allStopped 15 = true ∧ s.dev.yarnsEmpty 15 = true
       ∧ (s.dev.room 15).trap = 0) ∧
    (let w : Switch := ⟨.saving, some 3, none, 3, 0, 0, 0, false⟩
     let s := st (inSwitch stopped w)
     let c : Cmd := { cmd 3 1 [] with phase := .started }
     (s.dev.room 15).switch = some w ∧ w.phase = .saving ∧ (∀ i ∈ s.dev.roomSpindles 15, s.dev.get STR_STAT.QUIESCING i = 0)
       ∧ w.outgoing = some c.id ∧ s.dev.cmd? c.id = some c ∧ ∀ i ∈ s.dev.roomSpindles 15, i < 1024) ∧
    (let w : Switch := ⟨.restoring, none, some 4, 3, 0, 0, 0, false⟩
     let s := st (inSwitch (withCmds lessoned [cmd 4 1 []]) w)
     let c := cmd 4 1 []
     (s.dev.room 15).switch = some w ∧ w.phase = .restoring ∧ w.incoming = some c.id ∧ s.dev.cmd? c.id = some c
       ∧ c.phase = .waiting ∧ c.room = 15 ∧ (s.dev.room 15).switchTo = none ∧ (s.dev.room 15).unloadReq = false
       ∧ (s.dev.room 15).holdReq = 0 ∧ (s.dev.room 15).due = false ∧ switchNs w.sSave w.sRestore < 2 ^ 32
         ∧ ∀ i ∈ s.dev.roomSpindles 15, i < 1024) ∧
    (let w : Switch := ⟨.restoring, none, some 4, 2, 0, 0, 0, false⟩
     let c : Cmd := { cmd 4 1 [] with phase := .saved, slot := 2 }
     let d := inSwitch (withCmds (sets lessoned [(CFG_SAVE_REQ.UNITS, 15, 2), (ROOM_SAVE_SIZE.UNITS, 15, 6)]) [c]) w
     let s := st { d with poison := [4 * 65536] }
     (s.dev.room 15).switch = some w ∧ w.incoming = some c.id ∧ s.dev.cmd? c.id = some c ∧ c.phase = .saved ∧ c.slot < 3
       ∧ s.dev.slotPoisoned 15 c.slot = true) := by decide +kernel

/-! ## Queues, commands and semaphores -/

theorem witness_Doorbell :
    (let s := st lessoned
     (16383 : Nat) < 16384 ∧ (7 : Nat) < 65536 ∧ s.dev.windowServed 16 QUE_TAIL.base = true
       ∧ s.dev.get QUE_CTL.BOUND 16383 = 1 ∧ s.dev.reachesQueue 16 16383 = true ∧ s.dev.get QUE_CTL.ENABLE 16383 = 1
       ∧ 7 < 2 ^ s.dev.get QUE_SIZE.LOG2 16383 ∧ 2 ^ s.dev.get QUE_SIZE.LOG2 16383 ≤ 8
       ∧ s.dev.windowServed 16 QUE_STAT.base = true) ∧
    (let s := st rdy
     s.dev.windowServed 1 QUE_TAIL.base = true ∧ s.dev.get QUE_CTL.BOUND 0 = 0) ∧
    (let s := st (sets lessoned [(QUE_CTL.ENABLE, 16383, 0)])
     s.dev.reachesQueue 16 16383 = true ∧ s.dev.get QUE_CTL.ENABLE 16383 = 0) := by decide +kernel

/-- A packet waits at the last place of the ring of queue 16383, which lies at 0x10000 in device memory. -/
def packeted (op : BitVec 8) : Dev :=
  mem (wrs (sets lessoned [(QUE_HEAD.HEAD, 16383, 7),
    (QUE_CTL.LOC, 16383, 0)]) [(QUE_BASE_LO, 16383, 0x10000)]) (0x10000 + 7 * 128) [op, 0, 0, 0, 0, 8]

theorem witness_PacketFetch :
    (let s := st (packeted 0)
     s.dev.nextFetch 4 0 = some 16383 ∧ s.dev.get QUE_SIZE.LOG2 16383 ≤ 16 ∧ (∀ c ∈ s.dev.que.cmds, c.phase ≠ .semWait)
       ∧ packetCode (s.dev.packetAt 16383 []) = 0 ∧ badVector (s.dev.packetAt 16383 []) = false) ∧
    (let s := st (packeted 0x7F)
     s.dev.nextFetch 4 0 = some 16383 ∧ packetCode (s.dev.packetAt 16383 []) = 1) ∧
    (let s := st (sets (packeted 1) [(QUE_CTL.LEVEL, 16383, 0)])
     s.dev.nextFetch 4 0 = some 16383 ∧ packetCode (s.dev.packetAt 16383 []) = 0 ∧ badVector (s.dev.packetAt 16383 []) = false
       ∧ bitsOf (nth 0 (s.dev.packetAt 16383 []) 0) 0 8 = 1 ∧ s.dev.effLevel 16383 0 = 0) := by decide +kernel

theorem witness_RunStarts :
    (let s := st (withCmds lessoned [cmd 4 1 []])
     (s.dev.room 15).switch = none ∧ (s.dev.room 15).switchTo = none ∧ (s.dev.room 15).next = none
       ∧ s.dev.spindlesFree 15 = true ∧ s.dev.allStopped 15 = true ∧ s.dev.pickRun 15 4 0 = some (cmd 4 1 [])
       ∧ (cmd 4 1 []).phase ≠ .saved) ∧
    (let c : Cmd := { cmd 4 1 [] with phase := .saved, slot := 2 }
     let s := st (withCmds lessoned [c])
     (s.dev.room 15).next = none ∧ (s.dev.room 15).switch = none ∧ (s.dev.room 15).switchTo = none ∧ s.dev.spindlesFree 15 = true
       ∧ s.dev.allStopped 15 = true ∧ s.dev.pickRun 15 4 0 = some c ∧ c.phase = .saved) ∧
    (let s := st (room15 (withCmds lessoned [cmd 4 1 [0, 5]]) fun x => { x with next := some 4 })
     let c := cmd 4 1 [0, 5]
     (s.dev.room 15).next = some c.id ∧ s.dev.cmd? c.id = some c ∧ c.room = 15
       ∧ (s.dev.setRoom 15 { s.dev.room 15 with next := none }).ready c = true ∧ s.dev.spindlesFree 15 = true
       ∧ (s.dev.room 15).switch = none ∧ (s.dev.room 15).switchTo = none ∧ c.words.length = 32
       ∧ s.dev.memx.dead = [] ∧ ∀ i ∈ s.dev.roomSpindles 15, i < 1024) := by decide +kernel

/-- A command whose record goes to device memory at 0x1000, within the window of Room 15, with a message of vector 111. -/
def inDevice (c : Cmd) : Cmd := { c with words := setNth 0x100 (setNth 111 c.words 1) 0 }

def windowed : Dev := sets lessoned [(MEM_FT_SIZE.UNITS, 15, 1)]

theorem witness_CommandsComplete :
    (let s := st (withCmds lessoned [cmd 4 0 []])
     s.dev.starts 4 0 = some (cmd 4 0 []) ∧ (cmd 4 0 []).queue < 16384 ∧ (cmd 4 0 []).room < 16 ∧ (cmd 4 0 []).cplHost = true) ∧
    (let c := inDevice (cmd 4 0 [])
     let d := withCmds windowed [c]
     let s := st { d with irq := ⟨[2048 * 16 + 111], [16], []⟩ }
     s.dev.starts 4 0 = some c ∧ c.cplHost = false ∧ inside (s.dev.ftWin c.room) c.cplAddr 16 = true
       ∧ s.dev.deadRange c.cplAddr 16 = false ∧ c.irq = true ∧ s.dev.irq.openFns.contains (1 + c.room) = true
       ∧ s.dev.irq.openVecs.contains (2048 * (1 + c.room) + c.vector) = true) ∧
    (let s := st (withCmds lessoned [cmd 4 4 [100]])
     s.dev.starts 4 4 = some (cmd 4 4 [100])) ∧
    (let c : Cmd := { cmd 4 4 [100] with phase := .timeWait, deadline := 100 }
     let s := st (withCmds (lessoned.wr TIME_NOW_LO 0 100) [c])
     s.dev.cmd? 4 = some c ∧ c.opcode = 4 ∧ c.phase = .timeWait ∧ c.deadline ≤ s.dev.now) ∧
    (let c : Cmd := { cmd 4 4 [100] with phase := .timeWait, deadline := 100 }
     let s := st (withCmds lessoned [c])
     s.dev.cmd? 4 = some c ∧ s.dev.now < c.deadline) := by decide +kernel

/-- Semaphore 4095, that Room 15 may take; held by Room 15 or by Room 3 through queue 1. -/
def semFor (room : Option Nat) : Dev :=
  sets lessoned ((SEM_ACL.ROOMS, 4095, 2 ^ 15) :: match room with
    | some r => [(SEM_STATE.HELD, 4095, 1), (SEM_STATE.ROOM, 4095, r), (SEM_OWNER.QUEUE, 4095, 1)]
    | none => [])

theorem witness_Semaphores :
    (let c := cmd 4 2 [4095]
     let s := st (withCmds (semFor none) [c])
     s.dev.starts 4 2 = some c ∧ c.arg 0 < 4096 ∧ c.queue < 16384 ∧ c.level < 4 ∧ c.room < 16
       ∧ bitAt (s.dev.get SEM_ACL.ROOMS (c.arg 0)) c.room = true ∧ s.dev.get SEM_STATE.HELD (c.arg 0) = 0) ∧
    (let c := cmd 4 2 [4095]
     let s := st (withCmds lessoned [c])
     s.dev.starts 4 2 = some c ∧ bitAt (s.dev.get SEM_ACL.ROOMS (c.arg 0)) c.room = false) ∧
    (let c := cmd 4 2 [4095, 9]
     let s := st (withCmds (semFor (some 3)) [c])
     s.dev.starts 4 2 = some c ∧ c.arg 0 < 4096 ∧ bitAt (s.dev.get SEM_ACL.ROOMS (c.arg 0)) c.room = true
       ∧ s.dev.get SEM_STATE.HELD (c.arg 0) = 1 ∧ ∀ x ∈ s.dev.que.cmds, x.queue ≠ s.dev.get SEM_OWNER.QUEUE (c.arg 0)) ∧
    (let c := cmd 4 2 [4095, 9]
     let x : Cmd := { cmd 5 1 [] with queue := 1, level := 3 }
     let s := st (withCmds (semFor (some 3)) [c, x])
     s.dev.starts 4 2 = some c ∧ c.raised = false ∧ bitAt (s.dev.get SEM_ACL.ROOMS (c.arg 0)) c.room = true
       ∧ s.dev.get SEM_STATE.HELD (c.arg 0) = 1 ∧ x ∈ s.dev.que.cmds ∧ x.id ≠ c.id
       ∧ x.queue = s.dev.get SEM_OWNER.QUEUE (c.arg 0) ∧ x.phase = .waiting ∧ c.level < x.level) ∧
    (let c := cmd 4 3 [4095]
     let w : Cmd := { cmd 5 2 [4095] with phase := .semWait }
     let s := st (withCmds (semFor (some 15)) [c, w])
     s.dev.starts 4 3 = some c ∧ s.dev.get SEM_STATE.HELD (c.arg 0) = 1 ∧ s.dev.get SEM_STATE.ROOM (c.arg 0) = c.room
       ∧ (∀ x ∈ s.dev.que.cmds, x.id = c.id → x = c) ∧ s.dev.nextWaiter (c.arg 0) = some w ∧ w.room < 16) ∧
    (let c := cmd 4 3 [4095]
     let s := st (withCmds (semFor (some 15)) [c])
     s.dev.starts 4 3 = some c ∧ c.arg 0 < 4096 ∧ s.dev.get SEM_STATE.HELD (c.arg 0) = 1
       ∧ s.dev.get SEM_STATE.ROOM (c.arg 0) = c.room ∧ s.dev.waiters (c.arg 0) = []) ∧
    (let c := cmd 4 3 [4095]
     let s := st (withCmds (semFor (some 3)) [c])
     s.dev.starts 4 3 = some c ∧ ¬(s.dev.get SEM_STATE.HELD (c.arg 0) = 1 ∧ s.dev.get SEM_STATE.ROOM (c.arg 0) = c.room)) ∧
    (let c : Cmd := { cmd 4 2 [4095, 9] with phase := .semWait, deadline := 9000 }
     let s := st (withCmds ((semFor (some 3)).wr TIME_NOW_LO 0 9000) [c])
     s.dev.cmd? 4 = some c ∧ c.phase = .semWait ∧ c.deadline ≠ 0 ∧ c.deadline ≤ s.dev.now) ∧
    (let c : Cmd := { cmd 4 2 [4095] with phase := .semWait, raised := true }
     let x : Raise := ⟨4095, 1, 2, 4, 3, 50, false⟩
     let d := withCmds ((semFor (some 3)).wr TIME_NOW_LO 0 50) [c]
     let s := st { d with que := { d.que with raises := [x] } }
     s.dev.que.raises = [x] ∧ x.sem = 4095 ∧ x.limit ≤ s.dev.now ∧ s.dev.get SEM_STATE.HELD 4095 = 1
       ∧ s.dev.get SEM_OWNER.QUEUE 4095 = x.queue ∧ s.dev.cmd? x.waiter = some c ∧ c.phase = .semWait) ∧
    (let s := st (semFor (some 3))
     s.dev.windowServed 0 SEM_STATE.base = true ∧ s.dev.get SEM_STATE.HELD 4095 = 1 ∧ s.dev.waiters 4095 = []) := by
  decide +kernel

/-! ## The Timetable and the Bell -/

/-- A started Timetable with the Bell on BELL_IN, TIME_NOW at `t`, the boundary nominally at 1,000,000 with a window of 1,000. -/
def belled (t miss : Nat) : Dev :=
  { sets (wrs rdy [(TT_ROUND, 0, 1000000), (TIME_NOW_LO, 0, t)]) [(TT_CTL.BELL_SRC, 0, 1), (TT_BELL_STAT.MISS_RUN, 0, miss)] with
    bell := { BellSt.init with started := true, win := 1000 } }

/-- The same in free-run, the window of the last boundary still open or not. -/
def freeRun (t : Nat) (trail : Bool) : Dev :=
  let d := (belled t 3).set TT_BELL_STAT.FREE_RUN 0 1
  { d with bell := { d.bell with trail := trail } }

theorem witness_TimetableEvents :
    (let s := st { belled 1000000 0 with bell := { (belled 0 0).bell with place := some 999999 } }
     s.dev.roundDue = some 999999 ∧ (∀ c ∈ s.dev.que.cmds, c.room < 16 ∧ c.queue < 16384)
       ∧ ∀ r, r < 16 → (s.dev.room r).cur = none) ∧
    (let s := st (belled 1001000 0)
     s.dev.get TT_CTL.BELL_SRC 0 = 1 ∧ (20 : Nat) ≤ 20 ∧ s.dev.awake = true ∧ s.dev.rd TT_ROUND 0 ≠ 0 ∧ s.dev.bell.due = none
       ∧ s.dev.bell.started = true ∧ s.dev.get TT_BELL_STAT.FREE_RUN 0 = 0 ∧ s.dev.nominal ≤ s.dev.now + s.dev.bell.win
       ∧ s.dev.now ≤ s.dev.nominal + s.dev.bell.win) ∧
    (let s := st (belled 1001001 0)
     s.dev.nominal + s.dev.bell.win < s.dev.now ∧ s.dev.bell.started = true ∧ s.dev.awake = true) ∧
    (let s := st (belled 1001000 2)
     s.dev.awake = true ∧ s.dev.noBell = false ∧ s.dev.bell.started = true ∧ s.dev.get TT_BELL_STAT.FREE_RUN 0 = 0
       ∧ s.dev.bell.due = none ∧ s.dev.nominal + s.dev.bell.win ≤ s.dev.now ∧ 2 ≤ s.dev.get TT_BELL_STAT.MISS_RUN 0) ∧
    (let s := st (belled 1001000 1)
     s.dev.noBell = false ∧ s.dev.get TT_BELL_STAT.MISS_RUN 0 < 2) ∧
    (let s := st (freeRun 1000000 false)
     s.dev.get TT_CTL.BELL_SRC 0 = 1 ∧ s.dev.awake = true ∧ s.dev.rd TT_ROUND 0 ≠ 0 ∧ s.dev.bell.due = none
       ∧ s.dev.bell.started = true ∧ s.dev.get TT_BELL_STAT.FREE_RUN 0 = 1 ∧ s.dev.nominal ≤ s.dev.now + s.dev.bell.win
       ∧ s.dev.now ≤ s.dev.nominal) ∧
    (let s := st (freeRun 1000 true)
     s.dev.get TT_CTL.BELL_SRC 0 = 1 ∧ s.dev.awake = true ∧ s.dev.rd TT_ROUND 0 ≠ 0 ∧ s.dev.bell.due = none
       ∧ s.dev.bell.started = true ∧ s.dev.get TT_BELL_STAT.FREE_RUN 0 = 1 ∧ s.dev.bell.trail = true
       ∧ s.dev.now ≤ s.dev.roundStart + s.dev.bell.win ∧ s.dev.noBell = false
       ∧ s.dev.roundStart + s.dev.bell.win ≤ s.dev.now) := by decide +kernel

/-! ## The vector engine -/

/-- An instruction word, field by field (Table 08-2). -/
def vins (op lanes dst sa sb sc fmt aux cond : Nat) : List (BitVec 8) :=
  toLe 16 (op + lanes * 2 ^ 8 + dst * 2 ^ 32 + sa * 2 ^ 42 + sb * 2 ^ 52 + sc * 2 ^ 64 + fmt * 2 ^ 74 + aux * 2 ^ 80 + cond * 2 ^ 112)

/-- Spindle 3 of the running Room stands at an instruction in slot 64. -/
def atIns (d : Dev) (bs : List (BitVec 8)) : Dev := mem (d.set SPX_VX_STAT.IP 3 64) (deskBase 3 + offActive + 0x3400) bs

def standing (op lanes dst sa sb sc fmt aux cond : Nat) : Dev := atIns running (vins op lanes dst sa sb sc fmt aux cond)

/-- The Spindle with loops open, or asked to stop. -/
def looped (d : Dev) (ls : List LoopSt) (q : StopReq) : Dev := d.setSp 3 { d.sp 3 with loops := ls, stopReq := q }

theorem witness_SequencerFlow :
    (st (standing 0 0 0 0 0 0 0 0 0)).dev.canIssue 3 0 = true ∧
    (let s := st (standing 1 0 0 0 0 0 0 0 0)
     s.dev.canIssue 3 1 = true ∧ s.dev.spindleRoom 3 = some 15 ∧ (s.dev.room 15).trap = 0 ∧ (s.dev.room 15).holdReq = 0) ∧
    (let s := st (looped (standing 2 0 0 0 0 0 0 65535 0) (List.replicate 5 ⟨60, 2, 0⟩) .none)
     s.dev.canIssue 3 2 = true ∧ (s.dev.sp 3).loops.length < 6) ∧
    (let s := st (looped (standing 3 0 0 0 0 0 0 0 0) [⟨60, 2, 0⟩] .none)
     s.dev.canIssue 3 3 = true ∧ (s.dev.sp 3).loops.getLast? = some ⟨60, 2, 0⟩) ∧
    (let s := st (looped (standing 3 0 0 0 0 0 0 0 0) [⟨60, 2, 1⟩] .none)
     s.dev.canIssue 3 3 = true ∧ (s.dev.sp 3).loops.getLast? = some ⟨60, 2, 1⟩) ∧
    (let s := st (standing 5 0 0 0 0 0 0 7 0)
     s.dev.canIssue 3 5 = true ∧ (s.dev.sp 3).stopReq = .none) ∧
    (let s := st (looped (standing 5 0 0 0 0 0 0 7 0) [] .checkpoint)
     s.dev.canIssue 3 5 = true ∧ (s.dev.sp 3).stopReq ≠ .none ∧ s.dev.spindleRoom 3 = some 15 ∧ (s.dev.room 15).trap = 0
       ∧ (s.dev.room 15).holdReq = 0) ∧
    (let s := st (standing 4 0 0 0 0 0 0 0 4)
     s.dev.canIssue 3 4 = true ∧ vCond (s.dev.insAt 3) % 16 = 4 ∧ s.dev.notesOf 3 = []) ∧
    (let d := standing 4 0 0 0 0 0 0 0 4
     let s := st { d with net := { d.net with notes := [⟨3, 0, 0, none, 0, 0, 4, 8, false, false⟩] } }
     s.dev.canIssue 3 4 = true ∧ s.dev.notesOf 3 ≠ [] ∧ s.dev.waitHolds 3 (s.dev.insAt 3) = none) ∧
    (let s := st ((standing 4 0 0 0 0 0 0 0 4).set SPX_VX_STAT.WAITING 3 1)
     s.dev.get SPX_VX_STAT.WAITING 3 = 1 ∧ s.dev.get SPX_VX_STAT.STOPPED 3 = 0 ∧ s.dev.get SPX_VX_STAT.RUNNING 3 = 1
       ∧ vCond (s.dev.insAt 3) % 16 = 4 ∧ s.dev.notesOf 3 = []) := by decide +kernel

/-- The Yarns of variant 0: logical Spindle 3, output port 1, to input port 2 of Spindle 0. -/
def yarnEntry : Nat := 3 + 1 * 2 ^ 10 + 2 * 2 ^ 24

theorem witness_SpindleSends :
    (let s := st (standing 7 0 0 0x200 0x201 0 0 0 0x410)
     let w := s.dev.insAt 3
     s.dev.canIssue 3 7 = true ∧ s.dev.mayInject 3 false = true
       ∧ s.dev.firstPoison ((scalarAt 3 (vSa w), 4) :: (List.range (vAux w % 16 + 1)).map fun k => (scalarAt 3 (vSb w + k),
         4)) = none
       ∧ 0x401 < vCond w % 2 ^ 12) ∧
    (let s := st (room15 (standing 8 0 0 0x100 0 0 0 1 (1 + 2 * 4)) fun x => { x with bankA := [⟨yarnEntry, [], []⟩] })
     let w := s.dev.insAt 3
     s.dev.canIssue 3 8 = true ∧ vAux w + 1 = 2 ∧ s.dev.firstPoison [(s.dev.deskAt 3 (vSa w), 64 * 2)] = none
       ∧ vCond w % 4 = 1 ∧ (s.dev.sp 3).yout = [] ∧ (s.dev.sp 3).stopReq ≠ .next ∧ s.dev.yarnTo 3 1 = [2]
       ∧ (s.dev.yarnTo 3 1).Nodup ∧ s.dev.mayYarn 3 1 2 = true) := by decide +kernel

/-- The state of an instruction over lines 1, 2 and 3 to line 255. -/
def lanesAt (op lanes : Nat) : State := st (standing op lanes 255 1 2 3 0 0 0)

theorem witness_Elementwise :
    ([0x10, 0x11, 0x12, 0x13, 0x14, 0x15, 0x16, 0x17, 0x18, 0x19, 0x1A, 0x1B, 0x28, 0x29, 0x2A, 0x2B, 0x2C].all fun op =>
      let s := lanesAt op 3
      s.dev.canIssue 3 op && (s.dev.firstPoison ((operandsOf op (s.dev.insAt 3)).flatMap fun v => s.dev.operandRange 3 v)).isNone) = true
      ∧ (0xFFFFFFFF : Nat) < 2 ^ 32 := by decide +kernel

theorem witness_LaneInstructions :
    (let s := st (standing 0x2D 3 255 0x200 0 0 0 0 0)
     s.dev.canIssue 3 0x2D = true ∧ s.dev.firstPoison (s.dev.operandRange 3 (0x200 + vSa (s.dev.insAt 3) % 256)) = none) ∧
    ([0x30, 0x31, 0x32, 0x33, 0x34, 0x35, 0x36, 0x37, 0x38, 0x39, 0x3A, 0x3B].all fun op =>
      let s := lanesAt op 0
      s.dev.canIssue 3 op && (s.dev.firstPoison (s.dev.operandRange 3 (vSa (s.dev.insAt 3)))).isNone) = true ∧
    (let s := st (standing 0x4A 3 255 0 0 0 0 127 0)
     s.dev.canIssue 3 0x4A = true
       ∧ s.dev.firstPoison [(deskBase 3 + offAcc (bitsOf (vAux (s.dev.insAt 3)) 6 1) + 1024 * (vAux (s.dev.insAt 3) % 64),
         1024)] = none
       ∧ vLanes (s.dev.insAt 3) = 3) ∧
    ([0x40, 0x41, 0x42].all fun op =>
      let s := lanesAt op 0
      s.dev.canIssue 3 op && (s.dev.firstPoison (s.dev.operandRange 3 (vSa (s.dev.insAt 3)))).isNone) = true ∧
    ((operandReaders 3 0).all fun c => (lanesAt c.2 3).dev.canIssue 3 c.2) = true := by decide +kernel

theorem witness_Conversions :
    (let s := st (standing 0x20 0 255 1 0 0 0 0 0)
     let w := s.dev.insAt 3
     s.dev.canIssue 3 0x20 = true ∧ lanesOfFmt (vFmt w) = some 0 ∧ lineLanes (vLanes w) = lineLanes 0
       ∧ s.dev.firstPoison (s.dev.operandRange 3 (vSa w)) = none) ∧
    (let s := st (standing 0x20 0 255 1 0 0 4 0 0)
     let w := s.dev.insAt 3
     s.dev.canIssue 3 0x20 = true ∧ blockScaled (vFmt w) = true ∧ vRunning w = false ∧ vMaskEn w = false
       ∧ s.dev.firstPoison (s.dev.operandRange 3 (vSa w)) = none) := by decide +kernel

/-- Spindle 3 with the Desk range of descriptor 1 apart from that of descriptor 0. -/
def apart (d : Dev) : Dev := mem d (deskBase 3 + offActive + 0x3010) (toLe 4 0x4000)

theorem witness_LoadStore :
    (let s := st (standing 0x48 0 255 0x100 0 0 1 0 0)
     let w := s.dev.insAt 3
     let n := lineLanes (vLanes w)
     s.dev.canIssue 3 0x48 = true ∧ vFmt w ≤ 8 ∧ blockScaled (vFmt w) = false ∧ vAux w < 256
       ∧ s.dev.deskAt 3 (vSa w) + 1024 * vAux w + n * fmtWidth (vFmt w) / 8 ≤ deskBase 3 + offBobbin
       ∧ s.dev.firstPoison (s.dev.deskRanges 3 w (vSa w)) = none) ∧
    (let s := st (standing 0x49 0 0x100 255 0 0 0 255 0)
     let w := s.dev.insAt 3
     let n := lineLanes (vLanes w)
     s.dev.canIssue 3 0x49 = true ∧ vFmt w ≤ 8 ∧ blockScaled (vFmt w) = false ∧ vAux w < 256
       ∧ s.dev.deskAt 3 (vDst w) + 1024 * vAux w + n * fmtWidth (vFmt w) / 8 ≤ deskBase 3 + offBobbin
       ∧ s.dev.firstPoison ((List.range (vAux w + 1)).map fun j => (bobLine 3 ((s.dev.lineOf 3 (vSa w) + j) % 256), 1024)) = none) ∧
    (let s := st (apart (standing 0x48 0 255 0x100 0x101 0 4 255 0))
     let w := s.dev.insAt 3
     let n := lineLanes (vLanes w)
     let b := s.dev.deskAt 3 (vSb w)
     s.dev.canIssue 3 0x48 = true ∧ vFmt w ≤ 8 ∧ blockScaled (vFmt w) = true ∧ vAux w < 256
       ∧ s.dev.deskAt 3 (vSa w) + 1024 * vAux w + n * fmtWidth (vFmt w) / 8 ≤ deskBase 3 + offBobbin
       ∧ b + vAux w * n / 32 + n / 32 ≤ deskBase 3 + offBobbin ∧ s.dev.firstPoison (s.dev.deskRanges 3 w (vSa w)) = none) ∧
    (let s := st (apart (standing 0x49 0 0x100 255 0x101 0 4 255 0))
     let w := s.dev.insAt 3
     let n := lineLanes (vLanes w)
     let a := s.dev.deskAt 3 (vDst w)
     let b := s.dev.deskAt 3 (vSb w)
     s.dev.canIssue 3 0x49 = true ∧ vFmt w ≤ 8 ∧ blockScaled (vFmt w) = true ∧ vRunning w = false ∧ vMaskEn w = false
       ∧ vAux w < 256 ∧ a + 1024 * vAux w + n * fmtWidth (vFmt w) / 8 ≤ deskBase 3 + offBobbin
       ∧ b + vAux w * n / 32 + n / 32 ≤ deskBase 3 + offBobbin ∧ a + 1024 * vAux w + n * fmtWidth (vFmt w) / 8 ≤ b
       ∧ s.dev.firstPoison ((List.range (vAux w + 1)).map fun j => (bobLine 3 ((s.dev.lineOf 3 (vSa w) + j) % 256), 1024)) = none) ∧
    (let d := sets (standing 0x49 0 0x100 255 0x101 0 20 0 0) [(NUM_SCALE_GROUPS.COUNT, 15, 1), (MEM_FT_SIZE.UNITS, 15, 1)]
     let s := st (mem d 1 [4])
     let w := s.dev.insAt 3
     s.dev.canIssue 3 0x49 = true ∧ vFmt w ≤ 8 ∧ blockScaled (vFmt w) = true ∧ vRunning w = true ∧ s.dev.spindleRoom 3 = some 15
       ∧ s.dev.firstPoison [(bobLine 3 (s.dev.lineOf 3 (vSa w)), 1024)] = none
       ∧ (match s.dev.scaleRead 15 3 (vGroup w) with
          | .scale _ _ => true
          | _ => false) = true) ∧
    ([0x48, 0x49].all fun op =>
      let s := st (standing op 0 255 0x100 0 0 9 0 0)
      s.dev.canIssue 3 op && decide (8 < vFmt (s.dev.insAt 3))) = true := by
  decide +kernel

theorem witness_ConversionRoundsToNearest :
    finiteCode 0 0x3F800000 = true ∧ finiteCode 6 0 = true ∧ (6 : Nat) ≤ 6
      ∧ (conv 1 (.num false 1 0)).2.sat = 0 ∧ (conv 1 (.num true 1 20)).2.sat = 1 := by decide +kernel

theorem witness_TranscendentalBound :
    (elemRaw 0 0x3F800000 = .num false (2 ^ 23) (-23)) ∧ (2 : Nat) ^ 23 ≠ 0 ∧
      ([0x30, 0x32, 0x33, 0x34, 0x35, 0x36, 0x37, 0x38, 0x39, 0x3A, 0x3B].all fun op =>
        decide ((conv 0 (exactOf op false (2 ^ 23) (-23))).2.sat = 0)) = true ∧ magLe (2 ^ 23) (-23) 65536 0 = true := by
  decide +kernel

/-! ## The matrix engine and the faults of Spindles -/

/-- The words of a product tile of `kt` steps: operands, output and preload at the Desk's base, then word 6 above KT. -/
def tileWords (kt w6 w7 : Nat) : List Nat := [0, 1024, 0, 0, 2048, 4096, kt - 1 + 2 ^ 16 * w6, w7]

/-- Spindle 3 stands at a TILE with that tile instruction behind it, in a frame of PRODUCT mode. -/
def atTile (ws : List Nat) : Dev :=
  mem (atIns running (vins 6 0 0 0 0 0 0 0 0)) (deskBase 3 + offActive + 0x3410) (ws.flatMap fun w => toLe 4 w)

/-- A tile in the array, or draining. -/
def inArray (ws : List Nat) (set : Nat) : Dev := running.setSp 3 { running.sp 3 with arr := some ⟨ws, 0, set⟩ }
def inDrain (ws : List Nat) : Dev := running.setSp 3 { running.sp 3 with drn := some ⟨ws, 0, 1⟩ }

/-- Set 1 belongs to an INT32 run whose A rows have scale code 5; the frame computes INT8 in INT32. -/
def mixed : Dev :=
  let d := mem (inArray (tileWords 32 2 0) 1) (deskBase 3 + offActive + 5) [7, 7, 2]
  d.setSp 3 { d.sp 3 with acc1 := { AccSet.init with mode := 2, scaleA := List.replicate 128 5, scaleB := List.replicate 128 0 } }

/-- Room 15's Spindles are in range (roomInRange). -/
abbrev inRange (d : Dev) : Prop := ∀ j ∈ d.roomSpindles 15, j < 1024 ∧ ∀ b ∈ (d.reel j).blocks, ∀ k ∈ b.slot, k < 4

theorem witness_MatrixTiles :
    (let s := st (atTile (tileWords 32 4 0))
     s.dev.canIssue 3 6 = true ∧ s.dev.spindleRoom 3 = some 15 ∧ (s.dev.room 15).unloadReq = false ∧ (s.dev.sp 3).arr = none
       ∧ (s.dev.sp 3).arr2 = none ∧ (s.dev.sp 3).drn = none
       ∧ (s.dev.tileAt 3 (s.dev.get SPX_VX_STAT.IP 3)).expands = false) ∧
    (let d := atTile (tileWords 32 4 0)
     let q : Tile := ⟨tileWords 32 4 0, 0, 1⟩
     let s := st (d.setSp 3 { d.sp 3 with arr := some q, drn := some q })
     s.dev.canIssue 3 6 = true ∧ (s.dev.sp 3).arr2 = none ∧ (s.dev.sp 3).drn = some q ∧ (s.dev.sp 3).arr ≠ none
       ∧ q.set ≠ (s.dev.tileAt 3 (s.dev.get SPX_VX_STAT.IP 3)).set) ∧
    ([4, 0].all fun w6 =>
      let t : Tile := ⟨tileWords 2 w6 0, 0, 1⟩
      let s := st (inArray t.words t.set)
      decide ((s.dev.sp 3).arr = some t) && decide (t.set < 2) && decide ((s.dev.sp 3).drn = none) && t.drain == (w6 == 4) && !s.dev.mismatch 3 t
        && decide (s.dev.spindleRoom 3 = some 15) && decide (s.dev.tilePoison 3 t = none)
        && decide (s.dev.rd NUM_TRAP_CTL 15 = 0) && decide ((s.dev.room 15).trap = 0) && decide ((s.dev.room 15).holdReq = 0)
        && decide ((s.dev.ftWin 15).1 + (s.dev.ftWin 15).2 ≤ spareEnd)) = true ∧
    (let t : Tile := ⟨tileWords 2 0 0, 0, 1⟩
     let s := st { inArray t.words t.set with poisonW := [deskBase 3] }
     (s.dev.sp 3).arr = some t ∧ t.drain = false ∧ s.dev.mismatch 3 t = false ∧ (s.dev.tilePoison 3 t).isSome = true) ∧
    (let s := st mixed
     (s.dev.sp 3).arr = some ⟨tileWords 32 2 0, 0, 1⟩ ∧ s.dev.mismatch 3 ⟨tileWords 32 2 0, 0, 1⟩ = true
       ∧ s.dev.spindleRoom 3 = some 15 ∧ (s.dev.running 15).isSome = true ∧ inRange s.dev) ∧
    (let d := running.setSp 3 { running.sp 3 with scaleWait := some (2, 0) }
     let s := st (mem d (d.groupAddr 15 2) [1, 4, 127, 0, 0, 0, 0, 0, 1])
     (s.dev.sp 3).scaleWait = some (2, 0) ∧ s.dev.spindleRoom 3 = some 15 ∧ 0 ≤ s.dev.now
       ∧ s.dev.groupAgreed (s.dev.groupAddr 15 2) = false ∧ (s.dev.running 15).isSome = true
       ∧ inRange s.dev) := by decide +kernel

theorem witness_DrainAndExpand :
    ([0, 0x12, 0x18].all fun w =>
      let t : Tile := ⟨tileWords 2 (4 + 256 * w) (2 ^ 16 * 5), 0, 1⟩
      let s := st (inDrain t.words)
      decide ((s.dev.sp 3).drn = some t) && decide ((s.dev.sp 3).drainq = none) && decide (t.set < 2)
        && (decide (t.method = 4) || !bitAt (t.w 15) 19) && !t.toYarn && !(s.dev.sp 3).mergeDue
        && (t.raw || (decide (t.outFmt ≤ 7) && !blockScaled t.outFmt)) && decide (s.dev.poisonW = [])
        && decide (s.dev.spindleRoom 3 = some 15) && decide (s.dev.rd NUM_TRAP_CTL 15 = 0)
        && decide ((s.dev.room 15).trap = 0) && decide ((s.dev.room 15).holdReq = 0)) = true ∧
    (let s := st (mem (atTile (tileWords 1 4 0 ++ [1, 0, 0, 2 ^ 16 + 1, 2 ^ 16 + 1, 64, 64, 0])) (deskBase 3 + offActive + 4) [2, 0])
     let ip := s.dev.get SPX_VX_STAT.IP 3
     let t := s.dev.tileAt 3 ip
     s.dev.canIssue 3 6 = true ∧ t.method = 1 ∧ t.reuse = false ∧ (s.dev.sp 3).expanded ≠ some ip ∧ s.dev.poisonW = []
       ∧ blockScaled (s.dev.frameByte 3 5) = false ∧ t.kt = 1 ∧ t.pixel 0 0 ≠ none ∧ t.pixel 127 0 = none) := by decide +kernel

/-- Units 60 and 61 of die 0 are free spares. -/
def spared (d : Dev) : Dev :=
  sets d [(SPX_STATE.STATE, 60, 1), (SPX_STATE.STATE, 61, 1), (SPX_DIE_STAT.SPARES_FREE, 0, 2)]

def flt (d : Dev) (f : FltSt → FltSt) : Dev := { d with flt := f d.flt }

theorem witness_SpindleFaults :
    (let s := st running
     s.dev.spindleRoom 3 = some 15 ∧ (s.dev.running 15).isSome = true ∧ inRange s.dev
       ∧ ((tget (fun _ => []) s.dev.flt.ceNow 3).filter fun t => decide (s.dev.now < t + 1000000000)).length + 1
         < s.dev.get FLT_CTL.CE_THRESH 0) ∧
    (let a := deskBase 1023 + 0x7FFFFC
     let s := st (flt running fun x => { x with suspects := [a], strikes := [(.spindle 1023, 0)] })
     a ∈ s.dev.flt.suspects ∧ s.dev.strikesOf (.spindle (spindleAt a)) = 1
       ∧ s.dev.strikesOf (.spindle (spindleAt a)) + 1 < s.dev.get FLT_CTL.STRIKES 0 ∧ s.dev.flt.wdogBusy = false
       ∧ s.dev.get FLT_SPX_STAT.RETIRED (spindleAt a) = 0) ∧
    ([Part.spindle 1023, .ftChannel 383, .ctChannel 447, .lane 11 3, .adder 55, .engine 121].all Part.exists?) = true := by
  decide +kernel

/-- The first retirement that waits is of Spindle 3, and an operation may be in progress for it. -/
def waiting (d : Dev) (q : Retirement) (op : Option LoadOp) : Dev :=
  let e := flt d fun x => { x with queue := [q] }
  { e with que := { e.que with op := op } }

theorem witness_Substitutions :
    (let s := st (spared running)
     s.dev.windowServed 0 FLT_SPX_CTL.base = true ∧ s.dev.flt.wdogBusy = false ∧ s.dev.get FLT_SPX_STAT.RETIRED 3 = 0
       ∧ s.dev.get SPX_STATE.STATE 3 ≠ 1 ∧ s.dev.freeSpare (3 / 64) = some 60) ∧
    (let s := st (waiting (spared running) ⟨3, true, false⟩ none)
     s.dev.flt.queue = ⟨3, true, false⟩ :: [] ∧ s.dev.que.op = none ∧ s.dev.flt.wdogBusy = false
       ∧ s.dev.freeSpare (3 / 64) = some 60 ∧ s.dev.spindleRoom 3 = some 15 ∧ s.dev.substitutable 15 = true) ∧
    (let s := st (waiting (spared rdy) ⟨3, false, false⟩ none)
     s.dev.flt.queue = ⟨3, false, false⟩ :: [] ∧ s.dev.que.op = none ∧ s.dev.flt.wdogBusy = false
       ∧ s.dev.freeSpare (3 / 64) = some 60 ∧ s.dev.spindleRoom 3 = none ∧ s.dev.get SPX_STATE.STATE 3 ≠ 1
       ∧ s.dev.logicalOf 3 < 960) ∧
    (let s := st (waiting (spared lessoned) ⟨3, false, false⟩ none)
     s.dev.flt.queue = ⟨3, false, false⟩ :: [] ∧ s.dev.que.op = none ∧ s.dev.flt.wdogBusy = false
       ∧ s.dev.freeSpare (3 / 64) = some 60 ∧ s.dev.spindleRoom 3 = some 15 ∧ s.dev.substitutable 15 = true
       ∧ s.dev.spindlesFree 15 = true ∧ s.dev.get SPX_STATE.STATE 3 ≠ 1 ∧ s.dev.logicalOf 3 = 3) ∧
    (let s := st (waiting (sets (spared lessoned) [(ROOM_STATUS.STATE, 15, stHeld), (ROOM_STATUS.HOLD_CAUSE, 15, 4)])
       ⟨3, false, false⟩ none)
     s.dev.flt.queue = ⟨3, false, false⟩ :: [] ∧ s.dev.que.op = none ∧ s.dev.flt.wdogBusy = false
       ∧ s.dev.freeSpare (3 / 64) = some 60 ∧ s.dev.spindleRoom 3 = some 15 ∧ s.dev.substitutable 15 = false
       ∧ s.dev.get SPX_STATE.STATE 3 ≠ 1 ∧ s.dev.logicalOf 3 < 960) ∧
    (let o : LoadOp := ⟨.substitution, 15, 0, false, 3⟩
     let s := st (waiting (sets (spared stopped) [(ROOM_STATUS.STATE, 15, stHeld), (ROOM_STATUS.HOLD_CAUSE, 15, 2)])
       ⟨3, true, true⟩ (some o))
     s.dev.flt.queue = ⟨3, true, true⟩ :: [] ∧ s.dev.que.op = some o ∧ s.dev.freeSpare (3 / 64) = some 60
       ∧ s.dev.roomState 15 = stHeld ∧ s.dev.get ROOM_STATUS.HOLD_CAUSE 15 = 2
       ∧ (∀ j ∈ s.dev.roomSpindles 15, j < 1024 ∧ s.dev.reelDrained j = true) ∧ s.dev.get SPX_STATE.STATE 3 ≠ 1
       ∧ s.dev.logicalOf 3 < 960) := by decide +kernel

/-- Room 15 has a reduction table of 12 buckets and one slot at 0x1000, and an UPDATE command at a stage. -/
def updating (g : UpdStage) : Dev :=
  (mem (wrs (sets running [(MEM_FT_SIZE.UNITS, 15, 1)]) [(RED_TABLE_BASE_LO, 15, 0x1000)]) 0x1000 [12, 0, 0, 0, 1, 0]).setUpd 15
    (some ⟨3, 0, g, 0, 0, [], [], 0⟩)

theorem witness_EngineMeshWatchdog :
    (st (updating .pass2)).dev.engineFor 11 = some 15 ∧
    (let s := st running
     s.dev.get FLT_STAT.FATAL 0 = 0 ∧ s.dev.flt.wdogBusy = false
       ∧ (∀ r, r < 16 → ∀ j ∈ s.dev.roomSpindles r, j < 1024 ∧ ∀ b ∈ (s.dev.reel j).blocks, ∀ k ∈ b.slot, k < 4)
       ∧ (∀ c ∈ s.dev.que.cmds, c.queue < 16384) ∧ s.dev.roomState 15 = stLoaded) ∧
    (let s := st ((flt running fun x => { x with wdogLast := some 0 }).set64 TIME_NOW_LO TIME_NOW_HI 0 3600000000000)
     s.dev.flt.wdogLast = some 0 ∧ s.dev.now = 0 + 3600000000000) ∧
    (st (flt running fun x => { x with wdogBusy := true })).dev.flt.wdogBusy = true := by decide +kernel

/-! ## Skein, memory and channels -/

/-- A table slot of Room 15 with a pending load from an address of the Room's window. -/
def slotLoad (a : Nat) : Dev :=
  let d := mem (sets windowed [(SKN_TABLE_SLOT.LOADING, 63, 1)]) 0x1000 (BitVec.ofNat 8 0x01 :: List.replicate 127 0)
  d.setSlot 15 3 { d.slot 15 3 with addr := a }

/-- The Reel of Spindle 3 with streams and tags, over a Reel program whose stream 0 has a kind, flags, rows of `len` bytes (one
to a unit) and 4 buffers of 4,096 bytes. -/
def reeled (d : Dev) (kind flags len : Nat) (base : Nat) (ss : List StreamSt) (ts : List ReelTag) (bs : List SkBlock) : Dev :=
  let e := mem (mem (mem d (reelBase 3) [1]) (reelBase 3 + 0x40) (toLe 1 kind ++ toLe 1 flags ++ [0, 0, 0, 0xFF, 0, 0, 4, 0, 0, 0, 0, 0, 0, 0]
    ++ toLe 8 base ++ List.replicate 12 0 ++ toLe 4 len ++ toLe 4 1 ++ toLe 4 8 ++ (List.replicate 4 (toLe 4 1)).flatten ++ List.replicate 16 0
    ++ toLe 4 32768)) (reelBase 3 + 0x2040) ((List.range 4).flatMap fun k => toLe 8 (64 * k))
  (sets e [(STR_STAT.RUNNING, 3, 1)]).setReel 3 { ReelSt.init with streams := ss, tags := ts, blocks := bs, turns := [1, 0, 0] }

/-- A Skein block of 16 bytes stored raw, as it has come. -/
def rawBlock : List (BitVec 8) := (skEncode none 0 0 (List.replicate 16 7)).1
def skBlock (size : Nat) (bad : List (Nat × Nat)) : SkBlock :=
  ⟨false, 0, 0, 0x2000, none, size, 512, [(0, rawBlock ++ List.replicate 8 0)], bad⟩

/-- Spindle 3 decodes such a block. -/
def decoding (size : Nat) (bad : List (Nat × Nat)) : Dev := reeled running 1 1 4096 0x2000 [StreamSt.start true 0] [] [skBlock size bad]

/-- The device's regulator of Room 15 on the fast tier has tokens. -/
def tokened (d : Dev) : Dev := d.setBal 30 1000

theorem witness_SkeinTables :
    (let s := st windowed
     s.dev.windowServed 0 SKN_TABLE_SLOT.base = true ∧ s.dev.get SKN_TABLE_SLOT.LOADING 63 = 0
       ∧ s.dev.get SKN_TABLE_SLOT.REFS 63 = 0 ∧ s.dev.windowServed 15 SKN_TABLE_SLOT.base = true
       ∧ mayAct 16 15 = true ∧ s.dev.windowServed 16 SKN_TABLE_SLOT.base = true) ∧
    (let s := st (sets windowed [(SKN_TABLE_SLOT.REFS, 63, 2)])
     s.dev.windowServed 0 SKN_TABLE_SLOT.base = true ∧ s.dev.get SKN_TABLE_SLOT.LOADING 63 = 0
       ∧ s.dev.get SKN_TABLE_SLOT.REFS 63 ≠ 0) ∧
    (let s := st (tokened (slotLoad 0x1000))
     let a := (s.dev.slot 15 3).addr
     s.dev.get SKN_TABLE_SLOT.LOADING 63 = 1 ∧ a % 128 = 0 ∧ inside (s.dev.ftWin 15) a 128 = true ∧ s.dev.poisoned a 128 = false
       ∧ s.dev.requestWaits (some 15) a 128 = false ∧ skValid (s.dev.rdBytes a 128) = true) ∧
    (let s := st (slotLoad 0x1000)
     let a := (s.dev.slot 15 3).addr
     s.dev.get SKN_TABLE_SLOT.LOADING 63 = 1 ∧ a % 128 = 0 ∧ inside (s.dev.ftWin 15) a 128 = true
       ∧ s.dev.requestWaits (some 15) a 128 = true) ∧
    (let s := st (slotLoad 0x1040)
     s.dev.get SKN_TABLE_SLOT.LOADING 63 = 1 ∧ (s.dev.slot 15 3).addr % 128 ≠ 0) ∧
    (let s := st (decoding 0 [])
     let b := skBlock 0 []
     let first := rawBlock ++ List.replicate 8 0
     let w0 := ofLe (first.take 4)
     s.dev.spindleRoom 3 = some 15 ∧ (s.dev.reel 3).blocks.find? (fun x => !x.write && x.stream == 0) = some b ∧ b.size = 0
       ∧ b.pieces.find? (fun p => p.1 == 0) = some (0, first)
       ∧ skHeadCode (s.dev.skTable 15 (bitsOf w0 25 2)) (first.take 16) ((List.range 16).any (badByte b.bad))
         (s.dev.stf 3 0 0x50 4 - 4096 * b.row) (s.dev.rowLen 3 0 b.row) = 0
       ∧ b.slot = (if bitAt w0 24 then some (bitsOf w0 25 2) else none)) ∧
    (let b := skBlock 32 []
     let s := st (decoding 32 [])
     let first := rawBlock ++ List.replicate 8 0
     s.dev.spindleRoom 3 = some 15 ∧ (s.dev.reel 3).blocks.find? (fun x => !x.write && x.stream == 0) = some b
       ∧ 0 < (s.dev.reel 3).streams.length ∧ b.pieces.find? (fun p => p.1 == 0) = some (0, first)
       ∧ skHeadCode (s.dev.skTable 15 (bitsOf (ofLe (first.take 4)) 25 2)) (first.take 16) ((List.range 16).any (badByte b.bad))
         (s.dev.stf 3 0 0x50 4 - 4096 * b.row) (s.dev.rowLen 3 0 b.row) = 0
       ∧ b.size ≠ 0 ∧ b.size ≤ (b.pieces.map fun p => p.2.length).foldl (· + ·) 0
       ∧ skDecode (s.dev.skTable 15 (bitsOf (ofLe (first.take 4)) 25 2)) (joinPieces b.pieces b.size) b.bad
           (s.dev.stf 3 0 0x50 4 - 4096 * b.row) (s.dev.rowLen 3 0 b.row) = .raw (List.replicate 16 7)) ∧
    (let b := skBlock 0 [(3, 1)]
     let s := st (decoding 0 [(3, 1)])
     let first := rawBlock ++ List.replicate 8 0
     s.dev.spindleRoom 3 = some 15 ∧ (s.dev.reel 3).blocks.find? (fun x => !x.write && x.stream == 0) = some b
       ∧ b.pieces.find? (fun p => p.1 == 0) = some (0, first)
       ∧ skHeadCode (s.dev.skTable 15 (bitsOf (ofLe (first.take 4)) 25 2)) (first.take 16) ((List.range 16).any (badByte b.bad))
         (s.dev.stf 3 0 0x50 4 - 4096 * b.row) (s.dev.rowLen 3 0 b.row) ≠ 0) := by decide +kernel

/-- A request of Room 15 in a phase, with the regulator at a balance. -/
def req (write : Bool) (a : Nat) (ph : ReqPhase) : MemReq :=
  ⟨5, .other, some 15, write, a, 64, if write then List.replicate 64 7 else [], [], ph, if ph == .flight then 1 else 0⟩
def requesting (q : MemReq) (bal : Int) : Dev :=
  let d := windowed.setBal 30 bal
  { d with memx := { d.memx with reqs := [q], nextReq := 6 } }

theorem witness_MemoryRequests :
    (∀ q ∈ (st windowed).dev.memx.reqs, q.phase ≠ .tokens) ∧
    ([(false, ReqPhase.tokens), (true, .tokens), (false, .retry)].all fun x =>
      let q := req x.1 0x1000 x.2
      let s := st (requesting q 1)
      s.dev.req? 5 == some q && q.phase == x.2 && s.dev.inWindows 15 q.addr q.len && decide (0 < s.dev.bal (2 * 15 + tierOf q.addr))
        && (s.dev.memx.reqs.all fun y => y.phase != .tokens || decide (q.id ≤ y.id)) && s.dev.homeOf q.addr == some 2
        && s.dev.get MEM_CHAN_STATE.STATE 2 != 1 && (s.dev.memx.reqs.all fun y => y.phase != .held && y.phase != .queued && y.phase != .flight)
        && s.dev.memx.dead.isEmpty && q.bad.isEmpty && (!q.write || decide (q.len = q.data.length))) = true ∧
    (let q := req false 0x1000 .tokens
     let s := st (requesting q 0)
     s.dev.req? 5 = some q ∧ s.dev.inWindows 15 q.addr q.len = true ∧ s.dev.bal (2 * 15 + tierOf q.addr) ≤ 0
       ∧ s.dev.holdFull q = false) ∧
    (let q := req false 0x100000000000 .tokens
     let s := st (requesting q 1)
     s.dev.req? 5 = some q ∧ s.dev.inWindows 15 q.addr q.len = false) ∧
    (let q := req false 0x1000 .flight
     let s := st (requesting q 1)
     s.dev.req? 5 = some q ∧ q.write = false ∧ s.dev.before q = [] ∧ (∀ x ∈ s.dev.memx.reqs, x.phase ≠ .queued)
       ∧ s.dev.homeOf q.addr = some 2 ∧ 2 ∉ s.dev.memx.dead ∧ 0x1000 ∈ sectorsOf q.addr q.len ∧ s.dev.badSector 0x1000 = false) ∧
    ((447 : Nat) < 448 ∧ 447 ∉ (st windowed).dev.memx.dead) ∧
    (let s := st (sets windowed [(MEM_SCRUB_CTL.EN, 0, 1)])
     s.dev.homeOf (ctEnd - 64) = some 447 ∧ s.dev.get MEM_SCRUB_CTL.EN 0 = 1 ∧ 447 ∉ s.dev.memx.dead
       ∧ s.dev.get MEM_CHAN_STATE.STATE 447 ≠ 3 ∧ s.dev.get MEM_CHAN_STATE.STATE 447 ≠ 4) ∧
    (let s := st (sets windowed [(MEM_CHAN_STATE.STATE, 2, 3)])
     s.dev.homeOf 0x1000 = some 2 ∧ s.dev.get MEM_CHAN_STATE.STATE 2 = 3) := by decide +kernel

/-- Channels wait for their retraining, or are in one. -/
def trainDue (d : Dev) (w : List Nat) (p : List (Nat × Nat)) : Dev := { d with memx := { d.memx with trainWait := w, prior := p } }

/-- The migration of channel 383 with its last extents to copy. -/
def migrating (d : Dev) (todo : List (Nat × Nat)) : Dev :=
  let e := sets d [(MEM_MIG_STAT.ACTIVE, 0, 1), (MEM_MIG_STAT.CHAN, 0, 383)]
  { e with memx := { e.memx with mig := some ⟨383, 2016, todo⟩ } }

theorem witness_ChannelService :
    (let s := st (trainDue windowed [447] [])
     447 ∈ s.dev.memx.trainWait ∧ s.dev.tierTraining 447 = false ∧ s.dev.get MEM_CHAN_STATE.STATE 447 ∉ [1, 3, 4]
       ∧ s.dev.get PWR_RECESS.STATE 0 = 0) ∧
    (let s := st (trainDue (sets windowed [(MEM_CHAN_STATE.STATE, 447, 1)]) [] [(447, 0)])
     s.dev.memx.prior.find? (fun p => p.1 == 447) = some (447, 0) ∧ (∀ q ∈ s.dev.memx.reqs, q.phase ≠ .held)
       ∧ s.dev.trainCount 447 < s.dev.get MEM_RT_CTL.RETIRE_N 0 ∧ s.dev.memx.retireQ = []) ∧
    (let s := st (trainDue (sets windowed [(MEM_CHAN_STATE.STATE, 383, 1)]) [] [(383, 5)])
     s.dev.memx.prior.find? (fun p => p.1 == 383) = some (383, 5) ∧ (∀ q ∈ s.dev.memx.reqs, q.phase ≠ .held)
       ∧ s.dev.memx.retireQ = [] ∧ s.dev.memx.mig = none) ∧
    (let s := st (trainDue (sets windowed [(MEM_CHAN_STATE.STATE, 383, 1), (MEM_SPARE_STAT.FREE, 0, 2015)]) [] [(383, 0)])
     s.dev.memx.prior.find? (fun p => p.1 == 383) = some (383, 0) ∧ s.dev.memx.mig = none
       ∧ s.dev.get MEM_SPARE_STAT.FREE 0 < s.dev.needed 383) ∧
    (let s := st (trainDue (sets windowed [(MEM_CHAN_STATE.STATE, 383, 1)]) [] [(383, 0)])
     s.dev.memx.prior.find? (fun p => p.1 == 383) = some (383, 0) ∧ (∀ q ∈ s.dev.memx.reqs, q.phase ≠ .held)
       ∧ s.dev.memx.retireQ = [] ∧ s.dev.memx.mig = none ∧ s.dev.needed 383 ≤ s.dev.get MEM_SPARE_STAT.FREE 0) ∧
    (let s := st windowed
     s.dev.windowServed 0 MEM_CHAN_CTL.base = true ∧ 447 ∉ s.dev.memx.trainWait ∧ s.dev.get MEM_CHAN_STATE.STATE 383 = 0
       ∧ 383 ∉ s.dev.memx.retireQ ∧ s.dev.flt.wdogBusy = false ∧ s.dev.needed 383 ≤ s.dev.get MEM_SPARE_STAT.FREE 0
       ∧ s.dev.memx.mig = none) ∧
    (let s := st (sets windowed [(MEM_SPARE_STAT.FREE, 0, 2015)])
     s.dev.windowServed 0 MEM_CHAN_CTL.base = true ∧ s.dev.get MEM_CHAN_STATE.STATE 383 = 0 ∧ 383 ∉ s.dev.memx.retireQ
       ∧ s.dev.flt.wdogBusy = false ∧ s.dev.memx.mig = none ∧ s.dev.get MEM_SPARE_STAT.FREE 0 < s.dev.needed 383) ∧
    (let p := (65536 * 383 + 2014, 0)
     let q := (65536 * 383 + 2015, 1)
     let s := st (migrating windowed [p, q])
     s.dev.memx.mig = some ⟨383, 2016, p :: q :: []⟩ ∧ s.dev.get PWR_RECESS.STATE 0 = 0
       ∧ s.dev.get MEM_CHAN_STATE.STATE 383 ≠ 1) ∧
    (let q := (65536 * 383 + 2015, 1)
     let s := st (migrating windowed [q])
     s.dev.memx.mig = some ⟨383, 2016, [q]⟩ ∧ s.dev.get PWR_RECESS.STATE 0 = 0 ∧ s.dev.get MEM_CHAN_STATE.STATE 383 ≠ 1
       ∧ s.dev.memx.retireQ = []) ∧
    (let s := st (sets (migrating windowed []) [(MEM_CHAN_STATE.STATE, 383, 1)])
     s.dev.memx.mig = some ⟨383, 2016, []⟩ ∧ s.dev.get MEM_CHAN_STATE.STATE 383 = 1) := by decide +kernel

/-! ## Reels, DMA channels and the Kaluf Link -/

/-- A tag of stream 0 of Spindle 3's Reel, and the same Reel with a memory request that has ended. -/
def rtag (tag : Nat) (write : Bool) (gen : Nat) (via : TagVia) : ReelTag := ⟨tag, write, gen, 0, 0, 0, 0, 64, 0x2000, false, via⟩
def withReq (d : Dev) (write : Bool) (data : List (BitVec 8)) (code : Nat) : Dev :=
  { d with memx := { d.memx with nextReq := 6, reqs := [⟨5, .reel 3 0, some 15, write, 0x2000, 64, data, [], .ended code, 0⟩] } }
def tagged (t : ReelTag) (ss : StreamSt) : Dev := reeled running 1 0 4096 0x2000 [ss] [t] []

/-- A Reel that quiesces, with a stream that brings data in. -/
def quiescing : Dev := sets (reeled stopped 1 0 4096 0x2000 [StreamSt.start true 5] [] []) [(STR_STAT.QUIESCING, 3, 1),
  (STR_STAT.RUNNING, 3, 0)]

/-- A Substitute's contribution stream whose delay has passed. -/
def subst : Dev := mem ((reeled running 6 0 8192 0x2000 [StreamSt.start false 0] [] []).wr TIME_NOW_LO 0 1000) (reelBase 3 + 0x40 + 0x6A)
  [1, 0, 0, 0, 0, 0, 0xE8, 3, 0, 0]

theorem witness_ReelTraffic :
    (let x := StreamSt.start true 0
     let s := st (reeled running 1 0 4096 0x2000 [x] [] [])
     s.dev.spindleRoom 3 = some 15 ∧ s.dev.get STR_STAT.RUNNING 3 = 1 ∧ s.dev.get STR_STAT.QUIESCING 3 = 0
       ∧ (s.dev.room 15).suspended = false ∧ (s.dev.running 15).isSome = true ∧ (s.dev.reel 3).streams = [x]
       ∧ s.dev.streamKind 3 0 = 1 ∧ s.dev.stFlag 3 0 0 = false ∧ s.dev.unitOpen 3 0 x.unit = true
       ∧ s.dev.viaNote 3 0 (s.dev.rowAddr 3 0 (x.unit * s.dev.stUnitRows 3 0 + x.row)) = false
       ∧ s.dev.freeTag 3 false = some 0 ∧ nth 0 (s.dev.reel 3).turns 0 ≠ 0
       ∧ ∀ q ∈ s.dev.memx.reqs, q.id < s.dev.memx.nextReq) ∧
    (let t := rtag 383 false 0 (.mem 5)
     let s := st (withReq (tagged t (StreamSt.start true 0)) false (List.replicate 64 9) 0)
     s.dev.tag? 3 383 false = some t ∧ (s.dev.req? 5).any (fun q => q.phase == .ended 0 && !q.poisoned) = true
       ∧ t.gen = s.dev.get STR_STAT.GEN 3 ∧ t.index = false ∧ s.dev.stFlag 3 0 0 = false ∧ s.dev.stFlag 3 0 1 = false
       ∧ t.stream < (s.dev.reel 3).streams.length) ∧
    (let t := rtag 383 false 7 (.mem 5)
     let s := st (withReq (tagged t (StreamSt.start true 0)) false (List.replicate 64 9) 0x0410)
     s.dev.tag? 3 383 false = some t ∧ (s.dev.req? 5).any (fun q => q.phase == .ended 0x0410) = true
       ∧ t.gen ≠ s.dev.get STR_STAT.GEN 3) ∧
    (let t := rtag 127 true 0 (.mem 5)
     let s := st (withReq (tagged t (StreamSt.start false 0)) true [] 0)
     s.dev.tag? 3 127 true = some t ∧ s.dev.endCode 5 = some 0 ∧ t.gen ≠ staleGen ∧ t.gen ≠ pastGen
       ∧ (s.dev.reel 3).blocks.any (fun b => b.write && b.addr + t.off == t.addr && b.row == t.row) = false
       ∧ t.stream < (s.dev.reel 3).streams.length ∧ (s.dev.room 15).ending = none) ∧
    (let s := st quiescing
     s.dev.get STR_STAT.QUIESCING 3 = 1 ∧ (s.dev.reel 3).pend = []
       ∧ (∀ x ∈ (s.dev.reel 3).streams, x.read = true ∨ x.passed ≤ x.unit)
       ∧ (∀ b ∈ (s.dev.reel 3).blocks, b.write = true → b.size ≤ b.asked) ∧ (s.dev.room 15).switch = none) ∧
    (let w : Switch := ⟨.stopping, some 3, none, 0, 0, 0, 0, false⟩
     let s := st (room15 quiescing fun x => { x with switch := some w })
     s.dev.get STR_STAT.QUIESCING 3 = 1 ∧ (s.dev.reel 3).pend = [] ∧ s.dev.spindleRoom 3 = some 15
       ∧ (s.dev.room 15).switch = some w ∧ w.outgoing = some 3
       ∧ ((s.dev.reel 3).streams.zipIdx.all fun x => x.1.read || decide (x.1.passed ≤ x.1.unit) || s.dev.blockHeld 3 x.2) = true
       ∧ (∀ b ∈ (s.dev.reel 3).blocks, b.write = true → b.size ≤ b.asked) ∧ 0 < (s.dev.reel 3).streams.length) ∧
    (let s := st subst
     s.dev.streamKind 3 0 = 6 ∧ s.dev.accf 3 0 0x0A 1 = 1 ∧ (s.dev.strm 3 0).probe = 0 ∧ 0 < (s.dev.reel 3).streams.length
       ∧ s.dev.get64 TT_ROUND_START_LO TT_ROUND_START_HI 0 + s.dev.accf 3 0 0x10 4 = s.dev.now) := by
  decide +kernel

/-- DMA channel 127 of Room 15 in a state, with descriptors in host memory. -/
def dmad (state : Nat) (x : DmaSt) : Dev :=
  (sets windowed [(DMA_CH_CTL.ROOM_EN, 127, 1), (DMA_CH_CTL.ROOM, 127, 15), (DMA_CH_STAT.STATE, 127, state),
    (DMA_CH_CTL.DESC_LOC, 127, 1)]).setDma 127 x

/-- A COPY descriptor from host memory to 0x2000, of 1,024 bytes, with its OWN bit. -/
def descriptor (own w0 : Nat) : List (BitVec 8) :=
  toLe 4 (own * 2 ^ 31 + w0) ++ toLe 4 1024 ++ toLe 8 0x9000 ++ toLe 8 0x2000 ++ List.replicate 40 0

/-- Four channels before it in turn keep the movers busy. -/
def crowded (d : Dev) : Dev :=
  let y : DmaSt := { DmaSt.init with desc := some (descriptor 1 4), stage := some [1] }
  [1, 2, 3, 4].foldl (fun (e : Dev) ch => (e.set DMA_CH_STAT.STATE ch 1).setDma ch y) (d.set DMA_CH_CTL.LEVEL 127 3)

theorem witness_DmaChannels :
    ([0, 3, 4].all fun n => let s := st (dmad n DmaSt.init)
      s.dev.windowServed 16 DMA_CH_CTL.base && s.dev.dmaReach 16 127 && s.dev.get DMA_CH_STAT.STATE 127 == n) = true ∧
    (let s := st (dmad 1 DmaSt.init)
     s.dev.windowServed 0 DMA_CH_CTL.base = true ∧ s.dev.dmaReach 0 127 = true ∧ s.dev.get DMA_CH_STAT.STATE 127 = 1
       ∧ (s.dev.dmaSt 127).desc = none ∧ (s.dev.dmaSt 127).cmd = none ∧ s.dev.dmaSt 127 = DmaSt.init
       ∧ s.dev.get DMA_CH_CTL.DESC_LOC 127 = 1) ∧
    (let s := st (dmad 1 { DmaSt.init with desc := some (descriptor 1 4) })
     s.dev.get DMA_CH_STAT.STATE 127 = 1 ∧ (s.dev.dmaSt 127).desc ≠ none) ∧
    (let s := st (dmad 4 DmaSt.init)
     s.dev.get DMA_CH_STAT.STATE 127 = 4 ∧ (s.dev.dmaSt 127).cmd = none) ∧
    (descriptor 1 4).length = 64 ∧ bitAt (dw (descriptor 1 4) 0 4) 31 = true ∧ descOk true (descriptor 1 4) = true
      ∧ bitAt (dw (descriptor 1 4) 0 4) 4 = false ∧ descSrcHost (descriptor 1 4) = true
      ∧ bitAt (dw (descriptor 0 4) 0 4) 31 = false ∧ descOk true (descriptor 1 3) = false ∧
    (let s := st ((dmad 1 DmaSt.init).set DMA_CH_VECTOR.VECTOR 127 2047)
     bitAt (dw (descriptor 1 20) 0 4) 4 = true ∧ msixSize (s.dev.dmaFn 127) ≤ s.dev.get DMA_CH_VECTOR.VECTOR 127) ∧
    (let b := descriptor 1 4
     let x : DmaSt := { DmaSt.init with desc := some b, hostWait := true }
     let s := st ((dmad 1 x).setBal 30 1)
     s.dev.get DMA_CH_STAT.STATE 127 = 1 ∧ s.dev.dmaSt 127 = x ∧ x.write = none ∧ descOp b = 0 ∧ descDstHost b = false ∧ x.row = 0
       ∧ x.size b = 512 ∧ x.off + 512 < dw b 4 4 ∧ s.dev.accessCode (s.dev.dmaRoom 127) (x.dst b) 512 = 0
       ∧ s.dev.tokensFor (s.dev.dmaRoom 127) (x.dst b) = true
       ∧ s.dev.memx.reqs = [] ∧ s.dev.homeOf (x.dst b) = some 4 ∧ s.dev.get MEM_CHAN_STATE.STATE 4 ≠ 1
       ∧ s.dev.deadRange (x.dst b) 512 = false ∧ s.dev.dmaServed 127 = true) ∧
    (let b := descriptor 1 4
     let x : DmaSt := { DmaSt.init with desc := some b, hostWait := true }
     let s := st (crowded (dmad 1 x))
     s.dev.get DMA_CH_STAT.STATE 127 = 1 ∧ s.dev.dmaSt 127 = x ∧ x.write = none ∧ x.row < descRows b ∧ x.size b = 512
       ∧ s.dev.dmaServed 127 = false) ∧
    (let c := cmd 4 0x10 [127 + 256, 0, 0x4040, 0]
     let s := st (withCmds (dmad 3 DmaSt.init) [c])
     s.dev.starts 4 0x10 = some c ∧ s.dev.dmaRoom (bitsOf (c.arg 0) 0 7) = some c.room
       ∧ s.dev.get DMA_CH_STAT.STATE 127 = 3 ∧ c.level < 4 ∧ bitAt (c.arg 0) 8 = true ∧ c.arg 2 < 2 ^ 32 ∧ c.arg 3 < 2 ^ 32) ∧
    (let c := cmd 4 0x10 [126]
     let s := st (withCmds (dmad 3 DmaSt.init) [c])
     s.dev.starts 4 0x10 = some c ∧ s.dev.dmaRoom (bitsOf (c.arg 0) 0 7) ≠ some c.room) := by decide +kernel

/-- Port 11 in a state, in service, leading to device 5 through a route. -/
def linked (state en : Nat) : Dev :=
  sets running [(KL_PORT_CTL.EN, 11, en), (KL_PORT_STAT.STATE, 11, state), (KL_PORT_STAT.LANES, 11, 15),
    (KL_PORT_STAT.NBR_DEV, 11, 5),
    (KL_ROUTE.PORT, 5, 11), (KL_ROUTE.VALID, 5, 1), (KL_ROOM_JOB.JOB, 15, 77)]

def withPort (d : Dev) (f : PortSt → PortSt) : Dev := d.setPort 11 (f (d.port 11))

/-- A flit for this device of a type and SEQ. -/
def flit (typ seq : Nat) : List (BitVec 8) := Flit.bytes ⟨typ, 0, 0, true, seq, 0, false, 5, 1, [1, 2, 3], none, none⟩ 0 ⟨0, 0⟩

set_option maxRecDepth 100000 in
theorem witness_KalufFlits :
    (let s := st (linked 2 1)
     s.dev.get KL_PORT_STAT.STATE 11 = 2 ∧ s.dev.get KL_PORT_CTL.EN 11 = 1 ∧ (s.dev.port 11).waitq = [] ∧ s.dev.devId = 0) ∧
    flitCrcOk (flit 0 0) = true ∧ (parseFlit (flit 0 0)).1.typ = 0 ∧ flitCrcOk ((flit 0 0).drop 1) = false ∧
    (let s := st (withPort (linked 2 1) fun x => { x with rxSeq := 4095 })
     let f := (parseFlit (flit 2 4095)).1
     flitCrcOk (flit 2 4095) = true ∧ 2 ≤ f.typ ∧ reservedFlit f.typ = false ∧ f.control = true ∧ f.seq = (s.dev.port 11).rxSeq) ∧
    (let s := st (withPort (linked 2 1) fun x => { x with rxSeq := 8 })
     let f := (parseFlit (flit 8 8)).1
     flitCrcOk (flit 8 8) = true ∧ 2 ≤ f.typ ∧ reservedFlit f.typ = false ∧ f.dst = s.dev.devId ∧ f.seq = (s.dev.port 11).rxSeq) ∧
    (let s := st (linked 2 1)
     let f := (parseFlit (flit 2 1)).1
     flitCrcOk (flit 2 1) = true ∧ 2048 < ((s.dev.port 11).rxSeq + 4096 - f.seq) % 4096 ∧ (s.dev.port 11).nakSent = false) ∧
    (let s := st (withPort (linked 2 1) fun x => { x with nakSeq := some 9, nakRun := 6 })
     (s.dev.port 11).nakSeq = some 9 ∧ (s.dev.port 11).nakRun < 7) ∧
    (let s := st (withPort (linked 2 1) fun x => { x with nakSeq := some 9, nakRun := 7 })
     (s.dev.port 11).nakSeq = some 9 ∧ 7 ≤ (s.dev.port 11).nakRun) := by decide +kernel

theorem witness_KalufPorts :
    (let s := st ((withPort (linked 2 1) fun x => { x with replay := [⟨0, flit 2 0⟩] }).wr TIME_NOW_LO 0 20000)
     s.dev.get KL_PORT_STAT.STATE 11 = 2 ∧ s.dev.windowServed 0 KL_PORT_CTL.base = true ∧ (s.dev.port 11).replay ≠ []
       ∧ (s.dev.port 11).ackTime + 20000 = s.dev.now) ∧
    (let s := st (linked 3 1)
     s.dev.get KL_PORT_STAT.STATE 11 = 3 ∧ (s.dev.port 11).failing = [] ∧ 3 ≤ s.dev.laneCount 11
       ∧ s.dev.get KL_PORT_CTL.EN 11 = 1) ∧
    (let s := st (sets (linked 2 1) [(KL_PORT_CTL.LANE, 11, 3)])
     s.dev.get KL_PORT_STAT.STATE 11 = 2 ∧ bitAt (s.dev.get KL_PORT_STAT.LANES 11) 3 = true ∧ s.dev.laneCount 11 = 4
       ∧ (s.dev.port 11).retiring = none ∧ (s.dev.port 11).failing = [] ∧ s.dev.flt.wdogBusy = false
         ∧ s.dev.get KL_PORT_CTL.LANE 11 = 3
       ∧ 2 ^ s.dev.get KL_LANE_CTL.SER_EXP 0 < 2 ^ 31
       ∧ ((s.dev.port 11).losses.filter fun q => q.1 == 3 && decide (s.dev.now < q.2 + 1000000000)).length + 1
         < s.dev.get KL_LANE_CTL.LOL_N 0) ∧
    (let s := st (flt (linked 2 1) fun x => { x with wdogBusy := true })
     s.dev.get KL_PORT_STAT.STATE 11 = 2 ∧ bitAt (s.dev.get KL_PORT_STAT.LANES 11) 3 = true ∧ (s.dev.port 11).retiring ≠ some 3
       ∧ 3 ∉ (s.dev.port 11).failing ∧ s.dev.flt.wdogBusy = true) ∧
    (let s := st (withPort (linked 2 1) fun x => { x with retiring := some 3 })
     (s.dev.port 11).retiring = some 3) ∧
    (let s := st (linked 0 0)
     s.dev.get KL_PORT_CTL.EN 11 = 0 ∧ s.dev.get KL_PORT_STAT.STATE 11 = 0 ∧ s.dev.windowServed 0 KL_PORT_CTL.base = true
       ∧ s.dev.windowServed 0 KL_DEV_ID.base = true) := by decide +kernel

/-- A remote message of Spindle 3's Reel under tag 0. -/
def remote (write : Bool) (now : Nat) : Dev :=
  let d := ({ tagged (rtag 0 write 0 (.remote 9)) (StreamSt.start (!write) 0) with
    kl := { (linked 2 1).kl with remotes := [⟨9, .reel 3 0, 5, some 0⟩] } }).wr TIME_NOW_LO 0 now
  mem d (reelBase 3 + 0x40) [if write then 5 else 4]

/-- Device 5 is reached, and Room 15 has a window and a regulator with a balance. -/
def remoted (bal : Int) : Dev := (sets (linked 2 1) [(MEM_FT_SIZE.UNITS, 15, 1)]).setBal 30 bal

theorem witness_RemoteMessages :
    (let s := st (remoted 1)
     s.dev.jobRoom 77 = some 15 ∧ s.dev.inWindows 15 0x2000 512 = true ∧ s.dev.requestWaits (some 15) 0x2000 512 = false
       ∧ s.dev.deadRange 0x2000 512 = false ∧ s.dev.poisoned 0x2000 512 = false ∧ (s.dev.route 5).isSome = true ∧ 0 = s.dev.devId
       ∧ s.dev.inWindows 15 0x100000000000 512 = false ∧ s.dev.jobRoom 78 = none) ∧
    (let s := st { remoted 1 with poison := [0x2040] }
     s.dev.inWindows 15 0x2000 512 = true ∧ s.dev.requestWaits (some 15) 0x2000 512 = false ∧ s.dev.poisoned 0x2000 512 = true) ∧
    (let s := st (remoted 0)
     s.dev.jobRoom 77 = some 15 ∧ s.dev.inWindows 15 0x2000 512 = true ∧ s.dev.requestWaits (some 15) 0x2000 512 = true) ∧
    (let t := rtag 0 false 0 (.remote 9)
     let s := st (remote false 0)
     s.dev.remote? 9 = some ⟨9, .reel 3 0, 5, some 0⟩ ∧ s.dev.remoteTag 3 9 = some t ∧ t.gen = s.dev.get STR_STAT.GEN 3 ∧ t.len = 64
       ∧ s.dev.stFlag 3 0 1 = false ∧ t.stream < (s.dev.reel 3).streams.length) ∧
    (let t := rtag 0 true 0 (.remote 9)
     let s := st (remote true 0)
     s.dev.remote? 9 = some ⟨9, .reel 3 0, 5, some 0⟩ ∧ s.dev.remoteTag 3 9 = some t ∧ t.gen ≠ staleGen ∧ t.gen ≠ pastGen
       ∧ t.write = true ∧ t.stream < (s.dev.reel 3).streams.length ∧ s.dev.streamKind 3 0 ≠ 6
       ∧ (s.dev.reel 3).blocks.any (fun b => b.write && b.addr + t.off == t.addr && b.row == t.row) = false
       ∧ (s.dev.room 15).ending = none ∧ s.dev.now < 0 + 1000000) ∧
    (let t := rtag 0 true 0 (.remote 9)
     let s := st (remote true 1000000)
     s.dev.remote? 9 = some ⟨9, .reel 3 0, 5, some 0⟩ ∧ 0 + 1000000 ≤ s.dev.now ∧ s.dev.remoteTag 3 9 = some t ∧ t.gen < staleGen
       ∧ t.write = true ∧ s.dev.spindleRoom 3 = some 15 ∧ (s.dev.running 15).isSome = true ∧ s.dev.unloads 15 = false
       ∧ inRange s.dev) := by decide +kernel

/-! ## Time, Roll call, reduction and the update -/

/-- The device follows PPS edges or its parent on port 11, with the time machinery as given. -/
def timing (src now : Nat) (x : TimeSt) : Dev :=
  let d := (sets (linked 2 1) [(TIME_CTL.SRC, 0, src), (TIME_CTL.PARENT, 0, 11)]).wr TIME_NOW_LO 0 now
  { d with kl := { d.kl with time := x } }

theorem witness_TimeAndBells :
    (let s := st (timing 1 1000000 { TimeSt.init with target := some 900000 })
     s.dev.get TIME_CTL.SRC 0 = 1 ∧ s.dev.kl.time.target = some 900000 ∧ s.dev.kl.time.slew = 0
       ∧ ((900000 : Nat) - s.dev.now : Int).natAbs ≤ 100000) ∧
    (let s := st (timing 1 1000000 { TimeSt.init with target := some 899999, missed := 2 })
     s.dev.kl.time.target = some 899999 ∧ s.dev.kl.time.slew = 0 ∧ 100000 < ((899999 : Nat) - s.dev.now : Int).natAbs
       ∧ 899999 + 100000 ≤ s.dev.now ∧ 2 ≤ s.dev.kl.time.missed) ∧
    (let s := st (timing 2 1000000 { TimeSt.init with asked := true })
     s.dev.get TIME_CTL.SRC 0 = 2 ∧ s.dev.get TIME_CTL.PARENT 0 = 11 ∧ s.dev.mayFly 11 = true ∧ s.dev.kl.time.asked = true
       ∧ ((5000000 : Int) - 4000000) - ((4000400 : Int) - 5000000) = 8 * 249950) ∧
    (let d := sets (belled 1000000 0) [(KL_BELL_CTL.MASTER, 0, 1)]
     let s := st d
     s.dev.get KL_BELL_CTL.MASTER 0 = 1 ∧ s.dev.rd TT_ROUND 0 ≠ 0 ∧ s.dev.awake = true ∧ s.dev.bell.started = true
       ∧ s.dev.kl.bellSent ≠ some s.dev.nextPlace ∧ s.dev.nextPlace ≤ s.dev.now + 1000 * s.dev.get KL_BELL_CTL.LEAD_US 0
       ∧ s.dev.linked 11 = false) ∧
    (let s := st (timing 2 1000000 TimeSt.init)
     s.dev.get TIME_CTL.SRC 0 = 2 ∧ s.dev.linked 11 = true) ∧
    (let d := timing 0 1000 TimeSt.init
     let s := st { d with kl := { d.kl with bellRx := some 65535 } }
     s.dev.kl.bellRx = some 65535 ∧ (1 ≤ (0 + 65536 - 65535) % 65536 ∧ (0 + 65536 - 65535) % 65536 ≤ 32767) ∧ s.dev.now ≤ 1000
       ∧ 999 < s.dev.now ∧ 32767 < (32767 + 65536 - 65535 + 32767) % 65536) := by decide +kernel

/-- Roll call of Room 15 collects step 6, its children on ports 10 and 11. -/
def rolled (root sent : Nat) (reported : List Nat) (verdicts : List (Nat × Nat)) (now : Nat) : Dev :=
  let d := (sets (linked 2 1) [(KL_RC_CTL.EN, 15, 1), (KL_RC_CTL.ROOT, 15, root), (KL_RC_CTL.PARENT, 15, 9),
    (KL_RC_CTL.CHILDREN, 15, 3072), (KL_RC_CTL.HEIGHT, 15, 1)]).wr TIME_NOW_LO 0 now
  d.setRc 15 { RcSt.init with bases := some (4, 0), step := 6, sent := sent == 1, reported := reported, verdicts := verdicts }

theorem witness_RollCallEvents :
    (let s := st (linked 2 1)
     s.dev.windowServed 0 KL_RC_CTL.base = true ∧ s.dev.get KL_RC_CTL.EN 15 = 0) ∧
    (let s := st (rolled 0 0 [] [] 0)
     s.dev.jobRoom 77 = some 15 ∧ s.dev.get KL_RC_CTL.EN 15 = 1 ∧ 11 ∈ s.dev.rcChildren 15 ∧ (s.dev.rc 15).bases.isSome = true
       ∧ s.dev.now ≤ s.dev.rcDeadline 15 ∧ (s.dev.rc 15).sent = false ∧ 11 ∉ (s.dev.rc 15).reported
       ∧ 10 ∈ s.dev.rcChildren 15 ∧ 10 ∉ (s.dev.rc 15).reported ∧ s.dev.upd 15 = none ∧ 5 < (s.dev.rc 15).step
       ∧ ∀ x ∈ s.dev.que.cmds, x.opcode = 0x51 → x.phase ≠ .timeWait) ∧
    (let s := st (rolled 1 0 [10] [] 100000000)
     (s.dev.rc 15).sent = false ∧ (s.dev.rc 15).bases.isSome = true ∧ s.dev.rcDeadline 15 ≤ s.dev.now
       ∧ s.dev.get KL_RC_CTL.ROOT 15 = 1 ∧ 11 ∈ s.dev.rcChildren 15 ∧ 11 ∉ (s.dev.rc 15).reported
       ∧ (s.dev.rc 15).verdictOf (s.dev.rc 15).step = 0 ∧ (s.dev.rc 15).step < 2 ^ 64 ∧ s.dev.upd 15 = none
       ∧ 5 < (s.dev.rc 15).step ∧ ∀ x ∈ s.dev.que.cmds, x.opcode = 0x51 → x.phase ≠ .timeWait) ∧
    (let s := st (rolled 0 1 [10, 11] [] 0)
     s.dev.jobRoom 77 = some 15 ∧ s.dev.get KL_RC_CTL.EN 15 = 1 ∧ s.dev.get KL_RC_CTL.ROOT 15 = 0
       ∧ s.dev.get KL_RC_CTL.PARENT 15 = 9 ∧ (s.dev.rc 15).verdictOf 6 = 0 ∧ s.dev.upd 15 = none
       ∧ 11 ∈ s.dev.rcChildren 15 ∧ s.dev.linked 11 = true ∧ ∀ x ∈ s.dev.que.cmds, x.opcode = 0x51 → x.phase ≠ .timeWait) ∧
    (let c : Cmd := { cmd 4 0x51 [128, 0, 7, 1] with phase := .timeWait, deadline := 9 }
     let s := st (withCmds (rolled 0 1 [10, 11] [] 0) [c])
     s.dev.jobRoom 77 = some 15 ∧ s.dev.get KL_RC_CTL.EN 15 = 1 ∧ s.dev.get KL_RC_CTL.ROOT 15 = 0
       ∧ s.dev.get KL_RC_CTL.PARENT 15 = 9 ∧ (s.dev.rc 15).verdictOf (2 ^ 32 + 7) = 0 ∧ s.dev.upd 15 = none
       ∧ s.dev.que.cmds = [c] ∧ c.room = 15 ∧ c.queue < 16384 ∧ (2 ^ 32 + 7) % 2 ^ 32 = c.arg 2
       ∧ s.dev.get64 UPD_PARAM_RX_LO UPD_PARAM_RX_HI (2 * 15 + c.arg 2 % 2) < c.arg64 0 ∧ (s.dev.red? 15).outcomes = []) := by
  refine ⟨?_, ?_, ?_, ?_, ?_⟩ <;> decide +kernel

/-- Room 15 with a reduction table at 0x1000 of one bucket of one block and one slot that device 5 fills, one update group at
0x2000, one scale group at 0x6000, and the banks of steps 6 and 7 open. -/
def reduced : Dev :=
  let d := wrs (sets (rolled 0 1 [10, 11] [] 0) [(MEM_FT_SIZE.UNITS, 15, 1), (RED_CTL.EN, 15, 1), (UPD_GROUPS.COUNT, 15, 1),
    (NUM_SCALE_GROUPS.COUNT, 15, 1), (RED_CHECK_CTL.RATE_LOG2, 0, 0)])
    [(RED_TABLE_BASE_LO, 15, 0x1000), (UPD_GROUP_BASE_LO, 15, 0x2000), (NUM_SCALE_BASE_LO, 15, 0x6000), (TT_ROUND_CNT_LO, 0, 10)]
  let d1 := mem (mem (mem (mem d 0x1000 (toLe 4 1 ++ toLe 2 1)) 0x1040 (toLe 4 5))
    0x1080 (toLe 8 0x10000 ++ toLe 8 0x20000 ++ toLe 8 0x30000 ++ toLe 4 0 ++ toLe 4 1)) 0x2000
    ([1, 0, 0, 0, 0, 0, 0, 0] ++ List.replicate 40 0 ++ toLe 8 32 ++ toLe 8 0x40000 ++ toLe 8 0 ++ toLe 8 0x50000 ++ toLe 8 0)
  ((mem d1 0x6000 [0, 4, 127, 0, 0, 0, 0, 0, 10]).openBank 15 6).openBank 15 7

/-- The same with a balance on both tiers: the regulators hold no request back. -/
def funded (bal : Int) (d : Dev) : Dev := (d.setBal 30 bal).setBal 31 bal

/-- A message of device 5 for step 6: a contribution of one block, or a probe. -/
def accBytes (kind scale role : Nat) : List (BitVec 8) := accHeader kind 0 1 scale 0 role 0 0 6 0 ++ List.replicate 64 1

theorem witness_ReductionArrivals :
    (let s := st (sets (linked 2 1) [])
     roomReach 16 15 = true ∧ s.dev.windowServed 16 RED_CTL.base = true ∧ s.dev.get RED_CTL.EN 15 = 0) ∧
    (let s := st (funded 100000 reduced)
     let m := accMsg (accBytes 0 127 0)
     let b := s.dev.bucket 15 m.bucket
     let acc := b.accAt (m.step % 2) (64 * m.chunk)
     let ba := b.mapAt (s.dev.nSlots 15) (m.step % 2) m.chunk + m.slot / 4
     m.kind = 0 ∧ m.n = 1 ∧ s.dev.jobRoom 77 = some 15 ∧ s.dev.accCode 15 5 m = 0 ∧ s.dev.bankClosed 15 m.step = false
       ∧ s.dev.bankOpen 15 m.step = true ∧ m.fmt = b.width
       ∧ s.dev.stepScale 15 (s.dev.sgroup 15 b.group) m.step = some (s.dev, m.scale)
       ∧ s.dev.slotBits 15 b (m.step % 2) m.chunk m.slot = 0 ∧ m.poison % 2 ^ m.n = 0
       ∧ s.dev.get RED_CHECK_CTL.RATE_LOG2 0 = 0 ∧ s.dev.upd 15 = none ∧ s.dev.memx.dead = []
       ∧ (s.dev.route 5).isSome = true ∧ (s.dev.gate (.add 5 1) 15 (b.addTraffic m)).2 = true ∧ (ba < acc ∨ acc + 256 * m.n ≤ ba)
       ∧ (s.dev.redBase 15 + 8 ≤ acc ∨ acc + 256 * m.n ≤ s.dev.redBase 15) ∧ (ba < s.dev.redBase 15 ∨ s.dev.redBase 15 + 8 ≤ ba)) ∧
    (let s := st (funded 0 reduced)
     let m := accMsg (accBytes 0 127 0)
     let b := s.dev.bucket 15 m.bucket
     m.kind = 0 ∧ s.dev.jobRoom 77 = some 15 ∧ s.dev.accCode 15 5 m = 0 ∧ s.dev.bankClosed 15 m.step = false
       ∧ s.dev.bankOpen 15 m.step = true ∧ m.fmt = b.width
       ∧ s.dev.stepScale 15 (s.dev.sgroup 15 b.group) m.step = some (s.dev, m.scale)
       ∧ s.dev.slotBits 15 b (m.step % 2) m.chunk m.slot % 2 = 0 ∧ m.poison % 2 ^ m.n = 0 ∧ s.dev.upd 15 = none
       ∧ (s.dev.gate (.add 5 1) 15 (b.addTraffic m)).2 = false) ∧
    (let s := st reduced
     s.dev.accCode 15 5 (accMsg (accBytes 0 127 1)) ≠ 0 ∧ (accMsg (accBytes 0 127 1)).kind = 0 ∧ s.dev.upd 15 = none) ∧
    (let s := st reduced
     let m := accMsg (accBytes 1 127 0)
     m.kind = 1 ∧ s.dev.jobRoom 77 = some 15 ∧ s.dev.accCode 15 5 m = 0 ∧ s.dev.bankClosed 15 m.step = false
       ∧ s.dev.bankOpen 15 m.step = true ∧ (s.dev.route 5).isSome = true) := by decide +kernel

/-- The same with an UPDATE of step 6 at a stage, which is command 3, and with command 4. -/
def updated (g : UpdStage) (now : Nat) : Dev := (reduced.setUpd 15 (some ⟨3, 6, g, 0, 0, [], [], 0⟩)).wr TIME_NOW_LO 0 now
def tallying (f : RedSt → RedSt) : Dev := let d := updated .tally 0; d.setRed 15 (f (d.red? 15))
def tallyBytes (kind flags : Nat) : List (BitVec 8) := tallyMsg kind 6 ⟨flags, 1, [⟨4, 0, 0, 0⟩]⟩

theorem witness_UpdateSteps :
    (let c := cmd 4 0x50 [6]
     let s := st (withCmds reduced [c])
     s.dev.starts 4 0x50 = some c ∧ c.room < 16 ∧ s.dev.tablesOk c.room = true ∧ s.dev.upd c.room = none
       ∧ s.dev.updStep c.room (c.arg 0) = some 6 ∧ (s.dev.rc c.room).verdictOf 6 = 0) ∧
    (let c := cmd 4 0x50 [6]
     let s := st (withCmds (sets reduced [(KL_RC_CTL.EN, 15, 0)]) [c])
     s.dev.starts 4 0x50 = some c ∧ s.dev.tablesOk c.room = false) ∧
    (let s := st (updated .collect 0)
     s.dev.upd 15 = some ⟨3, 6, .collect, 0, 0, [], [], 0⟩ ∧ s.dev.redDeadline 15 6 ≤ s.dev.now) ∧
    (let s := st (funded 100000 (updated .pass1 0))
     s.dev.upd 15 = some ⟨3, 6, .pass1, 0, 0, [], [], 0⟩ ∧ (s.dev.red? 15).tallyStep = none ∧ 11 ∈ s.dev.rcChildren 15
       ∧ s.dev.nGroups 15 = 1 ∧ (s.dev.gate (.pass 15) 15 (s.dev.pass1Traffic 15 0)).2 = true) ∧
    (let s := st (funded 0 (updated .pass1 0))
     s.dev.upd 15 = some ⟨3, 6, .pass1, 0, 0, [], [], 0⟩ ∧ (s.dev.gate (.pass 15) 15 (s.dev.pass1Traffic 15 0)).2 = false) ∧
    (let s := st (funded 0 (updated .pass2 0))
     s.dev.upd 15 = some ⟨3, 6, .pass2, 0, 0, [], [], 0⟩ ∧ (s.dev.gate (.pass 15) 15 (s.dev.pass2Traffic 15 0)).2 = false) ∧
    (let s := st (tallying fun x => { x with tallyStep := some 6 })
     s.dev.jobRoom 77 = some 15 ∧ s.dev.get KL_RC_STAT.FENCED 15 = 0
       ∧ (s.dev.rcChildren 15).find? (fun p => s.dev.get KL_PORT_STAT.NBR_DEV p == 5) = some 11
       ∧ (s.dev.red? 15).tallyStep = some (accMsg (tallyBytes 2 0)).step ∧ (s.dev.red? 15).sent = false
       ∧ 11 ∉ (s.dev.red? 15).children ∧ (s.dev.red? 15).own = false) ∧
    (let d := tallying fun x => { x with tallyStep := some 6 }
     let s := st (d.set64 TIME_NOW_LO TIME_NOW_HI 0 (2 ^ 40))
     s.dev.upd 15 = some ⟨3, 6, .tally, 0, 0, [], [], 0⟩ ∧ s.dev.tallyDeadline 15 6 ≤ s.dev.now
       ∧ (s.dev.red? 15).tallyStep = some 6 ∧ (s.dev.red? 15).sent = false ∧ s.dev.get KL_RC_CTL.ROOT 15 = 0) ∧
    (let s := st (tallying fun x => { x with tallyStep := some 6, sent := true })
     s.dev.jobRoom 77 = some 15 ∧ s.dev.get KL_RC_STAT.FENCED 15 = 0 ∧ 6 = (accMsg (tallyBytes 1 1)).step
       ∧ (s.dev.cmd? 3).isSome = true ∧ bitAt (parseTally (accMsg (tallyBytes 1 1)).body).flags 0 = true
       ∧ (parseTally (accMsg (tallyBytes 1 0)).body).flags % 8 = 0) ∧
    (let s := st (funded 100000 (updated .pass2 0))
     s.dev.upd 15 = some ⟨3, 6, .pass2, 0, 0, [], [], 0⟩ ∧ (s.dev.gate (.pass 15) 15 (s.dev.pass2Traffic 15 0)).2 = true) ∧
    (let s := st (funded 100000 reduced)
     let m := accMsg (accBytes 0 127 0)
     s.dev.jobRoom 77 = some 15 ∧ fmtWidth m.fmt / 8 = 4
       ∧ s.dev.inWindows 15 (0x30000 + 2048 * m.chunk * 4) (32 * 4 * m.n) = true ∧ s.dev.get KL_RC_STAT.FENCED 15 = 0
       ∧ s.dev.memx.dead = [] ∧ m.poison = 0 ∧ (∀ c ∈ s.dev.que.cmds, c.opcode = 0x51 → c.phase ≠ .timeWait)
       ∧ 32 * 4 * (accMsg (accBytes 0 127 0 ++ List.replicate 64 2)).n ≤ (accMsg (accBytes 0 127 0 ++ List.replicate 64 2)).body.length
       ∧ (s.dev.route 5).isSome = true
       ∧ (s.dev.gate (.param 5 1) 15 [(true, 0x30000 + 2048 * m.chunk * 4, 32 * 4 * m.n)]).2 = true) ∧
    (let s := st (funded 0 reduced)
     let m := accMsg (accBytes 0 127 0)
     s.dev.jobRoom 77 = some 15 ∧ s.dev.inWindows 15 (0x30000 + 2048 * m.chunk * 4) (32 * 4 * m.n) = true
       ∧ s.dev.get KL_RC_STAT.FENCED 15 = 0
       ∧ (s.dev.gate (.param 5 1) 15 [(true, 0x30000 + 2048 * m.chunk * 4, 32 * 4 * m.n)]).2 = false) ∧
    (let c := cmd 4 0x51 [128, 0, 7, 1]
     let s := st (withCmds (reduced.set64 UPD_PARAM_RX_LO UPD_PARAM_RX_HI 31 128) [c])
     s.dev.starts 4 0x51 = some c ∧ c.queue < 16384 ∧ (∀ x ∈ s.dev.que.cmds, x.opcode = 0x51 → x.phase ≠ .timeWait)
       ∧ c.arg64 0 = s.dev.get64 UPD_PARAM_RX_LO UPD_PARAM_RX_HI (2 * c.room + c.arg 2 % 2)) ∧
    (let c := cmd 4 0x51 [128, 0, 7, 1]
     let s := st (withCmds (reduced.set64 UPD_PARAM_RX_LO UPD_PARAM_RX_HI 31 127) [c])
     s.dev.starts 4 0x51 = some c ∧ s.dev.get64 UPD_PARAM_RX_LO UPD_PARAM_RX_HI (2 * c.room + c.arg 2 % 2) < c.arg64 0
       ∧ (∀ p ∈ (s.dev.red? c.room).outcomes, p.1 % 2 ^ 32 ≠ c.arg 2)
       ∧ ∀ v ∈ (s.dev.rc c.room).verdicts, v.1 % 2 ^ 32 = c.arg 2 → v.2 ≠ 2) ∧
    (let c : Cmd := { cmd 4 0x51 [128, 0, 7, 1] with phase := .timeWait, deadline := 0 }
     let s := st (withCmds reduced [c])
     s.dev.cmd? 4 = some c ∧ c.opcode = 0x51 ∧ c.phase = .timeWait ∧ c.deadline ≤ s.dev.now) := by
  refine ⟨?_, ?_, ?_, ?_, ?_, ?_, ?_, ?_, ?_, ?_, ?_, ?_, ?_, ?_, ?_⟩ <;> decide +kernel

/-! ## Media decoding, preparation and video -/

/-- A command of Room 15 whose list is at 0x10000 and whose results are at 0x20000: ARGS words 0 to 6. -/
def listArgs (n slots flags : Nat) : List Nat := [0x10000, 0, n + 2 ^ 16 * slots, 0x20000, 0, 0, flags]
def decCmd (op n slots flags : Nat) : Cmd := { cmd 4 op (listArgs n slots flags) with phase := .started }

/-- A text entry of the bytes of 0x30000 that goes to 0x40000, a tokenizer slot valid, and the command that decodes it. -/
def texting (src : List (BitVec 8)) (conceal : Nat) (ss : List Sample) (next : Nat) : Dev :=
  let d := sets windowed [(MED_TOK_SLOT.VALID, 60, 1)]
  let e := mem (mem (withCmds d [decCmd 0x23 2 2 conceal]) 0x30000 src) 0x10000
    (toLe 8 0x30000 ++ toLe 4 src.length ++ toLe 4 64 ++ toLe 8 0x40000 ++ List.replicate 40 0)
  { e with med := { e.med with jobs := [⟨4, 3, 0, next, []⟩], samples := ss } }

/-- What a sample of that entry needs paid at its start and at its end. -/
def startPaid (d : Dev) : Bool :=
  let c := decCmd 0x23 2 2 0
  (d.gate (.sample 4 0) 15 (d.startTraffic c 3 0 (d.startCode c 3 0 (d.decoded c 3 0)) (d.decoded c 3 0))).2
def endPaid (d : Dev) (h : Held) : Bool :=
  (d.gate (.sample h.c.id h.s.entry) h.c.room (d.endTraffic h (d.outputOf h).bytes.length)).2

/-- The sample of that entry on tokenizer engine 72. -/
def textSample : Sample := ⟨4, 0, some 72, false, none⟩

theorem witness_MediaCommands :
    ([0x20, 0x21, 0x22, 0x23].all fun op =>
      let c := cmd 4 op (listArgs 2 1 3)
      let s := st (withCmds windowed [c])
      decide (s.dev.starts 4 op = some c) && s.dev.decArgsOk c && !s.dev.decArgsOk (cmd 4 op [1])
        && decide ((st (withCmds windowed [cmd 4 op [1]])).dev.starts 4 op = some (cmd 4 op [1]))) = true ∧
    (let s := st (funded 100000 (texting [104, 105] 0 [] 0))
     let j : DecJob := ⟨4, 3, 0, 0, []⟩
     let c := decCmd 0x23 2 2 0
     (∀ x ∈ s.dev.med.samples, x.engine ≠ some 72) ∧ s.dev.get FLT_ENG_STAT.RETIRED (12 + 72) = 0 ∧ s.dev.med.jobs = [j]
       ∧ s.dev.jobReady (engineKind 72) j = some c ∧ c.level < 4 ∧ c.room < 16
       ∧ s.dev.med.samples = [] ∧ s.dev.memx.dead = [] ∧ c.cplHost = true ∧ startPaid s.dev = true
       ∧ s.dev.startCode c 3 0 (s.dev.decoded c 3 0) = 0 ∧
       (let d := s.dev.set MED_TOK_SLOT.VALID 60 0
        d.jobReady (engineKind 72) j = some c ∧ startPaid d = true ∧ d.startCode c 3 0 (d.decoded c 3 0) = 0x0817)) ∧
    (let s := st (funded 0 (texting [104, 105] 0 [] 0))
     let j : DecJob := ⟨4, 3, 0, 0, []⟩
     let c := decCmd 0x23 2 2 0
     (∀ x ∈ s.dev.med.samples, x.engine ≠ some 72) ∧ s.dev.get FLT_ENG_STAT.RETIRED (12 + 72) = 0 ∧ s.dev.med.jobs = [j]
       ∧ s.dev.jobReady (engineKind 72) j = some c ∧ c.level < 4 ∧ c.room < 16 ∧ startPaid s.dev = false) ∧
    (let s := st (texting [104, 0xFF] 1 [textSample] 1)
     (s.dev.held? 72).any (fun h => h.s == textSample && h.s.concealed.isNone && h.c.conceal && decide (h.c.room < 16)
       && !s.dev.srcPoisoned h && decide (s.dev.damageOf h = some (1, 1, 0x081A)) && decide (h.c.queue < 16384)) = true) ∧
    (let d := texting [104, 105] 0 [⟨4, 0, some 75, false, none⟩] 1
     let s := st { d with med := { d.med with jobs := [⟨4, 2, 5, 1, []⟩] } }
     (s.dev.held? 75).any (fun h => decide (h.c.room < 16) && decide (h.c.queue < 16384) && decide (h.j.kind < 3)) = true
       ∧ ∀ x ∈ s.dev.med.samples, x.engine = some 75 ∧ 75 < 76) ∧
    (let s := st (funded 0 (texting [104, 105] 0 [textSample] 1))
     (s.dev.held? 72).any (fun h => decide (h.c.room < 16) && !h.defers && !h.drops && !s.dev.srcPoisoned h
       && decide (s.dev.damageOf h = none) && !endPaid s.dev h) = true) ∧
    (let s := st (funded 100000 (texting [104, 105] 0 [textSample] 1))
     (s.dev.held? 72).any (fun h =>
       let j : DecJob := { h.j with ended := h.j.ended ++ [⟨h.s.entry, !h.s.deferred, h.o.work⟩] }
       let dst := s.dev.ent h.c h.s.entry 16 8
       !h.defers && !h.drops && !s.dev.srcPoisoned h && decide (s.dev.damageOf h = none) && endPaid s.dev h && decide ((s.dev.outputOf h).code = 0)
         && decide (dst + (s.dev.outputOf h).bytes.length ≤ h.c.result + 32 * h.s.entry ∨ h.c.result + 32 * h.s.entry + 32 ≤ dst)
         && (j.surplusFrom h.c).isNone && j.ended.length != h.c.nEntries) = true ∧ s.dev.memx.dead = []) ∧
    (let s := st windowed
     s.dev.windowServed 0 MED_TOK_SLOT.base = true ∧ s.dev.get MED_TOK_SLOT.LOADING 63 = 0 ∧ s.dev.get MED_TOK_SLOT.REFS 63 = 0
       ∧ mayAct 16 15 = true ∧ s.dev.windowServed 16 MED_TOK_SLOT.base = true) ∧
    (let d := wrs (sets windowed [(MED_TOK_SLOT.LOADING, 63, 1)]) [(MED_TOK_ADDR_LO, 63, 0x80000)]
     let s := st (funded 10000000 (mem d 0x80000 (toLe 4 0x50424B54 ++ toLe 4 256)))
     let t := s.dev.get64 MED_TOK_ADDR_LO MED_TOK_ADDR_HI 63
     s.dev.get MED_TOK_SLOT.LOADING 63 = 1 ∧ t % 64 = 0 ∧ inside (s.dev.ftWin 15) t 0x8460 = true ∧ s.dev.rdLe (t + 8) 4 ≤ 262144
       ∧ inside (s.dev.ftWin 15) t (s.dev.tokBytes t) = true ∧ s.dev.tokOk t = true
       ∧ s.dev.poisoned t (s.dev.tokBytes t) = false ∧ (s.dev.gate (.table 63) 15 [(false, t, s.dev.tokBytes t)]).2 = true) := by
  refine ⟨?_, ?_, ?_, ?_, ?_, ?_, ?_, ?_, ?_⟩ <;> decide +kernel

/-- ARGS of PREP and PACK: list, result and slots as in a decode command, no selection, outputs at 0x40000 with a stride. -/
def prepArgs (n slots base stride : Nat) : List Nat := [0x10000, 0, n + 2 ^ 16 * slots, 0x20000, 0, 0, 0, 0, base, 0, stride]

/-- A PREP entry: a grey image of one pixel at 0x30000 to one pixel in U8, its augmentation record at 0x50000; and the same
live, captured at 1 with an age limit of 1 µs. -/
def geoEntry (live : Nat) : List (BitVec 8) :=
  toLe 8 0x30000 ++ toLe 2 1 ++ toLe 2 1 ++ toLe 4 64 ++ [2, 0, 1, 0, 0, 0, 0, 0] ++ toLe 2 1 ++ toLe 2 1 ++ toLe 8 0x50000
    ++ toLe 8 live ++ toLe 4 live ++ List.replicate 16 0
def augRecord : List (BitVec 8) := List.replicate 0x18 0 ++ toLe 4 0x3F800000 ++ toLe 4 0x3F800000

/-- A PREP command of two candidates with its entries, at a candidate. -/
def prepping (live next now : Nat) (us : List GeoUnit) : Dev :=
  let c : Cmd := { cmd 4 0x30 (prepArgs 2 2 0x40000 64) with phase := .started }
  let d := mem (mem (withCmds windowed [c]) 0x10000 (geoEntry live ++ geoEntry 0)) 0x50000 augRecord
  { d.wr TIME_NOW_LO 0 now with med := { d.med with preps := [⟨4, [0, 1], next, []⟩], geo := us } }

/-- A PACK header: tokens of 4 bytes, rows of 8, output at 0x60000. -/
def packing : Dev :=
  mem (withCmds windowed [cmd 4 0x31 (prepArgs 1 2 0 0)]) 0x10000 (toLe 4 4 ++ toLe 4 8 ++ toLe 8 0 ++ toLe 8 0x60000)

/-- What an entry needs paid when it is taken and when it ends. -/
def takePaid (d : Dev) (c : Cmd) (k : Nat) : Bool :=
  let g := d.geoOf c k
  (d.gate (.entry c.id k) c.room
    ((false, c.list + 64 * k, 64) :: (if d.inWindows c.room g.aug 256 then [(false, g.aug, 256)] else []))).2
def entryPaid (d : Dev) (c : Cmd) (x : GeoUnit) : Bool :=
  (d.gate (.entry x.cmd x.entry) c.room [(false, (d.geoOf c x.entry).src, (d.geoOf c x.entry).srcBytes),
    (true, c.dstBase + x.entry * c.dstStride, (d.geoOf c x.entry).size), (true, c.result + 32 * x.entry, 32)]).2

theorem witness_PrepAndPack :
    (let c := cmd 4 0x30 (prepArgs 2 2 0x40000 64)
     let s := st (withCmds windowed [c])
     s.dev.starts 4 0x30 = some c ∧ c.selAddr = 0 ∧ 1 ≤ c.nSlots ∧ c.nSlots ≤ c.nEntries
       ∧ s.dev.prepArgsOk c (64 * c.nEntries) (4 * c.nSlots) = true ∧ c.dstBase < 2 ^ 52 ∧ c.dstBase % 64 = 0
       ∧ c.dstStride % 64 = 0 ∧ 64 ≤ c.dstStride ∧ c.prepOutOk = true
       ∧ ∀ j ∈ s.dev.med.preps, j.cmd ≠ c.id) ∧
    (let c := cmd 4 0x30 [1]
     let s := st (withCmds windowed [c])
     s.dev.starts 4 0x30 = some c ∧ s.dev.prepArgsOk c (64 * c.nEntries) (4 * c.nSlots) = false) ∧
    (let c := cmd 4 0x30 (setNth 1 (setNth 0x18000 (prepArgs 2 2 0x40000 64) 5) 7)
     let s := st { withCmds windowed [c] with poison := [0x18000] }
     s.dev.starts 4 0x30 = some c ∧ s.dev.prepArgsOk c (64 * c.nEntries) (4 * c.nSlots) = true ∧ c.prepOutOk = true
       ∧ s.dev.poisoned c.selAddr (4 * c.nSel) = true) ∧
    (let s := st (funded 100000 (prepping 0 0 0 []))
     let c : Cmd := { cmd 4 0x30 (prepArgs 2 2 0x40000 64) with phase := .started }
     let j : PrepJob := ⟨4, [0, 1], 0, []⟩
     s.dev.unit? 23 = none ∧ s.dev.get FLT_ENG_STAT.RETIRED (88 + 23) = 0
       ∧ s.dev.nextJob 5 (s.dev.med.preps.filterMap s.dev.prepReady) 4 0 = some (4, 2) ∧ s.dev.prep? 4 = some j
       ∧ s.dev.cmd? 4 = some c ∧ s.dev.takeCode c (nth 0 j.cands j.next) = 0
       ∧ s.dev.geoPoison (s.dev.geoOf c (nth 0 j.cands j.next)) = false ∧ s.dev.memx.dead = [] ∧ c.room < 16
       ∧ takePaid s.dev c 0 = true) ∧
    ([1001, 1002].all fun now =>
      let x : GeoUnit := ⟨23, 4, 0, true, 0⟩
      let s := st (funded 100000 (prepping 1 1 now [x]))
      let c : Cmd := { cmd 4 0x30 (prepArgs 2 2 0x40000 64) with phase := .started }
      let j : PrepJob := ⟨4, [0, 1], 1, []⟩
      let late := x.live && decide (1000 * (s.dev.geoOf c x.entry).maxAge < (s.dev.geoOf c x.entry).ageAt s.dev.now)
      let i : PrepJob := { j with ended := j.ended ++ [⟨x.entry, !late, 0⟩] }
      decide (s.dev.unit? 23 = some x) && decide (s.dev.cmd? x.cmd = some c) && decide (s.dev.prep? c.id = some j)
        && late == decide (now = 1002) && (i.surplus c.nSlots).isNone && decide (∃ k ∈ j.cands, ∀ y ∈ i.ended, y.entry ≠ k)
        && s.dev.memx.dead.isEmpty && entryPaid s.dev c x) = true ∧
    (let c := cmd 4 0x31 (prepArgs 1 2 0 0)
     let s := st packing
     s.dev.starts 4 0x31 = some c ∧ s.dev.prepArgsOk c (64 + 16 * c.nEntries) (4 * c.nSlots) = true ∧ 1 ≤ c.nSlots
       ∧ c.nSlots ≤ 4096 ∧ c.dstBase = 0 ∧ c.dstStride = 0 ∧ s.dev.packHeaderOk c = true
       ∧ s.dev.poisoned c.selAddr (4 * c.nSel) = false ∧ s.dev.poisoned c.list 64 = false ∧ s.dev.freePacker = some 0
       ∧ s.dev.nextJob 6 s.dev.packsReady 4 0 = some (c.id, 2) ∧ c.room < 16) ∧
    (let p : Packing := ⟨[8, 3], [1, 1], [], []⟩
     (5 ≤ 8) ∧ p.used[1]? = some 3 ∧ 3 + 5 ≤ 8 ∧ ∀ q v, q < 1 → p.used[q]? = some v → 8 < v + 5) ∧
    (let p : PackJob := ⟨1, 4, [], [8, 3], 2⟩
     let s := st (funded 100000 { packing with med := { packing.med with packs := [p] } })
     let c := cmd 4 0x31 (prepArgs 1 2 0 0)
     s.dev.med.packs.find? (fun p => p.unit == 1) = some p ∧ s.dev.cmd? p.cmd = some c ∧ c.cplHost = true ∧ c.room < 16
       ∧ c.queue < 16384 ∧ s.dev.memx.dead = [] ∧ (s.dev.gate (.pack 1) c.room (s.dev.packTraffic c)).2 = true) := by
  refine ⟨?_, ?_, ?_, ?_, ?_, ?_, ?_, ?_⟩
  case refine_7 =>
    refine ⟨by decide, rfl, by decide, fun q v h hv => ?_⟩
    obtain rfl : q = 0 := by omega
    simp only [List.getElem?_cons_zero, Option.some.injEq] at hv
    omega
  all_goals decide +kernel

/-- ENC_OPEN's ARGS: context at 0x100000, CQP, 64 × 64, 30/1 frames per second, ring of 64 KiB at 0x140000, reference buffers at
0x160000, pointers in host memory, both waits 1 µs. -/
def encWords : List Nat :=
  [0x100000, 0, 2 * 2 ^ 3 + 51 * 2 ^ 11, 64 + 64 * 2 ^ 16, 30, 1, 0, 0, 0, 0, 0, 0x140000, 0, 65536, 0x500, 0, 0x508, 0, 2 ^ 12, 1, 1,
    0x160000, 0, 0]

/-- The stream that they open, with its first frame on engine 7. -/
def enc : EncStream := ⟨15, 0x100000, encWords, none, 0, 0, 0, true, 0, 0, 0, 0⟩
def encFrame (row chunkBits : Nat) (ph : EncPhase) : EncFrame :=
  ⟨4, 15, 0x100000, some 7, true, true, 0, row, chunkBits, chunkBits, 0, false, 0, 0, 20, 20, .nan, false, 0, ph, 0⟩
def encCmd (rows : Nat) : Cmd := { cmd 4 0x41 [0x100000, 0, 0x180000, 0, 64, rows, 0, 0, 0, 0, 0, 0] with phase := .started }
def encoding (s : EncStream) (f : EncFrame) (rows now : Nat) : Dev :=
  { (withCmds windowed [encCmd rows]).wr TIME_NOW_LO 0 now with vc := ⟨[s], [f]⟩ }

/-- A frame of command 4 that has so many bytes of its traffic still to pay, with no balance. -/
def owed (n : Nat) (d : Dev) : Dev :=
  let e := funded 0 d
  { e with memx := { e.memx with dues := [⟨.frame 4, 15, n, 0⟩] } }

theorem witness_VideoEncoding :
    (let c := cmd 4 0x40 encWords
     let s := st (withCmds windowed [c])
     let x : EncStream := { enc with words := c.words.drop 8 }
     s.dev.starts 4 0x40 = some c ∧ x.ctx = c.arg64 0 ∧ s.dev.hasFrame c.room x.ctx = false ∧ s.dev.stream? c.room x.ctx = none
       ∧ x.fieldsOk = true ∧ inside (s.dev.ftWin c.room) x.ctx ctxBytes = true ∧ s.dev.inWindows c.room x.ring x.ringSize = true
       ∧ s.dev.inWindows c.room x.ref (3 * x.refBytes) = true ∧ x.mode = 2 ∧ x.priv = false
       ∧ { x with words := [] }.fieldsOk = false) ∧
    (let c := cmd 4 0x40 []
     let s := st (withCmds windowed [c])
     s.dev.starts 4 0x40 = some c ∧ s.dev.hasFrame c.room (c.arg64 0) = false
       ∧ { enc with ctx := c.arg64 0, words := c.words.drop 8 }.fieldsOk = false) ∧
    ([[enc], []].all fun ss =>
      let c := { encCmd 0 with phase := .waiting }
      let s := st { withCmds windowed [c] with vc := ⟨ss, []⟩ }
      decide (s.dev.starts 4 0x41 = some c) && c.encOk && (s.dev.stream? c.room (c.arg64 0)).isSome == !ss.isEmpty) = true ∧
    (let c := cmd 4 0x42 [0x100000]
     let s := st { withCmds windowed [c] with vc := ⟨[enc], []⟩ }
     s.dev.starts 4 0x42 = some c ∧ s.dev.hasFrame c.room (c.arg64 0) = false ∧ s.dev.stream? c.room (c.arg64 0) = some enc
       ∧ enc.window = none) ∧
    (let k : Coding := ⟨encFrame 0 0 .rows, enc, encCmd 0⟩
     let s := st (encoding enc k.f 0 0)
     s.dev.coding? 7 = some k ∧ k.f.phase = .rows ∧ s.dev.rowsThere k = true ∧ s.dev.nextFrame 7 = none ∧ k.rowsAddr = 0) ∧
    (let k : Coding := ⟨encFrame 0 0 .rows, enc, encCmd 0x190000⟩
     ([0, 1].all fun bal => [0, 1].all fun rows =>
       let s := st (funded bal (mem (encoding enc k.f 0x190000 0) 0x190000 (toLe 4 (64 * rows))))
       decide (s.dev.coding? 7 = some k) && decide (k.f.phase = .rows) && decide (k.rowsAddr = 0x190000) && !k.repeats
         && s.dev.requestWaits (some 15) k.rowsAddr 4 == decide (bal = 0) && s.dev.rowsThere k == decide (rows = 1)) = true) ∧
    (let k : Coding := ⟨encFrame 0 0 .coding, enc, encCmd 0⟩
     let s := st (owed 0 (encoding enc k.f 0 0))
     s.dev.coding? 7 = some k ∧ k.f.phase = .coding ∧ k.rowReads.any (fun a => s.dev.poisoned a.1 a.2) = false
       ∧ s.dev.refPoison k = false ∧ (s.dev.frameGate k k.rowTraffic).2 = true ∧ k.s.hb ≤ k.f.row + 1) ∧
    (let k : Coding := ⟨encFrame 0 0 .coding, enc, encCmd 0⟩
     let s := st (owed 64 (encoding enc k.f 0 0))
     s.dev.coding? 7 = some k ∧ k.f.phase = .coding ∧ (s.dev.frameGate k k.rowTraffic).2 = false) ∧
    ([EncPhase.chunk false, .ring false].all fun ph =>
      let x := { enc with words := setNth (64 + 128 * 2 ^ 16) encWords 3, written := 65536 }
      let k : Coding := ⟨encFrame 1 80 ph, x, encCmd 0⟩
      let s := st (funded 100000 (encoding x k.f 0 0))
      let poor := (st (funded 0 (encoding x k.f 0 0))).dev
      decide (s.dev.coding? 7 = some k) && (s.dev.frameGate k (s.dev.chunkWrites k false)).2
        && decide (poor.coding? 7 = some k) && poor.ringFits k false 10 && !(poor.frameGate k (poor.chunkWrites k false)).2
        && !s.dev.placed k && decide (s.dev.vc.frames = [k.f]) && decide (k.f.phase = ph) && k.s.ptrHost
        && s.dev.ringFits k false 10 && !s.dev.ringFits k false 9 && decide (k.f.row < k.s.hb) && s.dev.memx.dead.isEmpty
        && decide (k.s.written % k.s.ringSize + k.f.chunkBytes false ≤ k.s.ringSize) && decide (k.f.room < 16)) = true ∧
    (let k : Coding := ⟨encFrame 0 0 .rows, enc, encCmd 0x190000⟩
     let s := st (encoding enc k.f 0x190000 1001)
     s.dev.coding? 7 = some k ∧ k.f.phase = .rows ∧ s.dev.rowsThere k = false ∧ s.dev.waited k.f.since (k.s.w 19) = true) ∧
    (let k : Coding := ⟨encFrame 1 80 (.ring true), enc, encCmd 0⟩
     let s := st (encoding enc k.f 0 1001)
     s.dev.coding? 7 = some k ∧ k.f.phase = .ring true ∧ s.dev.waited k.f.since (k.s.w 20) = true ∧ s.dev.placed k = false) := by
  refine ⟨?_, ?_, ?_, ?_, ?_, ?_, ?_, ?_, ?_, ?_, ?_⟩ <;> decide +kernel

/-- A Term that has run out, with everything ready for its end. -/
def termOver : Dev := { sets rdy [(AGE_CTL.EN, 0, 1), (AGE_TERM_LEFT.MIN, 0, 0), (SPX_STATE.STATE, 0, 0)] with
  flt := { FltSt.init with scanLeft := [] } }

/-- Channels still to be scanned, one of them in its retraining. -/
def scanning (l : List Nat) : Dev :=
  { sets rdy [(AGE_STAT.REPLAN, 0, 1), (MEM_CHAN_STATE.STATE, 447, 1)] with flt := { FltSt.init with scanLeft := l } }

theorem witness_AgeingAndMargins :
    (let s := st rdy
     let a : AgeSample := ⟨5, [(1023, 400, 7), (0, 2000, 300)], [], []⟩
     (∀ x ∈ a.spx, x.1 < 1024) ∧ (a.spx.map fun x => x.1).Nodup
       ∧ ∀ die, die < 16 → s.dev.voff die (s.dev.get PWR_STAT.STEP 0) < 20) ∧
    (let s := st (sets rdy [(SPX_STATE.STATE, 64 * 15 + 63, 0), (AGE_MARGIN.M, 64 * 15 + 63, 0), (AGE_CTL.FLOOR_PS, 0, 10)])
     0 = s.dev.get PWR_STAT.STEP 0 ∧ s.dev.lowOnes 15 ≠ [] ∧ s.dev.voff 15 0 < 19) ∧
    ([20, -20].all fun w =>
      let s := st { rdy with flt := { FltSt.init with scanLeft := [0], voffWant := [(79, w)] } }
      s.dev.get PWR_STAT.STEP 0 != 4 && s.dev.want? 15 4 == some w && !s.dev.flt.scanLeft.isEmpty) = true ∧
    ([(2 : Int), -2].all fun x =>
      let s := st (sets termOver [(AGE_CTL.TARGET_PS, 0, 12)])
      let m4 := (48 - x * 4 : Int).toNat
      decide (s.dev.get AGE_CTL.EN 0 = 1) && decide (s.dev.get AGE_TERM_LEFT.MIN 0 = 0) && decide (s.dev.get AGE_STAT.REPLAN 0 = 0)
        && s.dev.awake && decide (s.dev.boot.stage = .ready) && !s.dev.flt.wdogBusy && decide (s.dev.get SPX_STATE.STATE 0 = 0)
        && decide (s.dev.get FLT_SPX_STAT.RETIRED 0 = 0)
        && decide ((x - 1) * (4 * 10) < 10 * (4 * (s.dev.get AGE_CTL.TARGET_PS 0 : Int) - m4))
        && decide (10 * (4 * (s.dev.get AGE_CTL.TARGET_PS 0 : Int) - m4) ≤ x * (4 * 10)) && !s.dev.scannable.isEmpty) = true ∧
    (let s := st (scanning [0, 447])
     447 ∈ s.dev.flt.scanLeft ∧ s.dev.get MEM_CHAN_STATE.STATE 447 = 1 ∧ s.dev.get AGE_CTL2.EYE_FLOOR 0 ≤ 300
       ∧ ∃ c ∈ s.dev.flt.scanLeft, c ≠ 447) ∧
    (let s := st (scanning [447])
     s.dev.flt.scanLeft = [447] ∧ s.dev.get MEM_CHAN_STATE.STATE 447 = 1 ∧ s.dev.get AGE_CTL2.EYE_FLOOR 0 ≤ 300
       ∧ s.dev.get AGE_STAT.REPLAN 0 = 1 ∧ s.dev.flt.voffWant = [] ∧ s.dev.flt.wdogBusy = false) ∧
    (st rdy).dev.windowServed 0 AGE_CARD_CTL.base = true ∧
    (let s := st (sets rdy [(AGE_CARD_CTL.COPY, 0, 1)])
     s.dev.get AGE_CARD_CTL.COPY 0 = 1 ∧ s.dev.get64 AGE_CARD_ADDR_LO AGE_CARD_ADDR_HI 0 / 4096 * 4096 + 4096 ≤ ftEnd
       ∧ s.dev.memx.dead = []) := by
  refine ⟨?_, ?_, ?_, ?_, ?_, ?_, ?_, ?_⟩ <;> decide +kernel

/-- The power state changed, and fields set. -/
def powered (f : PwrSt → PwrSt) (l : List (Field × Nat × Nat)) : Dev := { sets rdy l with pwr := f PwrSt.init }

theorem witness_PowerAndCoolant :
    ([(3, 15), (4, 1)].all fun x =>
      let s := st (powered id [(PWR_STAT.STEP, 0, x.1), (PWR_STAT.DUTY, 0, x.2)])
      s.dev.awake && !s.dev.pwr.ramp && decide (s.dev.pCap < s.dev.pCap + 1) && s.dev.pwr.downBy != 2
        && (decide (s.dev.get PWR_STAT.STEP 0 < 4) || (decide (s.dev.get PWR_STAT.STEP 0 = 4) && decide (0 < s.dev.get PWR_STAT.DUTY 0)))) = true ∧
    (let s := st (powered (fun x => { x with calm := 99 }) [(PWR_STAT.STEP, 0, 4), (PWR_STAT.DUTY, 0, 15), (THM_TJ.TJ_MAX, 0, 999)])
     s.dev.awake = true ∧ s.dev.pwr.ramp = false ∧ 100 ≤ s.dev.pCap ∧ s.dev.headroom 100 = true ∧ s.dev.pwr.calm = 99
       ∧ s.dev.pwr.hot = false ∧ s.dev.get PWR_STAT.DUTY 0 = 15 ∧ 0 < s.dev.get PWR_STAT.STEP 0
         ∧ s.dev.get THM_TJ.TJ_MAX 0 < 1000) ∧
    (let s := st (powered (fun x => { x with ramp := true }) [(PWR_STAT.STEP, 0, 1)])
     s.dev.pwr.ramp = true ∧ 0 < s.dev.get PWR_STAT.STEP 0) ∧
    ([(⟨1000, 0, 0, 0⟩ : DrawSample), ⟨1000, 1000, 0, 0⟩].all fun x =>
      let s := st rdy
      let p : Int := 1000000 * x.mean
      let hi := min (1000000 * (s.dev.pCap : Int)) (p + 10000 * s.dev.get PWR_RAMP.UP_W_MS 0)
      let lo := min (p - 10000 * s.dev.get PWR_RAMP.DOWN_W_MS 0) hi
      s.dev.awake && s.dev.pwr.profile.isEmpty && s.dev.pwr.bins.isEmpty && s.dev.pwr.adv.isNone && !s.dev.ballast
        && (decide (1000000 * ((x.natural : Int) + x.fill) < lo) == decide (x.natural = 0))) = true ∧
    ([0, 1].all fun k =>
      let s := st rdy
      let mean := (s.dev.set PWR_STAT.CAP_IN 0 1).pCap + k
      decide (s.dev.get PWR_STAT.CAP_IN 0 = 0) && !s.dev.pwr.ramp && decide (s.dev.get PWR_STAT.STEP 0 < 4)
        && (decide (mean ≤ (s.dev.set PWR_STAT.CAP_IN 0 1).pCap) == decide (k = 0))) = true ∧
    (let ts := [300, 1049, 1049]
     ts[1]? = some 1049 ∧ (∀ j, j < ts.length → ∀ u, ts[j]? = some u → u ≤ 1049 ∧ (u = 1049 → 1 ≤ j))
       ∧ (st rdy).dev.pwr.hot = false) ∧
    (let s := st (powered id [(PWR_STAT.STEP, 0, 3)])
     1050 ∈ [300, 1050] ∧ s.dev.awake = true ∧ s.dev.pwr.ramp = false ∧ s.dev.pwr.downBy ≠ 1 ∧ s.dev.get PWR_STAT.STEP 0 < 4) ∧
    ([true, false].all fun b => (st (powered (fun x => { x with outletFault := b }) [])).dev.loopOn) = true ∧
    (let s := st (sets rdy [(THM_TEMP0.T_IN, 0, 451), (THM_TEMP0.T_OUT, 0, 1200), (THM_DEMAND.Q, 0, 1200),
      (THM_FLOW.FLOW_A, 0, 300),
       (THM_FLOW.FLOW_B, 0, 0)])
     ∀ kind ∈ [0, 2, 3, 5], s.dev.condition kind 0 = true) ∧
    (let s := st (sets rdy [(THM_TEMP0.T_IN, 0, 199)])
     s.dev.condition 1 0 = true) ∧
    (let s := st (powered (fun x => { x with temps := [0, 0x7F800000, 0, 0] }) [])
     s.dev.condition 4 1 = true ∧ capping 4 1 = true ∧ capping 4 0 = false) ∧
    (let s := st (powered (fun x => { x with causes := [0, 5] }) [(PWR_STAT.FAULT_CAP, 0, 1)])
     ∀ k ∈ s.dev.pwr.causes, s.dev.condition k 1 = false) := by
  refine ⟨?_, ?_, ?_, ?_, ?_, ?_, ?_, ?_, ?_, ?_, ?_, ?_⟩ <;> decide +kernel

/-- A device at a boot stage. -/
def booting (x : BootStage) : Dev := { Dev.reset with boot := { BootSt.init with stage := x } }

theorem witness_RecessAndPowerUp :
    ([rdy, sets rdy [(ROOM_STATUS.STATE, 15, 2)]].all fun d =>
      let s := st d
      decide (s.dev.boot.stage = .ready) && s.dev.awake && (decide (s.dev.recessCode = 0) == decide (d = rdy))) = true ∧
    ([true, false].all fun b =>
      decide ((st (powered (fun x => { x with wakeWait := b }) [(PWR_RECESS.STATE, 0, 1)])).dev.get PWR_RECESS.STATE 0 = 1)
        && decide ((st (powered (fun x => { x with wakeWait := b }) [])).dev.memx.prior = [])) = true ∧
    (let s := st { rdy with memx := { rdy.memx with prior := [(447, 0)] } }
     s.dev.memx.prior ≠ []) ∧
    ([1, 2].all fun k =>
      let s := st (wrs (sets rdy [(PWR_RECESS.STATE, 0, k), (PWR_RECESS.WAKE_TIME, 0, 1), (PWR_RECESS.WAKE_KL, 0, 1)])
        [(TIME_NOW_LO, 0, 100), (PWR_WAKE_AT_LO, 0, 100)])
      decide (s.dev.boot.stage = .ready) && decide (s.dev.get PWR_RECESS.WAKE_TIME 0 = 1)
        && decide (s.dev.get64 PWR_WAKE_AT_LO PWR_WAKE_AT_HI 0 ≤ s.dev.now) && decide (s.dev.get PWR_RECESS.WAKE_KL 0 = 1)
        && decide (s.dev.get PWR_RECESS.STATE 0 = k)) = true ∧
    (let s := st (sets rdy [(KL_PORT_STAT.STATE, 11, 2), (KL_PORT_STAT.STATE, 10, 3)])
     s.dev.boot.stage = .ready ∧ bitAt 0xE00 11 = true ∧ s.dev.get KL_PORT_STAT.STATE 11 ≠ 3 ∧ bitAt 0xE00 10 = true
       ∧ s.dev.get KL_PORT_STAT.STATE 10 = 3 ∧ bitAt 0xE00 8 = false) ∧
    (let s := st (sets rdy [(PWR_RECESS.STATE, 0, 3), (MEM_CHAN_STATE.STATE, 446, 3)])
     s.dev.get PWR_RECESS.STATE 0 = 3 ∧ (∀ r, r < 16 → s.dev.roomState r ≠ stHeld)
       ∧ (∀ c, c < 448 → s.dev.trainCount c + 1 < s.dev.get MEM_RT_CTL.RETIRE_N 0) ∧ s.dev.get MEM_CHAN_STATE.STATE 446 = 3
       ∧ s.dev.get MEM_CHAN_STATE.STATE 447 ≠ 3 ∧ s.dev.get MEM_CHAN_STATE.STATE 447 ≠ 4) ∧
    (let s := st { Dev.reset with boot := { BootSt.init with aux := false, conv := false, good := false, released := false, stage := .held } }
     s.dev.boot.aux = false) ∧
    (let s := st { Dev.reset with boot := { BootSt.init with conv := false, good := false, released := false, stage := .held } }
     s.dev.boot.aux = true ∧ s.dev.boot.conv = false ∧ s.dev.boot.released = false ∧ s.dev.get THM_STAT.TRIP 0 = 0) ∧
    (let s := st { Dev.reset with boot := { BootSt.init with good := false, released := false, stage := .held } }
     s.dev.boot.conv = true ∧ s.dev.boot.good = false) ∧
    (let s := st { Dev.reset with boot := { BootSt.init with released := false, stage := .held } }
     s.dev.boot.good = true ∧ s.dev.boot.released = false ∧ s.dev.get THM_STAT.TRIP 0 = 0) ∧
    (st (booting (.rom 1))).dev.boot.stage = .rom 1 ∧
    (∀ k, k < 5 → stageDue ((List.range 5).filter fun j => decide (j < k)) k = true) ∧
    (let done := [0, 3, 4, 1, 2]
     let s := st (booting (.firmware done))
     s.dev.boot.stage = .firmware done ∧ (∀ k, k < 5 → k ∈ done)
       ∧ s.dev.get FLT_SPX_STAT.RETIRED (64 * 15 + 59) = 0) ∧
    (st (booting .noFirmware)).dev.boot.stage = .noFirmware ∧
    (∀ x ∈ [BootStage.held, .ready],
      let d : Dev := { Dev.reset with boot := { BootSt.init with conv := false, stage := x } }
      d.mainPower = false) ∧
    ((booting .held).mainPower = true ∧ (booting .held).boot.stage = .held
      ∧ (sets rdy [(THM_STAT.TRIP, 0, 1)]).get THM_STAT.TRIP 0 = 1) ∧
    (let d := sets rdy [(PWR_RECESS.STATE, 0, 2)]
     d.mainPower = true ∧ d.boot.stage = .ready ∧ d.awake = false ∧ d.boot.good = true) ∧
    (let d := { rdy with mgmt := { rdy.mgmt with causes := 128, unmasked := 0xFF } }
     d.boot.aux = true ∧ bitAt d.mgmt.causes 7 = true ∧ bitAt d.mgmt.unmasked 7 = true) := by
  refine ⟨?_, ?_, ?_, ?_, ?_, ?_, ?_, ?_, ?_, ?_, ?_, ?_, ?_, ?_, ?_, ?_, ?_, ?_⟩ <;> decide +kernel

theorem witness_ResetsAndManagement :
    (let s := st rdy
     s.dev.boot.aux = true ∧ s.dev.boot.conv = true ∧ s.dev.boot.good = true ∧ s.dev.boot.released = true ∧ s.dev.boot.stage ≠ .held
       ∧ s.dev.boot.stage = .ready ∧ s.dev.windowServed 0 SYS_RESET.base = true ∧ s.dev.window 0 = true) ∧
    (let s := st (room15 (sets rdy [(QUE_CTL.ENABLE, 16383, 1)]) fun x => { x with queues := [16383] })
     s.dev.boot.stage = .ready ∧ s.dev.window (15 + 1) = true ∧ s.dev.que.op = none ∧ s.dev.roomState 15 = stEmpty
       ∧ (∀ q ∈ (s.dev.room 15).queues, q < 16384)
       ∧ ∀ ch, ch < 128 → s.dev.dmaRoom ch = some 15 → (s.dev.dmaSt ch).desc = none) ∧
    (let s := st (sets rdy [(DMA_CH_CTL.ROOM_EN, 127, 1), (DMA_CH_CTL.ROOM, 127, 15), (DMA_CH_STAT.STATE, 127, 1)])
     s.dev.dmaRoom 127 = some 15 ∧ (s.dev.dmaSt 127).desc = none ∧ s.dev.roomState 15 = stEmpty ∧ s.dev.window (15 + 1) = true) ∧
    ([(14, LoadKind.load), (15, .substitution)].all fun x =>
      let o : LoadOp := ⟨x.2, x.1, 0, false, 0⟩
      let s := st (withOp rdy o)
      decide (s.dev.que.op = some o) && decide (o.room ≠ 15 ∨ o.kind = .substitution)) = true ∧
    (st (booting (.rom 1))).dev.boot.stage = .rom 1 ∧
    (let s := st (powered (fun x => { x with adv := some (3, 500, 9) }) [(PWR_STAT.ADV, 0, 1)])
     s.dev.boot.aux = true ∧ s.dev.pwr.adv = some (3, 500, 9) ∧ s.dev.get PWR_STAT.ADV 0 = 1) ∧
    ([(0x1041000 - 240, 240), (0x1041000 - 239, 240)].all fun x =>
      (st rdy).dev.flashOk x.1 x.2 == decide (x.1 + x.2 ≤ 0x1041000)) = true := by
  refine ⟨?_, ?_, ?_, ?_, ?_, ?_, ?_⟩ <;> decide +kernel

/-! ## Well-formedness -/

/-- A command that names no unit, an unaligned or distant offset, or a value too wide is ill formed: one term for each check. -/
theorem test_wf_refuses_1 : ([
    .registerWrite 17 0 0, .registerWrite 0 2 0, .registerWrite 0 0x2000000 0, .registerWrite 0 0 (2 ^ 32),
    .narrowAccess 17 0 false, .rcRead 17 0, .rcRead 0 2, .rcRead 0 0x2000000, .lowWordRead 17 0, .lowWordRead 0 2,
    .lowWordRead 0 0x2000000, .deskWindowRead (deskBase 0 + 2) .clean, .deskWindowRead (deskBase 0 - 4) .clean,
    .deskWindowRead (deskBase 1024) .clean, .deskWindowWrite (deskBase 0 - 4) [], .deskWindowWrite (deskBase 1024) [0],
    .deskWindowWrite (deskBase 0) (List.replicate 129 0), .yarnWordArrive 1024 0 [] [], .yarnWordArrive 0 4 [] [],
    .yarnWordArrive 0 0 [16] [], .yarnWordArrive 0 0 [] [16], .yarnCreditReturn 1024 0 [] [], .yarnCreditReturn 0 4 [] [],
    .yarnCreditReturn 0 0 [16] [], .yarnCreditReturn 0 0 [] [16], .noteInject 1024 ⟨0, 0, 0, 0, false, 0, 0, 0, 0, 0, []⟩,
    .noteTimeout 1024 0, .noteTimeout 0 64, .cfgLoad 17 0, .cfgLoad 0 16, .cfgCancel 17 0, .cfgCancel 0 16, .unloadDrain 17 0,
    .unloadDrain 0 16, .unloadAbort 17 0, .unloadAbort 0 16, .cfgLoadReservedOp 17 0 4, .cfgLoadReservedOp 0 16 4,
    .cfgLoadReservedOp 0 0 3, .cfgLoadReservedOp 0 0 8] : List Instr).all (fun c => !c.wf) = true := by decide +kernel

/-- Further checks. -/
theorem test_wf_refuses_2 : ([
    .unloadProceed 16, .planeSwitch 16 false, .preloadDone 16, .drainTimeout 16, .roomHold 17 0, .roomHold 0 16,
    .roomHoldRelease 17 0, .roomHoldRelease 0 16, .doorbell 17 0 0 0, .doorbell 0 16384 0 0, .doorbell 0 0 2 0,
    .doorbell 0 0 4096 0, .doorbell 0 0 0 (2 ^ 32), .queErrClear 17 0, .queErrClear 0 16384, .commandStart 16, .cmdRun 16,
    .semInheritTimeout 4096, .forceRel 17 0, .forceRel 0 4096, .lessonBoundary 16, .switchStopped 16, .saveDone 16,
    .restoreDone 16, .scaleWaitExpire 1024, .tile 1024, .tileComplete 1024 0 false none, .drainComplete 1024 none,
    .intScaleMismatch 1024, .expandComplete 1024 none, .microNop 1024, .endSeq 1024, .loopOpen 1024, .endloop 1024,
    .vwait 1024, .waitSatisfied 1024 0, .ckpt 1024, .nsig 1024 none, .ysend 1024 0 none, .vadd 1024 none] : List Instr).all (fun c => !c.wf) = true := by decide +kernel

/-- Further checks. -/
theorem test_wf_refuses_3 : ([
    .vsub 1024 none, .vmul 1024 none, .vfma 1024 none, .vmin 1024 none, .vmax 1024 none, .vabs 1024 none, .vneg 1024 none,
    .vcmplt 1024 none, .vcmpeq 1024 none, .vsel 1024 none, .vfnma 1024 none, .vcvt 1024 none, .vand 1024 none, .vor 1024 none,
    .vxor 1024 none, .vshl 1024 none, .vshr 1024 none, .idx 1024 none, .rcp 1024 none, .vsqrt 1024 none, .rsqrt 1024 none,
    .vexp 1024 none, .exp2 1024 none, .vlog 1024 none, .log2 1024 none, .tanh 1024 none, .sigm 1024 none, .erf 1024 none,
    .vsin 1024 none, .vcos 1024 none, .rsum 1024 none, .rmax 1024 none, .rmin 1024 none, .vld 1024 0 none, .vst 1024 0 none,
    .accrd 1024 none, .planeFault 1024 false false, .fltSpxRetire 17 0, .fltSpxRetire 0 1024, .preventiveHold 1024] : List Instr).all (fun c => !c.wf) = true := by decide +kernel

/-- Further checks. -/
theorem test_wf_refuses_4 : ([
    .engineFault 122 0, .meshCrcError 4 0 0 false, .tableLoad 17 0 0, .tableLoad 0 16 0, .tableLoad 0 0 4, .tableLoadEnd 16 0,
    .tableLoadEnd 0 4, .slotClose 17 0 0 false, .slotClose 0 16 0 false, .slotClose 0 0 4 false, .skeinBlockDecode 1024 0,
    .skeinBlockDecode 0 64, .retrainStart 448, .retrainEnd 448 0, .retrainEnd 0 3, .chanRetire 17 0, .chanRetire 0 448,
    .chanRetrain 17 0, .chanRetrain 0 448, .memWindowWrite 17 0 0, .memWindowWrite 0 2 0, .memWindowWrite 0 0x2000000 0,
    .memWindowWrite 0 0 (2 ^ 32), .reelRequestIssue 1024 0, .reelReadReturn 1024 0, .reelReadReturn 0 384,
    .reelWriteAck 1024 0, .reelWriteAck 0 128, .quiesceDone 1024, .dmaGo 17 0, .dmaGo 0 128, .dmaStop 17 0, .dmaStop 0 128,
    .dmaAbandon 17 0, .dmaAbandon 0 128, .dmaAssign 17 0 0, .dmaAssign 0 128 0, .dmaAssign 0 0 (2 ^ 32),
    .descriptorFetch 128 [] .ok, .dmaReadComplete 128 [] .ok] : List Instr).all (fun c => !c.wf) = true := by decide +kernel

/-- Further checks. -/
theorem test_wf_refuses_5 : ([
    .idleFlit 12 none, .flitReceive 12 [], .linkCtlNak 12 0, .linkCtlLaneRetire 12 0, .linkCtlLaneRetire 0 4,
    .linkCtlRetrain 12, .linkCtlWake 12, .ackTimeout 12, .portRetrain 17 0, .portRetrain 0 12,
    .portRetrainDone 12 false [] 0 0, .laneRetire 17 0, .laneRetire 0 12, .laneRateCheck 12 0 0 0, .laneRateCheck 0 4 0 0,
    .laneLossOfLock 12 0, .laneLossOfLock 0 4, .laneRestripeDone 12, .portEnable 17 0 false, .portEnable 0 12 false,
    .devIdWrite 17 0, .devIdWrite 0 (2 ^ 32), .remoteWrite 0 4 0 0 0 [] false, .remoteRead 0 4 0 0 0 0,
    .timeFlit 12 0 0 0 0 false, .bellFlit 12 0 0, .rcEnable 17 0 false, .rcEnable 0 16 false,
    .rollCall 12 0 0 ⟨[], false, 0, 0⟩, .rollCallDeadline 16, .rollVerdict 12 0 0 ⟨0, 0, false, none, 0, 0, 0⟩,
    .contribution 0 4 0 0 [] false [], .probe 0 4 0 0 [], .subDelayExpire 1024 0, .subDelayExpire 0 64, .redEnable 17 0 false,
    .redEnable 0 16 false, .reductionDeadline 16, .updatePass1Done 16, .tallyRecord 0 4 0 0 []] : List Instr).all (fun c => !c.wf) = true := by decide +kernel

/-- Further checks. -/
theorem test_wf_refuses_6 : ([
    .tallyDeadline 16, .tallyResult 0 4 0 0 [], .updatePass2Done 16, .param 0 4 0 0 0 [], .sampleStart 76, .sampleDamage 76,
    .sampleDefer 76, .sampleDrop 76, .sampleEnd 76, .tokLoad 17 0 0, .tokLoad 0 16 0, .tokLoad 0 0 4, .tokLoadEnd 16 0,
    .tokLoadEnd 0 4, .tokSlotClose 17 0 0 false, .tokSlotClose 0 16 0 false, .tokSlotClose 0 0 4 false, .entryTake 24,
    .entryEnd 24, .packComplete 2, .blockRowStart 8, .rowCounterPoll 8, .blockRowEnd 8, .chunkEmit 8 0, .ringPoll 8 0,
    .rowsTimeout 8, .ringTimeout 8, .voltageStep 16 0 [], .voltageStep 0 5 [], .eyeScan 448 0, .cardCopy 17, .recessEnter 17,
    .wake 17, .wakeSend 17 0, .wakeSend 0 (2 ^ 32), .bootStageDone 5 ⟨[], [], []⟩, .configRequest 17 none none, .vfFlr 16,
    .sysReset 17 0, .sysReset 0 (2 ^ 32)] : List Instr).all (fun c => !c.wf) = true := by decide +kernel

/-- Further checks. -/
theorem test_wf_refuses_7 : ([
    .keyWrite false 4 [] [], .keyRevoke false 4 [], .flashWrite false 0 (List.replicate 257 0) false,
    .intMaskWrite 17 0 false 0, .intMaskWrite 0 17 false 0, .intMaskWrite 0 0 false (2 ^ 32), .flowPulse 2,
    .msiXVectorUnmask 17 0, .msiXVectorUnmask 0 2048] : List Instr).all (fun c => !c.wf) = true := by decide +kernel

/-- Terms at the ends of their ranges are well formed. -/
theorem test_wf_accepts : ([.registerWrite 16 0x1FFFFFC 0xFFFFFFFF, .deskWindowWrite (deskBase 1024 - 128) (List.replicate 128 0),
    .yarnCreditReturn 1023 3 [15] [15],
      .doorbell 16 16383 4092 0xFFFFFFFF, .forceRel 0 4095, .cfgLoadReservedOp 0 15 7, .reelReadReturn 1023 383,
    .chanRetire 0 447, .dmaGo 16 127, .laneRateCheck 11 3 0 0, .sampleStart 75, .entryTake 23, .packComplete 1, .chunkEmit 7 0,
    .engineFault 121 0, .voltageStep 15 4 [],
      .intMaskWrite 0 16 false 0, .msiXVectorUnmask 16 2047] : List Instr).all Instr.wf = true := by
  decide +kernel

/-! ## The manual's worked examples -/

/-- 05, Example: one FP4 block in BLOCK_MAX. -/
theorem test_fp4_block :
    let vs := [0x40A9999A, 0x40200000, 0xBFC00000, 0x3E4CCCCD].map (elemRaw 0)
    blockMax 6 vs = 0x7F ∧ vs.map (fun v => (conv 6 v).1) = [7, 4, 11, 0] := by decide +kernel

/-- 05, Example: a saturation and the recovery of the scale. The group's record lies at 0x1000, its history 3.1. -/
def group (round code amax ovf hpos hcount : Nat) : Dev :=
  mem (sets rdy [(NUM_SCALE_CTL.HIST, 0, 0), (NUM_SCALE_CTL.HEADROOM, 0, 2), (NUM_SCALE_CTL.OVF_EXTRA, 0, 1)]) 0x1000
    ([0, 3] ++ toLe 1 code ++ toLe 1 hpos ++ toLe 1 hcount ++ [0, 0, 0] ++ toLe 4 round ++ toLe 4 3 ++ toLe 4 amax ++ toLe 1 ovf
      ++ List.replicate 43 0 ++ toLe 4 0x40466666)

theorem test_running_scale :
    ((group 5 0x7A 0x41600000 2 1 1).groupAdvance 0 0x1000 6).rdLe 0x1002 1 = 0x7D
      ∧ ((group 6 0x7D 0x42200000 0 1 1).groupAdvance 0 0x1000 7).rdLe 0x1002 1 = 0x7E := by decide +kernel

/-- 05, Example: a remainder catching a small update: 1.0 and the nine updates of +0.0009, each rounded in the 24-bit float. -/
theorem test_dense_remainder :
    let step := fun (w : Nat) => (storeWeight 1 0 0 (elemRaw 0 (w * 2 ^ 8)) (elemRaw 0 0x3A6BEDFA)).1
    step 0x3F8000 = 0x3F801D ∧ (List.range 9).foldl (fun w _ => step w) 0x3F8000 = 0x3F8105 := by decide +kernel

/-- 10, Example: one activation block: word 0 of its header. -/
theorem test_skein_header :
    ofLe ((skHeader 4096 1536 1 1 0 [48, 48, 48, 48, 48, 48, 48, 48] 0).take 4) = 0xA35FFFFF := by decide +kernel

/-- 16, Example: seven scripts into two rows (Table 16-8). -/
theorem test_pack_rows :
    let p := ([1200, 700, 900, 2300, 500, 148, 1000].zipIdx).foldl (fun (p : Packing) x => p.place 2048 false x.2 x.1 false)
      ⟨[0, 0], [0, 0], [], []⟩
    p = ⟨[2048, 1400], [3, 2], [⟨0, 0, 0, 1, 1200, false⟩, ⟨1, 0, 1200, 2, 700, false⟩, ⟨2, 1, 0, 1, 900, false⟩,
      ⟨4, 1, 900, 2, 500, false⟩, ⟨5, 0, 1900, 3, 148, false⟩], [(3, 0x0931, false), (6, 0x0932, false)]⟩ := by decide +kernel

/-- 18, Example: a weak Spindle at the end of a Term: the weakest two need 8 and 3 steps, and the weakest needs the most. -/
theorem test_steps_needed :
    let d := sets rdy [(AGE_CTL.TARGET_PS, 0, 25)]
    d.stepsFor 0 52 16 = 8 ∧ d.stepsFor 0 84 16 = 3 ∧ largest [(448, 0), (449, 8), (450, 3)] = some ((449, 8), [(448, 0),
      (450, 3)]) := by
  decide +kernel

/-- 17, Example: a scene cut in a live review stream: CBR at 8 Mb/s, 60 frames/s, 1,920 × 1,080, B = 400,000 bits, A_n = 380,000
(0x48B98C00). Its target, its reserve after row 7, and QP 42 for row 8. -/
def cbr : EncStream :=
  { enc with words := [0, 0, 42 * 2 ^ 11, 1920 + 1080 * 2 ^ 16, 60, 1, 8000000, 400000, 0, 128], occ := 0x48B98C00, frames := 1 }

theorem test_scene_cut :
    let f := { encFrame 8 0 .coding with key := false, bits := 262000, qp := 30 }
    cbr.wb = 30 ∧ cbr.hb = 17 ∧ cbr.nChunks = 17 ∧ (cbr.target f).floorInt = 178333 ∧ cbr.l.floorInt = 113333
      ∧ (f.g 270 9).floorInt = 16432 ∧ f.nextQp cbr 0 = 42 ∧ (elemRaw 0 (cbr.after 377948)).floorInt = 135385 := by
  decide +kernel

end Sys2Proof.Tests
end

section
/-! SUPPORT. Where the registers of the window lie (R584): what an element found at an offset says of
it, no two registers of the table at one offset, and the high word of a 64-bit value right above its low word (R9). -/

namespace Sys2Proof.Machine

/-! ## The element at an offset -/

/-- An element found at an offset is one of the register's grid, and it lies there. -/
theorem RegDesc.instAt_eq_some {r : RegDesc} {off i : Nat} (h : r.instAt off = some i) :
    ∃ a b, a ≤ r.count - 1 ∧ b ≤ r.count2 - 1 ∧ i = a * r.count2 + b ∧ off = r.base + a * r.stride + b * r.stride2 := by
  unfold RegDesc.instAt at h
  dsimp only at h
  split at h
  · cases h
  · rename_i hbase
    generalize ha : (if r.stride = 0 then 0 else min ((off - r.base) / r.stride) (r.count - 1)) = a at h
    generalize hb : (if r.stride2 = 0 then 0 else min ((off - r.base - a * r.stride) / r.stride2) (r.count2 - 1)) = b at h
    split at h
    · rename_i hrest
      have hle : a * r.stride ≤ off - r.base := by
        rw [← ha]
        split
        · simp
        · exact Nat.le_trans (Nat.mul_le_mul_right _ (Nat.min_le_left _ _)) (Nat.div_mul_le_self _ _)
      refine ⟨a, b, ?_, ?_, (Option.some.inj h).symm, by omega⟩
      · rw [← ha]
        split <;> omega
      · rw [← hb]
        split <;> omega
    · cases h

/-- The element found at an offset has its address there. -/
theorem RegDesc.addr_of_instAt {r : RegDesc} {off i : Nat} (hc : 0 < r.count2) (h : r.instAt off = some i) :
    r.addr i = off := by
  obtain ⟨a, b, -, hb, rfl, rfl⟩ := RegDesc.instAt_eq_some h
  have hlt : b < r.count2 := by omega
  unfold RegDesc.addr
  rw [Nat.add_comm (a * r.count2), Nat.add_mul_div_right _ _ hc, Nat.div_eq_of_lt hlt, Nat.zero_add,
    Nat.add_mul_mod_self_right, Nat.mod_eq_of_lt hlt]

/-- A register of the same grid four bytes above finds the same element four bytes above. -/
theorem RegDesc.instAt_add_four {r q : RegDesc} (hb : q.base = r.base + 4) (hs : q.stride = r.stride) (hc : q.count = r.count)
    (hs2 : q.stride2 = r.stride2) (hc2 : q.count2 = r.count2) (off : Nat) : q.instAt (off + 4) = r.instAt off := by
  simp only [RegDesc.instAt, hb, hs, hc, hs2, hc2, Nat.add_lt_add_iff_right, Nat.add_sub_add_right]

/-! ## Registers lie apart -/

/-- From the first to the last element of a row of the grid. -/
def RegDesc.rowSpan (r : RegDesc) : Nat := (r.count2 - 1) * r.stride2

/-- From the first to the last element. -/
def RegDesc.span (r : RegDesc) : Nat := (r.count - 1) * r.stride + r.rowSpan

/-- Every element lies at the base modulo this. -/
def RegDesc.pitch (r : RegDesc) : Nat := Nat.gcd r.stride r.stride2

/-- Two registers that meet at no offset: one ends below the other's base, or they keep different remainders modulo a common
divisor of their strides, or the rows of the second stand in the gaps between the rows of the first. -/
def RegDesc.apart (r q : RegDesc) : Bool :=
  decide (r.base + r.span < q.base)
    || decide (r.base % Nat.gcd r.pitch q.pitch ≠ q.base % Nat.gcd r.pitch q.pitch)
    || (decide (r.stride = q.stride) && decide (r.base + r.rowSpan < q.base) && decide (q.base + q.rowSpan < r.base + r.stride))

/-- An element lies within the register's span. -/
theorem RegDesc.le_of_instAt {r : RegDesc} {off i : Nat} (h : r.instAt off = some i) :
    r.base ≤ off ∧ off ≤ r.base + r.span := by
  obtain ⟨a, b, ha, hb, -, rfl⟩ := RegDesc.instAt_eq_some h
  have h1 : a * r.stride ≤ (r.count - 1) * r.stride := Nat.mul_le_mul_right _ ha
  have h2 : b * r.stride2 ≤ r.rowSpan := Nat.mul_le_mul_right _ hb
  unfold RegDesc.span
  omega

/-- An element lies at the base modulo each divisor of the strides. -/
theorem RegDesc.mod_of_instAt {r : RegDesc} {off i m : Nat} (hm : m ∣ r.pitch) (h : r.instAt off = some i) :
    off % m = r.base % m := by
  obtain ⟨a, b, -, -, -, rfl⟩ := RegDesc.instAt_eq_some h
  have h1 : m ∣ a * r.stride := Nat.dvd_mul_left_of_dvd (Nat.dvd_trans hm (Nat.gcd_dvd_left _ _)) a
  have h2 : m ∣ b * r.stride2 := Nat.dvd_mul_left_of_dvd (Nat.dvd_trans hm (Nat.gcd_dvd_right _ _)) b
  obtain ⟨c, hc⟩ := Nat.dvd_add h1 h2
  rw [Nat.add_assoc, hc, Nat.add_mul_mod_self_left]

/-- An element lies within a row. -/
theorem RegDesc.row_of_instAt {r : RegDesc} {off i : Nat} (h : r.instAt off = some i) :
    ∃ a, r.base + a * r.stride ≤ off ∧ off ≤ r.base + a * r.stride + r.rowSpan := by
  obtain ⟨a, b, -, hb, -, rfl⟩ := RegDesc.instAt_eq_some h
  have h2 : b * r.stride2 ≤ r.rowSpan := Nat.mul_le_mul_right _ hb
  exact ⟨a, by omega, by omega⟩

/-- Registers that lie apart have no element at a common offset. -/
theorem RegDesc.not_both_of_apart {r q : RegDesc} {off i j : Nat} (h : r.apart q = true) (hr : r.instAt off = some i)
    (hq : q.instAt off = some j) : False := by
  simp only [RegDesc.apart, Bool.or_eq_true, Bool.and_eq_true, decide_eq_true_eq] at h
  obtain (hspan | hmod) | ⟨⟨hs, hbelow⟩, habove⟩ := h
  · have := RegDesc.le_of_instAt hr
    have := RegDesc.le_of_instAt hq
    omega
  · exact hmod ((RegDesc.mod_of_instAt (Nat.gcd_dvd_left _ _) hr).symm.trans
      (RegDesc.mod_of_instAt (Nat.gcd_dvd_right _ _) hq))
  · obtain ⟨a, hra, hra'⟩ := RegDesc.row_of_instAt hr
    obtain ⟨b, hqb, hqb'⟩ := RegDesc.row_of_instAt hq
    rw [← hs] at hqb hqb'
    obtain hab | hab := Nat.lt_or_ge b a
    · have : (b + 1) * r.stride ≤ a * r.stride := Nat.mul_le_mul_right _ hab
      rw [Nat.succ_mul] at this
      omega
    · have : a * r.stride ≤ b * r.stride := Nat.mul_le_mul_right _ hab
      omega

/-- The registers of the table lie apart, each from every later one. -/
theorem regTable_apart : regTable.Pairwise fun r q => r.apart q = true := by
  decide +kernel

/-- Two registers are one, or they lie apart in one order or the other. -/
def RegDesc.OneOrApart (r q : RegDesc) : Prop := r = q ∨ r.apart q = true ∨ q.apart r = true

/-- Two registers of the table are one or lie apart. -/
theorem regTable_oneOrApart {r q : RegDesc} (hr : r ∈ regTable) (hq : q ∈ regTable) : r.OneOrApart q := by
  refine List.Pairwise.forall_of_forall_of_flip ?diag ?above ?below hr hq
  case diag => exact fun _ _ => Or.inl rfl
  case above => exact regTable_apart.imp fun h => Or.inr (Or.inl h)
  case below => exact regTable_apart.imp fun h => Or.inr (Or.inr h)

/-- At most one register of the table has an element at an offset. -/
theorem regTable_instAt_unique {r q : RegDesc} {off i j : Nat} (hr : r ∈ regTable) (hq : q ∈ regTable)
    (hi : r.instAt off = some i) (hj : q.instAt off = some j) : r = q := by
  obtain h | h | h := regTable_oneOrApart hr hq
  · exact h
  · exact (RegDesc.not_both_of_apart h hi hj).elim
  · exact (RegDesc.not_both_of_apart h hj hi).elim

/-! ## The register at an offset -/

/-- The register at an offset is the one of the table that has an element there. -/
theorem regAt_eq_some {off i : Nat} {r : RegDesc} : regAt off = some (r, i) ↔ r ∈ regTable ∧ r.instAt off = some i := by
  unfold regAt
  constructor
  · intro h
    obtain ⟨q, hq, hqi⟩ := List.exists_of_findSome?_eq_some h
    obtain ⟨j, hj, hqr⟩ := Option.map_eq_some_iff.mp hqi
    cases hqr
    exact ⟨hq, hj⟩
  · rintro ⟨hr, hi⟩
    cases h : regTable.findSome? fun r => (r.instAt off).map fun i => (r, i) with
    | none =>
      have := List.findSome?_eq_none_iff.mp h r hr
      simp [hi] at this
    | some p =>
      obtain ⟨q, hq, hqi⟩ := List.exists_of_findSome?_eq_some h
      obtain ⟨j, hj, rfl⟩ := Option.map_eq_some_iff.mp hqi
      obtain rfl := regTable_instAt_unique hr hq hi hj
      rw [hi] at hj
      cases hj
      rfl

theorem mem_regTable_of_regAt {off i : Nat} {r : RegDesc} (h : regAt off = some (r, i)) : r ∈ regTable :=
  (regAt_eq_some.mp h).1

/-- The register at an offset has its address there. -/
theorem addr_of_regAt {off i : Nat} {r : RegDesc} (h : regAt off = some (r, i)) : r.addr i = off := by
  obtain ⟨hr, hi⟩ := regAt_eq_some.mp h
  have hrows : ∀ q ∈ regTable, 0 < q.count2 := by decide +kernel
  exact RegDesc.addr_of_instAt (hrows r hr) hi

/-! ## The two words of a 64-bit value -/

/-- Every low word of the table has a high word of the same grid right above it (R9). -/
theorem regTable_low_high : ∀ r ∈ regTable, r.half = .low → ∃ h ∈ regTable, h.half = .high ∧ h.base = r.base + 4
    ∧ h.stride = r.stride ∧ h.count = r.count ∧ h.stride2 = r.stride2 ∧ h.count2 = r.count2 := by
  decide +kernel

/-- Right above a low word lies the high word with the same index. -/
theorem regAt_high_of_low {off i : Nat} {r : RegDesc} (h : regAt off = some (r, i)) (hlow : r.half = .low) :
    ∃ q, regAt (off + 4) = some (q, i) ∧ q.half = .high := by
  obtain ⟨hr, hi⟩ := regAt_eq_some.mp h
  obtain ⟨q, hq, hhigh, hb, hs, hc, hs2, hc2⟩ := regTable_low_high r hr hlow
  refine ⟨q, regAt_eq_some.mpr ⟨hq, ?_⟩, hhigh⟩
  rw [RegDesc.instAt_add_four hb hs hc hs2 hc2, hi]

theorem lowHalf_iff {off : Nat} : lowHalf off = true ↔ ∃ r i, regAt off = some (r, i) ∧ r.half = .low := by
  unfold lowHalf
  cases regAt off with
  | none => simp
  | some p =>
    obtain ⟨r, i⟩ := p
    simp

theorem heldLow_iff {off : Nat} : heldLow off = true ↔ ∃ r i, regAt off = some (r, i) ∧ r.half = .low ∧ r.rw ≠ 0 := by
  unfold heldLow
  cases regAt off with
  | none => simp
  | some p =>
    obtain ⟨r, i⟩ := p
    simp

theorem heldLow_of_regAt {off i : Nat} {r : RegDesc} (h : regAt off = some (r, i)) :
    heldLow off = (r.half == .low && r.rw != 0) := by
  unfold heldLow
  rw [h]

/-- No low word lies right above a low word. -/
theorem lowHalf_add_four {off : Nat} (h : lowHalf off = true) : lowHalf (off + 4) = false := by
  obtain ⟨r, i, hr, hlow⟩ := lowHalf_iff.mp h
  obtain ⟨q, hq, hhigh⟩ := regAt_high_of_low hr hlow
  simp [lowHalf, hq, hhigh]

end Sys2Proof.Machine
end

section
/-! SUPPORT. What a host access leaves of the device and of what the register window keeps for each function (R8 to R10): one
equation per outcome of an access, for writes and for reads. -/

namespace Sys2Proof.Machine

/-! ## The meanings of the accesses -/

@[simp] theorem exec_registerWrite (fn off val : Nat) (s : State) :
    exec (.registerWrite fn off val) s = .next (s.regWrite fn off val) := rfl

@[simp] theorem exec_rcRead (fn off : Nat) (s : State) : exec (.rcRead fn off) s = .next (s.regRead fn off) := rfl

@[simp] theorem exec_lowWordRead (fn off : Nat) (s : State) :
    exec (.lowWordRead fn off) s = .next (if lowHalf off then s.regRead fn off else s) := rfl

/-- The accesses that reach no register touch nothing that the register window keeps. -/
theorem exec_otherAccess_fns (s : State) (fn q off val : Nat) (w : Bool) (err : WordError) (bs : List (BitVec 8)) (c : Instr)
    (hc : c ∈ [Instr.doorbell fn q off val, .deskWindowRead off err, .deskWindowWrite off bs, .narrowAccess fn off w]) :
    ∃ t, exec c s = .next t ∧ t.fns = s.fns := by
  simp only [List.mem_cons, List.not_mem_nil, or_false] at hc
  obtain rfl | rfl | rfl | rfl := hc <;> exact ⟨_, rfl, rfl⟩

/-- CFG_LOAD is a write of the register window: it leaves nothing of what the window keeps for the function. -/
theorem exec_cfgLoad_fnSt (s : State) (fn r : Nat) (h : s.dev.window fn = true) :
    ∃ t, exec (.cfgLoad fn r) s = .next t ∧ t.fnSt fn = FnState.init := by
  refine ⟨_, rfl, ?_⟩
  simp [State.fnSt, h]

/-! ## What is served -/

/-- An access that is served is of a function that reaches its window. -/
theorem Dev.window_of_served {d : Dev} {fn off : Nat} (h : d.windowServed fn off = true) : d.window fn = true := by
  unfold Dev.windowServed at h
  exact (Bool.and_eq_true_iff.mp h).1

theorem Dev.isLow_iff {d : Dev} {fn off i : Nat} {r : RegDesc} (hr : regAt off = some (r, i)) :
    d.isLow fn off = true ↔ d.windowServed fn off = true ∧ r.half = .low ∧ d.reach r.vread fn r i = true := by
  simp [Dev.isLow, hr]

theorem Dev.isLow_of_regAt_ne_low {d : Dev} {fn off i : Nat} {r : RegDesc} (hr : regAt off = some (r, i)) (h : r.half ≠ .low) :
    d.isLow fn off = false := by
  simp [Dev.isLow, hr, h]

/-- The value that a read of a register returns where the function reaches it. -/
theorem Dev.readAt_reached {d : Dev} {fn off i : Nat} {r : RegDesc} (hs : d.windowServed fn off = true)
    (hr : regAt off = some (r, i)) (hreach : d.reach r.vread fn r i = true) : d.readAt fn off = d.shown r i := by
  simp [Dev.readAt, hs, hr, hreach]

/-- SYS_RESET is no half of a 64-bit value: a write of a low word does not reset the device. -/
theorem resets_of_heldLow {fn off val : Nat} (h : heldLow off = true) : resets fn off val = false := by
  have hne : off ≠ SYS_RESET.base := by
    rintro rfl
    have : heldLow SYS_RESET.base = false := by decide +kernel
    rw [this] at h
    cases h
  simp [resets, hne]

/-! ## A write -/

/-- A write of a function without a window, and an unaligned one, counts as no access and changes no register. -/
theorem State.regWrite_unaligned (s : State) (fn off val : Nat) (h : off % 4 ≠ 0) :
    (s.regWrite fn off val).fns = s.fns ∧ (s.regWrite fn off val).dev.regs = s.dev.regs := by
  unfold State.regWrite
  rw [if_pos h]
  split <;> exact ⟨rfl, rfl⟩

/-- What an aligned write does to the device. -/
theorem State.regWrite_dev {s : State} {fn off : Nat} (val : Nat) (hw : s.dev.window fn = true) (ha : off % 4 = 0) :
    (s.regWrite fn off val).dev =
      if s.dev.windowServed fn off then s.dev.writeAt fn off (val % 2 ^ 32) (s.fnSt fn).held else s.dev := by
  simp [State.regWrite, hw, ha]

/-- An aligned write leaves the function no snapshot, and of held low words the one that it is itself. -/
theorem State.regWrite_fnSt_same {s : State} {fn off : Nat} (val : Nat) (hw : s.dev.window fn = true) (ha : off % 4 = 0) :
    (s.regWrite fn off val).fnSt fn =
      ⟨none, if s.dev.windowServed fn off && heldLow off then some (off, val % 2 ^ 32) else none⟩ := by
  by_cases hreset : (s.dev.windowServed fn off && resets fn off val) = true
  · have hlow : heldLow off = false := by
      cases hl : heldLow off with
      | false => rfl
      | true => simp [resets_of_heldLow hl] at hreset
    simp [State.regWrite, State.fnSt, hw, ha, hreset, hlow, tget, FnState.init]
  · simp [State.regWrite, State.fnSt, hw, ha, hreset]

/-- A write that does not reset the device leaves the other functions what they have. -/
theorem State.regWrite_fnSt_ne (s : State) {fn g off val : Nat} (hg : g ≠ fn) (hr : resets fn off val = false) :
    (s.regWrite fn off val).fnSt g = s.fnSt g := by
  unfold State.regWrite
  split
  · rfl
  · split
    · rfl
    · simp [State.fnSt, hr, tget_tset_ne _ _ _ _ _ hg]

/-! ## A read -/

/-- A read of a function without a window, and an unaligned one, counts as no access and changes no register. -/
theorem State.regRead_unaligned (s : State) (fn off : Nat) (h : off % 4 ≠ 0) :
    (s.regRead fn off).fns = s.fns ∧ (s.regRead fn off).dev.regs = s.dev.regs := by
  unfold State.regRead
  rw [if_pos h]
  split <;> exact ⟨rfl, rfl⟩

/-- An aligned read leaves the function the snapshot of a low word that it read, and what was held. -/
theorem State.regRead_fnSt_same {s : State} {fn off : Nat} (hw : s.dev.window fn = true) (ha : off % 4 = 0) :
    (s.regRead fn off).fnSt fn =
      ⟨if s.dev.isLow fn off then some (off + 4, s.dev.readAt fn (off + 4)) else none, (s.fnSt fn).held⟩ := by
  simp [State.regRead, State.fnSt, hw, ha]

/-- A read leaves the other functions what they have. -/
theorem State.regRead_fnSt_ne (s : State) {fn g : Nat} (off : Nat) (hg : g ≠ fn) :
    (s.regRead fn off).fnSt g = s.fnSt g := by
  unfold State.regRead
  split
  · rfl
  · split
    · rfl
    · simp [State.fnSt, tget_tset_ne _ _ _ _ _ hg]

/-- A read leaves every function the low word that is held for it. -/
theorem State.regRead_held (s : State) (fn g off : Nat) : ((s.regRead fn off).fnSt g).held = (s.fnSt g).held := by
  by_cases hg : g = fn
  · subst hg
    unfold State.regRead
    split
    · rfl
    · split
      · rfl
      · simp [State.fnSt]
  · rw [State.regRead_fnSt_ne s off hg]

/-- What an aligned read does to the device where no snapshot is of its offset: it returns the live value. -/
theorem State.regRead_dev_live {s : State} {fn off : Nat} (hw : s.dev.window fn = true) (ha : off % 4 = 0)
    (hsnap : ∀ h, (s.fnSt fn).snapshot ≠ some (off, h)) :
    (s.regRead fn off).dev = (s.dev.readClears fn off).send (.readData fn (s.dev.readAt fn off)) := by
  cases hx : (s.fnSt fn).snapshot with
  | none => simp [State.regRead, hw, ha, hx]
  | some p =>
    obtain ⟨o, h⟩ := p
    have ho : o ≠ off := by
      rintro rfl
      exact hsnap h hx
    simp [State.regRead, hw, ha, hx, ho]

/-- What an aligned read does to the device where the snapshot is of its offset: it returns the snapshot's half. -/
theorem State.regRead_dev_snapshot {s : State} {fn off h : Nat} (hw : s.dev.window fn = true) (ha : off % 4 = 0)
    (hsnap : (s.fnSt fn).snapshot = some (off, h)) :
    (s.regRead fn off).dev = (s.dev.readClears fn off).send (.readData fn h) := by
  simp [State.regRead, hw, ha, hsnap]

/-! ## What a read clears -/

/-- A read of a high word clears nothing (R9). -/
theorem Dev.readClears_high (d : Dev) {fn off i : Nat} {r : RegDesc} (hr : regAt off = some (r, i)) (h : r.half = .high) :
    d.readClears fn off = d := by
  simp [Dev.readClears, hr, h]

/-- A read of a register without RC bits clears nothing. -/
theorem Dev.readClears_of_rc_zero (d : Dev) {fn off i : Nat} {r : RegDesc} (hr : regAt off = some (r, i)) (h : r.rc = 0) :
    d.readClears fn off = d := by
  simp [Dev.readClears, hr, h]

/-- A read clears registers alone: memory and what has been sent stay. -/
theorem Dev.readClears_kept (d : Dev) (fn off : Nat) : ∃ x, d.readClears fn off = { d with regs := x } := by
  unfold Dev.readClears
  split
  · exact ⟨d.regs, rfl⟩
  · split
    · split
      · exact ⟨d.regs, rfl⟩
      · dsimp only
        split <;> exact ⟨_, rfl⟩
    · exact ⟨d.regs, rfl⟩

@[simp] theorem Dev.readClears_mem (d : Dev) (fn off : Nat) : (d.readClears fn off).mem = d.mem := by
  obtain ⟨x, h⟩ := d.readClears_kept fn off
  rw [h]

@[simp] theorem Dev.readClears_out (d : Dev) (fn off : Nat) : (d.readClears fn off).out = d.out := by
  obtain ⟨x, h⟩ := d.readClears_kept fn off
  rw [h]

/-- A read of a single register with RC bits clears them. -/
theorem Dev.readClears_single {d : Dev} {fn off i : Nat} {r : RegDesc} (hs : d.windowServed fn off = true)
    (hr : regAt off = some (r, i)) (hreach : d.reach r.vread fn r i = true) (hh : r.half = .single) (hrc : r.rc ≠ 0) :
    d.readClears fn off = d.wr r i (d.rd r i &&& (0xFFFFFFFF ^^^ r.rc)) := by
  simp [Dev.readClears, hs, hr, hreach, hh, hrc]

/-- The RC bits of a 64-bit value are all of its bits. -/
theorem regTable_low_rc : ∀ r ∈ regTable, r.half = .low → r.rc = 0 ∨ r.rc = 0xFFFFFFFF := by
  decide +kernel

/-- A read of the low word of a 64-bit RC value clears both words. -/
theorem Dev.readClears_low {d : Dev} {fn off i : Nat} {r : RegDesc} (hl : d.isLow fn off = true) (hr : regAt off = some (r, i))
    (hrc : r.rc ≠ 0) : d.readClears fn off = (d.wrOff off 0).wrOff (off + 4) 0 := by
  obtain ⟨hs, hlow, hreach⟩ := (Dev.isLow_iff hr).mp hl
  have hall : r.rc = 0xFFFFFFFF := (regTable_low_rc r (mem_regTable_of_regAt hr) hlow).resolve_left hrc
  simp [Dev.readClears, hs, hr, hreach, hlow, hall, Dev.wr, addr_of_regAt hr]

end Sys2Proof.Machine
end

section
/-! SUPPORT. What a write does to a register that has no action of its own (R11), and how the two words of a 64-bit RW value take
effect (R10). -/

namespace Sys2Proof.Machine

/-! ## A register that a write stores -/

/-- The value of a register after a write of `v` by its access types alone (R11). -/
def storedOver (r : RegDesc) (old v : Nat) : Nat :=
  (old &&& (0xFFFFFFFF ^^^ (r.rw ||| (v &&& r.w1c)))) ||| (stored r (v &&& r.rw) &&& r.rw)

/-- The RW bits of a register lie within its word. -/
theorem regTable_rw_lt : ∀ r ∈ regTable, r.rw < 2 ^ 32 := by
  decide +kernel

theorem Dev.rd_storeReg_same (d : Dev) {r : RegDesc} (i v : Nat) (hr : r ∈ regTable) :
    (d.storeReg r i v).rd r i = storedOver r (d.rd r i) v := by
  have hlt : storedOver r (d.rd r i) v < 2 ^ 32 :=
    Nat.or_lt_two_pow (Nat.lt_of_le_of_lt Nat.and_le_left (d.rd_lt r i))
      (Nat.lt_of_le_of_lt Nat.and_le_right (regTable_rw_lt r hr))
  rw [Dev.storeReg, Dev.rd_wr_same]
  exact Nat.mod_eq_of_lt hlt

theorem Dev.rd_storeReg_ne (d : Dev) {r q : RegDesc} {i j : Nat} (v : Nat) (h : q.addr j ≠ r.addr i) :
    (d.storeReg r i v).rd q j = d.rd q j :=
  d.rd_wr_ne r q i j _ h

theorem Dev.get_storeReg_ne (d : Dev) {r : RegDesc} {f : Field} {i j : Nat} (v : Nat) (h : f.reg.addr j ≠ r.addr i) :
    (d.storeReg r i v).get f j = d.get f j :=
  d.get_wr_ne r f i j _ h

@[simp] theorem Dev.storeReg_mem (d : Dev) (r : RegDesc) (i v : Nat) : (d.storeReg r i v).mem = d.mem := rfl

/-- A write of a register changes no other offset. -/
theorem Dev.regsKept_storeReg (d : Dev) (r : RegDesc) (i v : Nat) : RegsKept d (d.storeReg r i v) [r.addr i] := by
  intro off hoff
  exact d.rdOff_wrOff_ne (r.addr i) off _ (by simpa using hoff)

/-- What is kept outside some offsets and then outside others is kept outside them all. -/
theorem RegsKept.trans {d e f : Dev} {l m : List Nat} (h : RegsKept d e l) (k : RegsKept e f m) : RegsKept d f (l ++ m) := by
  intro off hoff
  rw [List.mem_append, not_or] at hoff
  rw [k off hoff.2, h off hoff.1]

/-! ## Writes that reach a register without an action of its own -/

theorem base_ne_of_plainReg {r : RegDesc} (h : plainReg r = true) : ∀ x ∈ actionRegs, r.base ≠ x.base := by
  intro x hx hb
  have := List.all_eq_true.mp h x hx
  simp [hb] at this

theorem isWindow_of_plainReg {r : RegDesc} (h : plainReg r = true) : isWindow r = false := by
  have hne := base_ne_of_plainReg h
  simp only [actionRegs, List.forall_mem_cons] at hne
  simp [isWindow, hne, Ne.symm]

/-- A write of a register without an action of its own stores the value; SEM_ACL, whose write also tests the waiters of the
semaphore (log 182), stands apart. -/
theorem Dev.writeReg_plain (d : Dev) (fn : Nat) {r : RegDesc} (i v : Nat) (h : plainReg r = true)
    (hacl : r.base ≠ SEM_ACL.base) : d.writeReg fn r i v = d.storeReg r i v := by
  have hne := base_ne_of_plainReg h
  simp only [actionRegs, List.forall_mem_cons] at hne
  simp [Dev.writeReg, isWindow_of_plainReg h, hne, hacl]

theorem Dev.hostWrite_plain (d : Dev) {fn : Nat} {r : RegDesc} {i : Nat} (v : Nat) (h : plainReg r = true)
    (hacl : r.base ≠ SEM_ACL.base) (hreach : d.reach r.vwrite fn r i = true) :
    d.hostWrite fn r i v = d.storeReg r i v := by
  rw [Dev.hostWrite, if_pos hreach, Dev.writeReg_plain d fn i v h hacl]

/-- SEM_ACL is no half of a 64-bit value. -/
theorem regTable_half_not_acl : ∀ r ∈ regTable, r.half ≠ .single → r.base ≠ SEM_ACL.base := by
  decide +kernel

/-! ## The two words of a 64-bit RW value -/

/-- A virtual function reaches the high word of a plain 64-bit RW value by its Room, by its DMA channel, or not at all. -/
theorem regTable_high_vwrite : ∀ r ∈ regTable, r.half = .high → r.rw ≠ 0 → plainReg r = true →
    r.vwrite = .none ∨ r.vwrite = .room ∨ r = DMA_CH_NEXT_HI := by
  decide +kernel

/-- The write of the low word does not change what reaches the high word above it. -/
theorem Dev.reach_high_storeReg_low (d : Dev) {fn i : Nat} (v : Nat) {lo hi : RegDesc} (hmem : hi ∈ regTable)
    (hhigh : hi.half = .high) (hrw : hi.rw ≠ 0) (hplain : plainReg hi = true) (hadj : hi.addr i = lo.addr i + 4) :
    (d.storeReg lo i v).reach hi.vwrite fn hi i = d.reach hi.vwrite fn hi i := by
  obtain hnone | hroom | rfl := regTable_high_vwrite hi hmem hhigh hrw hplain
  · simp [Dev.reach, hnone]
  · simp [Dev.reach, hroom]
  · have hctl : DMA_CH_CTL.addr i ≠ lo.addr i := by
      have hlo : lo.addr i + 4 = 0x1100008 + i * 0x40 := by
        rw [← hadj]
        simp [RegDesc.addr, DMA_CH_NEXT_HI, Nat.mod_one]
      simp only [RegDesc.addr, DMA_CH_CTL, Nat.div_one, Nat.mod_one] at hlo ⊢
      omega
    have hget : ∀ f : Field, f.reg = DMA_CH_CTL → (d.storeReg lo i v).get f i = d.get f i := by
      intro f hf
      exact d.get_storeReg_ne v (hf ▸ hctl)
    simp only [Dev.reach, DMA_CH_NEXT_HI, Dev.dmaReach, Dev.dmaFn, hget DMA_CH_CTL.ROOM_EN rfl, hget DMA_CH_CTL.ROOM rfl]

/-- Both words of a plain 64-bit RW value take effect: each is stored. -/
theorem Dev.writeBoth_plain (d : Dev) {fn i w v : Nat} {lo hi : RegDesc} (hlo : lo ∈ regTable) (hhi : hi ∈ regTable)
    (hlow : lo.half = .low) (hhigh : hi.half = .high) (hrw : hi.rw ≠ 0) (hplo : plainReg lo = true) (hphi : plainReg hi = true)
    (hreachLo : d.reach lo.vwrite fn lo i = true) (hreachHi : d.reach hi.vwrite fn hi i = true)
    (hadj : hi.addr i = lo.addr i + 4) : d.writeBoth fn lo hi i w v = (d.storeReg lo i w).storeReg hi i v := by
  have haclLo := regTable_half_not_acl lo hlo (by simp [hlow])
  have haclHi := regTable_half_not_acl hi hhi (by simp [hhigh])
  have hreach := (d.reach_high_storeReg_low w hhi hhigh hrw hphi hadj).trans hreachHi
  rw [Dev.writeBoth, isWindow_of_plainReg hplo, if_neg (by decide), Dev.hostWrite_plain d w hplo haclLo hreachLo,
    Dev.hostWrite_plain _ v hphi haclHi hreach]

/-! ## A write at an offset -/

/-- A low word of a 64-bit RW value changes nothing of the device (R10). -/
theorem Dev.writeAt_heldLow (d : Dev) {fn off : Nat} (v : Nat) (held : Option (Nat × Nat)) (h : heldLow off = true) :
    d.writeAt fn off v held = d := by
  obtain ⟨r, i, hr, hlow, hrw⟩ := heldLow_iff.mp h
  simp [Dev.writeAt, hr, hlow, hrw]

/-- A high word with its low word held takes effect with it (R10). -/
theorem Dev.writeAt_high (d : Dev) {fn off w v i : Nat} {lo hi : RegDesc} (hlo : regAt off = some (lo, i))
    (hhi : regAt (off + 4) = some (hi, i)) (hhigh : hi.half = .high) (hrw : hi.rw ≠ 0) :
    d.writeAt fn (off + 4) v (some (off, w)) = d.writeBoth fn lo hi i w v := by
  simp [Dev.writeAt, hhi, hhigh, hlo, hrw]

/-- A held low word of another value has no effect (R10). -/
theorem Dev.writeAt_held_elsewhere (d : Dev) {fn off o w v : Nat} (h : o + 4 ≠ off) :
    d.writeAt fn off v (some (o, w)) = d.writeAt fn off v none := by
  unfold Dev.writeAt
  cases regAt off with
  | none => rfl
  | some p =>
    obtain ⟨r, i⟩ := p
    dsimp only
    split
    · rfl
    · cases r.half with
      | single => rfl
      | low => rfl
      | high =>
        cases regAt (off - 4) with
        | none => rfl
        | some q => simp [h]

end Sys2Proof.Machine
end

section
/-! The obligations on held low words, snapshots and reads (R8 to R11). -/

namespace Sys2Proof.Machine

/-! ## A held low word (R10) -/

/-- A write of a low word is held and changes nothing of the device. -/
theorem State.regWrite_heldLow (s : State) {fn off : Nat} (val : Nat) (hs : s.dev.windowServed fn off = true)
    (ha : off % 4 = 0) (hl : heldLow off = true) :
    (s.regWrite fn off val).dev = s.dev ∧ ((s.regWrite fn off val).fnSt fn).held = some (off, val % 2 ^ 32) := by
  have hw := Dev.window_of_served hs
  rw [State.regWrite_dev val hw ha, State.regWrite_fnSt_same val hw ha]
  simp [hs, hl, Dev.writeAt_heldLow]

/-- A write of the high word makes both words take effect and leaves nothing held. -/
theorem State.regWrite_high (s : State) {fn off w i : Nat} (val : Nat) {lo hi : RegDesc}
    (hs : s.dev.windowServed fn (off + 4) = true) (ha : off % 4 = 0) (hlo : regAt off = some (lo, i))
    (hhi : regAt (off + 4) = some (hi, i)) (hhigh : hi.half = .high) (hrw : hi.rw ≠ 0)
    (hheld : (s.fnSt fn).held = some (off, w)) :
    (s.regWrite fn (off + 4) val).dev = s.dev.writeBoth fn lo hi i w (val % 2 ^ 32)
      ∧ ((s.regWrite fn (off + 4) val).fnSt fn).held = none := by
  have hw := Dev.window_of_served hs
  have ha4 : (off + 4) % 4 = 0 := by omega
  have hnotlow : heldLow (off + 4) = false := by simp [heldLow_of_regAt hhi, hhigh]
  rw [State.regWrite_dev val hw ha4, State.regWrite_fnSt_same val hw ha4]
  simp [hs, hnotlow, hheld, Dev.writeAt_high s.dev hlo hhi hhigh hrw]

/-- Two plain words that take effect together: each is stored over its old value, and nothing else changes. -/
theorem Dev.writeBoth_plain_effect (d : Dev) {fn i w v : Nat} {lo hi : RegDesc} (hlo : lo ∈ regTable) (hhi : hi ∈ regTable)
    (hlow : lo.half = .low) (hhigh : hi.half = .high) (hrw : hi.rw ≠ 0) (hplo : plainReg lo = true) (hphi : plainReg hi = true)
    (hreachLo : d.reach lo.vwrite fn lo i = true) (hreachHi : d.reach hi.vwrite fn hi i = true)
    (hadj : hi.addr i = lo.addr i + 4) :
    (d.writeBoth fn lo hi i w v).rd lo i = storedOver lo (d.rd lo i) w
      ∧ (d.writeBoth fn lo hi i w v).rd hi i = storedOver hi (d.rd hi i) v
      ∧ RegsKept d (d.writeBoth fn lo hi i w v) [lo.addr i, hi.addr i]
      ∧ (d.writeBoth fn lo hi i w v).mem = d.mem := by
  rw [Dev.writeBoth_plain d hlo hhi hlow hhigh hrw hplo hphi hreachLo hreachHi hadj]
  refine ⟨?_, ?_, (d.regsKept_storeReg lo i w).trans (Dev.regsKept_storeReg _ hi i v), rfl⟩
  · rw [Dev.rd_storeReg_ne _ v (by omega), Dev.rd_storeReg_same d i w hlo]
  · rw [Dev.rd_storeReg_same _ i v hhi, Dev.rd_storeReg_ne d w (by omega)]

/-- A write at another offset discards what is held: the device is as if nothing had been. -/
theorem State.regWrite_discards {s s' : State} {fn off o w : Nat} (val : Nat) (hw : s.dev.window fn = true) (ha : off % 4 = 0)
    (hheld : (s.fnSt fn).held = some (o, w)) (ho : o + 4 ≠ off) (hdev : s'.dev = s.dev)
    (hnone : (s'.fnSt fn).held = none) : (s'.regWrite fn off val).dev = (s.regWrite fn off val).dev := by
  rw [State.regWrite_dev val (hdev ▸ hw) ha, State.regWrite_dev val hw ha, hdev, hnone, hheld,
    Dev.writeAt_held_elsewhere s.dev ho]

end Sys2Proof.Machine

open Sys2Proof Sys2Proof.Machine

/-- Settles O6: each clause is what a write or a read of the register window leaves held. -/
theorem heldLowWord : Obligations.HeldLowWord := by
  unfold Obligations.HeldLowWord
  refine ⟨?low, ?high, ?discard, ?cfg, ?read, ?other, ?unaligned, ?foreign⟩
  case low =>
    intro s fn off val hs ha hl
    exact ⟨_, exec_registerWrite fn off val s, s.regWrite_heldLow val hs ha hl⟩
  case high =>
    intro s fn off w val i lo hi hs ha hlo hhi hlow hhigh _ hrw hheld
    obtain ⟨hdev, hnone⟩ := s.regWrite_high val hs ha hlo hhi hhigh hrw hheld
    refine ⟨_, exec_registerWrite fn (off + 4) val s, hdev, hnone, ?_⟩
    intro hplo hphi hreachLo hreachHi haddrLo haddrHi
    rw [hdev, ← haddrHi, ← haddrLo]
    exact s.dev.writeBoth_plain_effect (mem_regTable_of_regAt hlo) (mem_regTable_of_regAt hhi) hlow hhigh hrw hplo hphi
      hreachLo hreachHi (by omega)
  case discard =>
    intro s fn off val o w hw ha hheld ho
    refine ⟨_, exec_registerWrite fn off val s, by rw [State.regWrite_fnSt_same val hw ha], ?_⟩
    intro s' u hdev hnone hu
    rw [exec_registerWrite] at hu
    cases hu
    exact State.regWrite_discards val hw ha hheld ho hdev hnone
  case cfg =>
    intro s fn r hw
    obtain ⟨t, ht, hfn⟩ := exec_cfgLoad_fnSt s fn r hw
    exact ⟨t, ht, by rw [hfn]; rfl⟩
  case read =>
    intro s fn g off c hc
    simp only [List.mem_cons, List.not_mem_nil, or_false] at hc
    obtain rfl | rfl := hc
    · exact ⟨_, exec_rcRead fn off s, s.regRead_held fn g off⟩
    · refine ⟨_, exec_lowWordRead fn off s, ?_⟩
      split
      · exact s.regRead_held fn g off
      · rfl
  case other => exact exec_otherAccess_fns
  case unaligned =>
    intro s fn off val ha
    exact ⟨_, exec_registerWrite fn off val s, s.regWrite_unaligned fn off val ha⟩
  case foreign =>
    intro s fn g off val hg hr
    exact ⟨_, exec_registerWrite fn off val s, by rw [s.regWrite_fnSt_ne hg hr]⟩

namespace Sys2Proof.Machine

/-! ## A snapshot (R9) -/

/-- A lawful snapshot is of the word right above a low word. -/
theorem FnState.lowHalf_of_lawful {x : FnState} {o h : Nat} (hx : x.lawful = true) (hsnap : x.snapshot = some (o, h)) :
    ∃ off, o = off + 4 ∧ lowHalf off = true := by
  simp only [FnState.lawful, hsnap, Bool.and_eq_true, decide_eq_true_eq] at hx
  obtain ⟨⟨ho, hlow⟩, -⟩ := hx
  exact ⟨o - 4, by omega, hlow⟩

/-- No lawful snapshot is of a low word. -/
theorem FnState.snapshot_ne_of_lowHalf {x : FnState} {off : Nat} (hx : x.lawful = true) (hlow : lowHalf off = true) (h : Nat) :
    x.snapshot ≠ some (off, h) := by
  intro hsnap
  obtain ⟨o, rfl, ho⟩ := FnState.lowHalf_of_lawful hx hsnap
  rw [lowHalf_add_four ho] at hlow
  cases hlow

/-- The offset of a lawful snapshot is of a high word. -/
theorem FnState.high_of_lawful {x : FnState} {off h : Nat} (hx : x.lawful = true) (hsnap : x.snapshot = some (off, h)) :
    ∃ r i, regAt off = some (r, i) ∧ r.half = .high := by
  obtain ⟨o, rfl, ho⟩ := FnState.lowHalf_of_lawful hx hsnap
  obtain ⟨r, i, hr, hlow⟩ := lowHalf_iff.mp ho
  obtain ⟨q, hq, hhigh⟩ := regAt_high_of_low hr hlow
  exact ⟨q, i, hq, hhigh⟩

/-- A read of a low word returns it, takes the snapshot of the word above, and clears both words of an RC value. -/
theorem State.regRead_low (s : State) {fn off i : Nat} {r : RegDesc} (ha : off % 4 = 0) (hl : s.dev.isLow fn off = true)
    (hx : (s.fnSt fn).lawful = true) (hr : regAt off = some (r, i)) :
    (s.regRead fn off).dev.out = .readData fn (s.dev.readAt fn off) :: s.dev.out
      ∧ ((s.regRead fn off).fnSt fn).snapshot = some (off + 4, s.dev.readAt fn (off + 4))
      ∧ (s.regRead fn off).dev.mem = s.dev.mem
      ∧ (if r.rc = 0 then (s.regRead fn off).dev.regs = s.dev.regs
         else (s.regRead fn off).dev.rdOff off = 0 ∧ (s.regRead fn off).dev.rdOff (off + 4) = 0
           ∧ RegsKept s.dev (s.regRead fn off).dev [off, off + 4]) := by
  obtain ⟨hs, hlow, -⟩ := (Dev.isLow_iff hr).mp hl
  have hw := Dev.window_of_served hs
  have hne := FnState.snapshot_ne_of_lowHalf hx (lowHalf_iff.mpr ⟨r, i, hr, hlow⟩)
  rw [State.regRead_dev_live hw ha hne, State.regRead_fnSt_same hw ha, hl]
  refine ⟨by simp [Dev.send], by simp, by simp, ?_⟩
  split
  · rename_i hrc
    rw [Dev.readClears_of_rc_zero _ hr hrc]
    rfl
  · rename_i hrc
    rw [Dev.readClears_low hl hr hrc]
    refine ⟨(Dev.rdOff_wrOff_ne _ _ _ _ (by omega)).trans (Dev.rdOff_wrOff_same _ _ _), Dev.rdOff_wrOff_same _ _ _, ?_⟩
    intro k hk
    simp only [List.mem_cons, List.not_mem_nil, or_false, not_or] at hk
    exact (Dev.rdOff_wrOff_ne _ _ _ _ hk.2).trans (Dev.rdOff_wrOff_ne _ _ _ _ hk.1)

/-- A read of the high word of a lawful snapshot returns the snapshot's half, clears nothing and ends the snapshot. -/
theorem State.regRead_snapshot (s : State) {fn off h : Nat} (hw : s.dev.window fn = true) (ha : off % 4 = 0)
    (hsnap : (s.fnSt fn).snapshot = some (off, h)) (hx : (s.fnSt fn).lawful = true) :
    (s.regRead fn off).dev = s.dev.send (.readData fn h) ∧ ((s.regRead fn off).fnSt fn).snapshot = none := by
  obtain ⟨r, i, hr, hhigh⟩ := FnState.high_of_lawful hx hsnap
  rw [State.regRead_dev_snapshot hw ha hsnap, State.regRead_fnSt_same hw ha, Dev.readClears_high _ hr hhigh,
    Dev.isLow_of_regAt_ne_low hr (by simp [hhigh])]
  exact ⟨rfl, rfl⟩

/-- A read of a high word without a snapshot of it returns the live one, clears nothing and ends the snapshot. -/
theorem State.regRead_high_live (s : State) {fn off i : Nat} {r : RegDesc} (hw : s.dev.window fn = true) (ha : off % 4 = 0)
    (hr : regAt off = some (r, i)) (hhigh : r.half = .high) (hsnap : ∀ h, (s.fnSt fn).snapshot ≠ some (off, h)) :
    (s.regRead fn off).dev = s.dev.send (.readData fn (s.dev.readAt fn off))
      ∧ ((s.regRead fn off).fnSt fn).snapshot = none := by
  rw [State.regRead_dev_live hw ha hsnap, State.regRead_fnSt_same hw ha, Dev.readClears_high _ hr hhigh,
    Dev.isLow_of_regAt_ne_low hr (by simp [hhigh])]
  exact ⟨rfl, rfl⟩

end Sys2Proof.Machine

/-- Settles O7: the register table pairs the words, and each other clause is what an access leaves of the snapshot. -/
theorem snapshotReads : Obligations.SnapshotReads := by
  unfold Obligations.SnapshotReads
  refine ⟨regTable_low_high, ?low, ?snapshot, ?live, ?ends, ?other, ?unaligned, ?foreign⟩
  case low =>
    intro s fn off i r c ha hl hx hr hc
    obtain ⟨-, hlow, -⟩ := (Dev.isLow_iff hr).mp hl
    have hexec : exec c s = .next (s.regRead fn off) := by
      simp only [List.mem_cons, List.not_mem_nil, or_false] at hc
      obtain rfl | rfl := hc
      · rw [exec_lowWordRead, if_pos (lowHalf_iff.mpr ⟨r, i, hr, hlow⟩)]
      · exact exec_rcRead fn off s
    exact ⟨_, hexec, s.regRead_low ha hl hx hr⟩
  case snapshot =>
    intro s fn off h hw ha hsnap hx
    exact ⟨_, exec_rcRead fn off s, s.regRead_snapshot hw ha hsnap hx⟩
  case live =>
    intro s fn off i r hw ha hr hhigh hsnap
    exact ⟨_, exec_rcRead fn off s, s.regRead_high_live hw ha hr hhigh hsnap⟩
  case ends =>
    intro s fn off val hw ha
    refine ⟨⟨_, exec_registerWrite fn off val s, by rw [State.regWrite_fnSt_same val hw ha]⟩, fun hl => ?_, ?_⟩
    · exact ⟨_, exec_rcRead fn off s, by simp [State.regRead_fnSt_same hw ha, hl]⟩
    · obtain ⟨t, ht, hfn⟩ := exec_cfgLoad_fnSt s fn val hw
      exact ⟨t, ht, by rw [hfn]; rfl⟩
  case other => exact exec_otherAccess_fns
  case unaligned =>
    intro s fn off val c ha hc
    simp only [List.mem_cons, List.not_mem_nil, or_false] at hc
    obtain rfl | rfl := hc
    · exact ⟨_, exec_registerWrite fn off val s, s.regWrite_unaligned fn off val ha⟩
    · exact ⟨_, exec_rcRead fn off s, s.regRead_unaligned fn off ha⟩
  case foreign =>
    intro s fn g off val c hg hr hc
    simp only [List.mem_cons, List.not_mem_nil, or_false] at hc
    obtain rfl | rfl := hc
    · exact ⟨_, exec_registerWrite fn off val s, by rw [s.regWrite_fnSt_ne hg hr]⟩
    · exact ⟨_, exec_rcRead fn off s, by rw [s.regRead_fnSt_ne off hg]⟩

namespace Sys2Proof.Machine

/-! ## Narrow accesses and RC registers (R8, R11) -/

theorem exec_narrowAccess (s : State) {fn : Nat} (off : Nat) (w : Bool) (h : s.dev.window fn = true) :
    exec (.narrowAccess fn off w) s = .next { s with dev := s.dev.send (.unsupported fn) } := by
  change Host.Outcome.next { s with dev := if s.dev.window fn then s.dev.send (.unsupported fn) else s.dev } = _
  rw [if_pos h]

/-- The value that most registers show: what they hold, but for their WO bits. -/
theorem Dev.shown_held (d : Dev) (i : Nat) {r : RegDesc} (hstatus : r.base ≠ SYS_STATUS.base)
    (hlevel : r.base ≠ INT_LEVEL.base) : d.shown r i = d.rd r i &&& (0xFFFFFFFF ^^^ r.wo) := by
  rw [Dev.shown, if_neg hstatus, if_neg hlevel]

/-- A read of a single RC register by the physical function: its value is returned, and its RC bits clear. -/
theorem State.regRead_rc (s : State) {off i : Nat} {r : RegDesc} (hs : s.dev.windowServed 0 off = true) (ha : off % 4 = 0)
    (hr : regAt off = some (r, i)) (hh : r.half = .single) (hrc : r.rc ≠ 0) (hsnap : (s.fnSt 0).snapshot = none) :
    (s.regRead 0 off).dev =
      (s.dev.wr r i (s.dev.rd r i &&& (0xFFFFFFFF ^^^ r.rc))).send (.readData 0 (s.dev.shown r i)) := by
  have hreach : s.dev.reach r.vread 0 r i = true := rfl
  rw [State.regRead_dev_live (Dev.window_of_served hs) ha (by simp [hsnap]), Dev.readClears_single hs hr hreach hh hrc,
    Dev.readAt_reached hs hr hreach]

end Sys2Proof.Machine

/-- Settles O8: a narrow access only answers, and a read of an RC register writes back its value without the RC bits. -/
theorem registerReads : Obligations.RegisterReads := by
  unfold Obligations.RegisterReads
  refine ⟨?narrow, ?rc, ?width⟩
  case narrow =>
    intro s fn off w hw
    exact exec_narrowAccess s off w hw
  case rc =>
    intro s off i r hs ha hr hh hrc haddr hstatus hlevel hsnap
    refine ⟨_, exec_rcRead 0 off s, ?_⟩
    rw [s.regRead_rc hs ha hr hh hrc hsnap, s.dev.shown_held i hstatus hlevel]
    refine ⟨rfl, ?_, ?_, rfl⟩
    · exact (Dev.rd_wr_same s.dev r i _).trans (Nat.mod_eq_of_lt (Nat.lt_of_le_of_lt Nat.and_le_left (s.dev.rd_lt r i)))
    · intro k hk
      exact s.dev.rdOff_wrOff_ne _ _ _ (by simpa [haddr] using hk)
  case width =>
    intro d off
    exact (d.rdOff off).isLt
end
